-- ==== Sys2Proof/Word.lean ====
section
/-! DEFINITION. Machine words of the HK7 and the names of its operand fields. -/
namespace Sys2Proof

/-- A 64-bit register or address (09 R105, 07 R70). -/
abbrev Word := BitVec 64
/-- A byte of memory (00 R3). -/
abbrev Byte := BitVec 8
/-- One 32-bit instruction word (09 R113). -/
abbrev IWord := BitVec 32
/-- An integer register X0 to X31 (09 Table 9-1). -/
abbrev XReg := BitVec 5
/-- A scalar floating-point register F0 to F15 (09 Table 9-1). -/
abbrev FReg := BitVec 4
/-- A vector register V0 to V63 (09 Table 9-1). -/
abbrev VReg := BitVec 6
/-- A mask register M0 to M7 (09 Table 9-1). -/
abbrev MReg := BitVec 3
/-- A timeline counter T0 to T15 (09 Table 9-1). -/
abbrev TReg := BitVec 4
/-- A watermark W0 to W63 (09 Table 9-1). -/
abbrev WReg := BitVec 6

end Sys2Proof
end

