-- ==== Sys2Proof/Config.lean ====
section
/-! DEFINITION. What the spec leaves open: free values, which nothing in this model evaluates. Each takes the free-value counter
of the state (log 6), so that every use may have a value of its own. -/
namespace Sys2Proof

/-- A free 64-bit pattern: one candidate for a value the spec leaves open among alternatives (log 6). -/
opaque Config.freeWord : Nat → BitVec 64
/-- A free choice among alternatives, such as which of several writers wins (log 6). -/
opaque Config.freeNat : Nat → Nat
/-- A free byte: unpredictable memory contents (log 6). -/
opaque Config.freeByte : Nat → Nat → BitVec 8
/-- Free bits for the fixed-point value of XAC while its state is not FIN (03 R38). -/
opaque Config.freeXac : Nat → BitVec 4352
/-- A signature or key the spec does not compute here (27): of the named bytes, at the free-value counter. -/
opaque Config.crypto : Nat → List (BitVec 8) → List (BitVec 8)

/-- Whether the vendor's signature of a firmware image verifies (27 R393). -/
opaque Config.imageValid : List (BitVec 8) → Bool
/-- The security version of a firmware image (27 Table 27-4). -/
opaque Config.imageVersion : List (BitVec 8) → Nat

/-- How many members the group of a communicator has on another package: of KEY and package number (25 R362). -/
opaque Config.peerMembers : Nat → Nat → Nat

end Sys2Proof
end

