-- ==== Sys2Proof/Syntax.lean ====
section
/-! DEFINITION. The instructions of the HK7 and the names of their operands, and the events and commands of its engines, scheduler, links
and host. -/
namespace Sys2Proof

/-- A plane number p = 4c + i, 0 to 511 (01 R7). -/
abbrev PlaneId := Fin 512
/-- A core number c, 0 to 127 (01 Table 1-1). -/
abbrev CoreId := Fin 128

/-- Rounding modes of a mode field (03 Table 3-4). Codes 0b110 and 0b111 are reserved. -/
inductive RMode where
  | rne | rmm | rup | rdn | rtz | dyn
  deriving DecidableEq, Repr

/-- Scopes (07 Table 7-8). Codes 0b110 and 0b111 are reserved. -/
inductive Scope where
  | plane | core | die | pkg | dom | sys
  deriving DecidableEq, Repr

/-- Orders of an atomic (09 R117). -/
inductive Order where
  | none | acq | rel | ar
  deriving DecidableEq, Repr

/-- Scalar floating-point formats (09 R106). -/
inductive FFmt where
  | f64 | f32 | f16 | bf16
  deriving DecidableEq, Repr

/-- Sizes 1, 2, 4 and 8 bytes (09 R115). -/
inductive Size where
  | b | h | w | d
  deriving DecidableEq, Repr

/-- Control registers (09 Table 9-2). -/
inductive CReg where
  | fcsr | fex0 | fex1 | vcp | planeid | grps | prio | cycle | tvec | tcause | tpc | tval | tstat | rframe | xroot | quota
  deriving DecidableEq, Repr

/-- Element tags (09 Table 9-3). -/
inductive Tag where
  | none | s8 | z8 | s16 | z16 | s32 | z32 | s64 | z64 | fp64 | fp32 | bf16 | fp16 | e4m3 | e5m2 | q4 | b16 | m32
  deriving DecidableEq, Repr

/-- Growth modes of a Trellis section (19 R303). -/
inductive Growth where
  | cond | always | none
  deriving DecidableEq, Repr

/-- Translation fault kinds (07 Table 7-5). -/
inductive XlateKind where
  | notpresent | perm | form | reserved | noncanon | quota | notarget | fearea
  deriving DecidableEq, Repr

/-- The kinds of FCVT with their registers (11 Table 11-3). -/
inductive FcvtKind where
  /-- Fa in format g to Fd. -/
  | ff (g : FFmt) (d a : FReg)
  /-- Xa as S64 to Fd. -/
  | fromS64 (d : FReg) (a : XReg)
  /-- Xa as Z64 to Fd. -/
  | fromZ64 (d : FReg) (a : XReg)
  /-- Fa to S64 in Xd. -/
  | toS64 (d : XReg) (a : FReg)
  /-- Fa to Z64 in Xd. -/
  | toZ64 (d : XReg) (a : FReg)
  /-- Fa to S32 in Xd. -/
  | toS32 (d : XReg) (a : FReg)
  /-- Fa to Z32 in Xd. -/
  | toZ32 (d : XReg) (a : FReg)
  deriving DecidableEq, Repr

/-- What may fire in the Trellis fabric of a plane (19 R290, R291). -/
inductive FabUnit where
  | node (n : Nat)
  | inPort (slot : Nat)
  | outPort (slot : Nat)
  deriving DecidableEq, Repr

/-- What arrives at a collective engine from a member on another package, named by its rank (25 R367 to R378). -/
inductive CollMsg where
  /-- it has issued its operation of an ordinal: PATTERN, ROOT, COUNT -/
  | issue (ord rank pat root count : Nat)
  /-- the next chunk of its SRC for an ordinal -/
  | chunk (ord rank : Nat) (data : List Byte)
  /-- the operations of an ordinal end with a status -/
  | stop (ord status : Nat)
  /-- it has bound a stream: PATTERN, ROOT, PIECE, NPIECE -/
  | bind (ord rank pat root piece npiece : Nat)
  /-- its next piece of a stream, as element patterns -/
  | piece (ord rank : Nat) (xs : List Nat)
  /-- a stream ends with a status -/
  | close (ord status : Nat)
  deriving DecidableEq, Repr

/-- Who writes by a message of another package: a strand; an engine, which sets FULL (07 R86); or a remote port of the fabric, which sets
FULL and waits for an evicted partition (07 R83, 19 R289). -/
inductive RemoteWriter where
  | strand | engine | port
  deriving DecidableEq, Repr

/-- A message that arrives on a Troique link, at a physical address (27 R390, 07 R71). -/
inductive TroiqueMsg where
  | read (pa n : Nat)
  | write (pa : Nat) (data : List Byte) (by_ : RemoteWriter)
  /-- an atomic of a function of major 0x16, of 4 or 8 bytes, with Xb and Xd -/
  | amo (pa fn : Nat) (wide : Bool) (x cmp : Nat)
  deriving DecidableEq, Repr

/-- What MODESET may set (27 Table 27-6). -/
inductive ModeSet where
  /-- clocking: the power limit in W and the ceiling in MHz -/
  | clocking (limit ceiling : Nat)
  | slotlen (n : Nat)
  /-- bytes of lees for each stack -/
  | leesize (n : Nat)
  | scrub (hours : Nat)
  | integrity (strong : Bool)
  /-- any other mode number -/
  | other (n : Nat)
  deriving DecidableEq, Repr

/-- The header of a command message (27 R384, Table 27-2), and the AES-256-GCM key and nonce under which its TAG verifies and its payload
decrypts to what the command carries. -/
structure CmdEnv where
  session : Nat
  seq : Nat
  magic : Nat
  version : Nat
  flags : Nat
  length : Nat
  key : List Byte
  nonce : List Byte
  deriving DecidableEq, Repr

/-- One instruction, command or event of spec/opcode_table.json, one constructor per row. The fields of an encoded row are
its operands, in the encoding's order (09 Table 9-4 and each instruction's own table); those of a row without an encoding are
what the event or command carries. -/
inductive Instr where
  | add (d a b : XReg)
  | sub (d a b : XReg)
  | and (d a b : XReg)
  | or (d a b : XReg)
  | xor (d a b : XReg)
  | andn (d a b : XReg)
  | orn (d a b : XReg)
  | sll (d a b : XReg)
  | srl (d a b : XReg)
  | sra (d a b : XReg)
  | ror (d a b : XReg)
  | mul (d a b : XReg)
  | mulh (d a b : XReg)
  | mulhz (d a b : XReg)
  | div (d a b : XReg)
  | divz (d a b : XReg)
  | rem (d a b : XReg)
  | remz (d a b : XReg)
  | min (d a b : XReg)
  | max (d a b : XReg)
  | minz (d a b : XReg)
  | maxz (d a b : XReg)
  | seq (d a b : XReg)
  | slt (d a b : XReg)
  | sltz (d a b : XReg)
  | clz (d a : XReg)
  | ctz (d a : XReg)
  | popc (d a : XReg)
  | sext (d a : XReg) (w : BitVec 6)
  | zext (d a : XReg) (w : BitVec 6)
  | bfx (d a : XReg) (l : BitVec 5) (p : BitVec 6)
  | bfi (d a : XReg) (l : BitVec 5) (p : BitVec 6)
  | addi (d a : XReg) (i : BitVec 16)
  | andi (d a : XReg) (i : BitVec 16)
  | ori (d a : XReg) (i : BitVec 16)
  | xori (d a : XReg) (i : BitVec 16)
  | slti (d a : XReg) (i : BitVec 16)
  | lih (d a : XReg) (i : BitVec 16)
  | slli (d a : XReg) (s : BitVec 6)
  | srli (d a : XReg) (s : BitVec 6)
  | srai (d a : XReg) (s : BitVec 6)
  | rori (d a : XReg) (s : BitVec 6)
  | ld (d a : XReg) (z : Size) (e : BitVec 14)
  | ldz (d a : XReg) (z : Size) (e : BitVec 14)
  | st (d a : XReg) (z : Size) (e : BitVec 14)
  | fldw (d : FReg) (a : XReg) (e : BitVec 14)
  | fldd (d : FReg) (a : XReg) (e : BitVec 14)
  | fstw (d : FReg) (a : XReg) (e : BitVec 14)
  | fstd (d : FReg) (a : XReg) (e : BitVec 14)
  | beq (a b : XReg) (d : BitVec 16)
  | bne (a b : XReg) (d : BitVec 16)
  | blt (a b : XReg) (d : BitVec 16)
  | bge (a b : XReg) (d : BitVec 16)
  | blo (a b : XReg) (d : BitVec 16)
  | bhs (a b : XReg) (d : BitVec 16)
  | jl (d : XReg) (j : BitVec 21)
  | jlr (d a : XReg) (i : BitVec 16)
  | pfx (k : BitVec 26) (w : IWord)
  | fadd (d a b : FReg) (t : FFmt) (r : RMode)
  | fsub (d a b : FReg) (t : FFmt) (r : RMode)
  | fmul (d a b : FReg) (t : FFmt) (r : RMode)
  | fdiv (d a b : FReg) (t : FFmt) (r : RMode)
  | fsqrt (d a : FReg) (t : FFmt) (r : RMode)
  | fmin (d a b : FReg) (t : FFmt) (r : RMode)
  | fmax (d a b : FReg) (t : FFmt) (r : RMode)
  | fma (d a b : FReg) (t : FFmt) (r : RMode)
  | fneg (d a : FReg) (t : FFmt) (r : RMode)
  | fabs (d a : FReg) (t : FFmt) (r : RMode)
  | fcps (d a b : FReg) (t : FFmt) (r : RMode)
  | feq (d : XReg) (a b : FReg) (t : FFmt) (r : RMode)
  | flt (d : XReg) (a b : FReg) (t : FFmt) (r : RMode)
  | fle (d : XReg) (a b : FReg) (t : FFmt) (r : RMode)
  | fcvt (k : FcvtKind) (t : FFmt) (r : RMode)
  | fmovxf (d : FReg) (a : XReg) (t : FFmt) (r : RMode)
  | fmovfx (d : XReg) (a : FReg) (r : RMode)
  | fclass (d : XReg) (a : FReg) (t : FFmt) (r : RMode)
  | amoswap (d a b : XReg) (o : Order) (s : Scope) (z : Bool)
  | amocas (d a b : XReg) (o : Order) (s : Scope) (z : Bool)
  | amoadd (d a b : XReg) (o : Order) (s : Scope) (z : Bool)
  | amoand (d a b : XReg) (o : Order) (s : Scope) (z : Bool)
  | amoor (d a b : XReg) (o : Order) (s : Scope) (z : Bool)
  | amoxor (d a b : XReg) (o : Order) (s : Scope) (z : Bool)
  | amomin (d a b : XReg) (o : Order) (s : Scope) (z : Bool)
  | amomax (d a b : XReg) (o : Order) (s : Scope) (z : Bool)
  | amominz (d a b : XReg) (o : Order) (s : Scope) (z : Bool)
  | amomaxz (d a b : XReg) (o : Order) (s : Scope) (z : Bool)
  | ldacq (d a : XReg) (s : Scope) (z : Bool)
  | strel (a b : XReg) (s : Scope) (z : Bool)
  | fence (s : Scope)
  | waittl (a : XReg) (n : TReg)
  | waittlImm (v : BitVec 10) (n : TReg)
  | tlread (d : XReg) (n : TReg)
  | tlreadIss (d : XReg) (n : TReg)
  | tlbump (d a : XReg) (n : TReg)
  | qdrain (q : BitVec 5)
  | gbar (s : BitVec 2)
  | garrive (d : XReg) (s : BitVec 2)
  | gwait (a : XReg) (s : BitVec 2)
  | acwait (d a b : XReg)
  | wmpub (a : XReg) (w : WReg)
  | wmpubImm (v : BitVec 10) (w : WReg)
  | wmread (d : XReg) (w : WReg)
  | yield
  | sleep (d a b : XReg)
  | evpost (d a b : XReg)
  | launch (d a b : XReg) (n : TReg)
  | crget (d : XReg) (c : CReg)
  | crput (a : XReg) (c : CReg)
  | crswap (d a : XReg) (c : CReg)
  | ecall
  | ebreak
  | rte
  | halts
  | xinv (s : Scope)
  | xinvPage (a : XReg) (s : Scope)
  | ctxsv (a : XReg)
  | ctxld (a : XReg)
  | ifence
  | tlook (d a : XReg)
  | tset (a b : XReg)
  | tinv (d a : XReg)
  | tclr
  | feget (d a : XReg)
  | feset (a : XReg)
  | feclr (a : XReg)
  | zscan (d a b : XReg)
  | setvl (d a : XReg) (t : Tag) (g : BitVec 2)
  | cfgget (d : XReg)
  | vcpget (d : XReg)
  | vadd (d a b : VReg) (m : MReg)
  | vsub (d a b : VReg) (m : MReg)
  | vmul (d a b : VReg) (m : MReg)
  | vdiv (d a b : VReg) (m : MReg)
  | vmin (d a b : VReg) (m : MReg)
  | vmax (d a b : VReg) (m : MReg)
  | vabs (d a : VReg) (m : MReg)
  | vneg (d a : VReg) (m : MReg)
  | vsqrt (d a : VReg) (m : MReg)
  | vfma (d a b : VReg) (m : MReg)
  | vfms (d a b : VReg) (m : MReg)
  | vfnma (d a b : VReg) (m : MReg)
  | vand (d a b : VReg) (m : MReg)
  | vor (d a b : VReg) (m : MReg)
  | vxor (d a b : VReg) (m : MReg)
  | vnot (d a : VReg) (m : MReg)
  | vsll (d a b : VReg) (m : MReg)
  | vsrl (d a b : VReg) (m : MReg)
  | vsra (d a b : VReg) (m : MReg)
  | vmulh (d a b : VReg) (m : MReg)
  | vsadd (d a b : VReg) (m : MReg)
  | vssub (d a b : VReg) (m : MReg)
  | vclz (d a : VReg) (m : MReg)
  | vpopc (d a : VReg) (m : MReg)
  | vmov (d a : VReg) (m : MReg)
  | vmerge (d a b : VReg) (m : MReg)
  | vcps (d a b : VReg) (m : MReg)
  | vclass (d a : VReg) (m : MReg)
  | vmodmul (d a b : VReg) (m : MReg)
  | vmodadd (d a b : VReg) (m : MReg)
  | vmodsub (d a b : VReg) (m : MReg)
  | vtag (d a : VReg) (t : Tag)
  | vaddVs (d a : VReg) (x : BitVec 5) (m : MReg) (i : Bool)
  | vsubVs (d a : VReg) (x : BitVec 5) (m : MReg) (i : Bool)
  | vmulVs (d a : VReg) (x : BitVec 5) (m : MReg) (i : Bool)
  | vdivVs (d a : VReg) (x : BitVec 5) (m : MReg) (i : Bool)
  | vminVs (d a : VReg) (x : BitVec 5) (m : MReg) (i : Bool)
  | vmaxVs (d a : VReg) (x : BitVec 5) (m : MReg) (i : Bool)
  | vfmaVs (d a : VReg) (x : BitVec 5) (m : MReg) (i : Bool)
  | vfmsVs (d a : VReg) (x : BitVec 5) (m : MReg) (i : Bool)
  | vfnmaVs (d a : VReg) (x : BitVec 5) (m : MReg) (i : Bool)
  | vandVs (d a : VReg) (x : BitVec 5) (m : MReg) (i : Bool)
  | vorVs (d a : VReg) (x : BitVec 5) (m : MReg) (i : Bool)
  | vxorVs (d a : VReg) (x : BitVec 5) (m : MReg) (i : Bool)
  | vsllVs (d a : VReg) (x : BitVec 5) (m : MReg) (i : Bool)
  | vsrlVs (d a : VReg) (x : BitVec 5) (m : MReg) (i : Bool)
  | vsraVs (d a : VReg) (x : BitVec 5) (m : MReg) (i : Bool)
  | vmulhVs (d a : VReg) (x : BitVec 5) (m : MReg) (i : Bool)
  | vsaddVs (d a : VReg) (x : BitVec 5) (m : MReg) (i : Bool)
  | vssubVs (d a : VReg) (x : BitVec 5) (m : MReg) (i : Bool)
  | vmergeVs (d a : VReg) (x : BitVec 5) (m : MReg) (i : Bool)
  | vcpsVs (d a : VReg) (x : BitVec 5) (m : MReg) (i : Bool)
  | vmodmulVs (d a : VReg) (x : BitVec 5) (m : MReg) (i : Bool)
  | vmodaddVs (d a : VReg) (x : BitVec 5) (m : MReg) (i : Bool)
  | vmodsubVs (d a : VReg) (x : BitVec 5) (m : MReg) (i : Bool)
  | vcmpeq (d : MReg) (a b : VReg) (m : MReg)
  | vcmpne (d : MReg) (a b : VReg) (m : MReg)
  | vcmplt (d : MReg) (a b : VReg) (m : MReg)
  | vcmple (d : MReg) (a b : VReg) (m : MReg)
  | vcmpun (d : MReg) (a b : VReg) (m : MReg)
  | mand (d a b : MReg)
  | mor (d a b : MReg)
  | mxor (d a b : MReg)
  | mandn (d a b : MReg)
  | mnot (d a : MReg)
  | mpopc (d : XReg) (a m : MReg)
  | mfirst (d : XReg) (a m : MReg)
  | mset (d : MReg) (a : XReg)
  | mfromv (d : MReg) (a : VReg) (m : MReg)
  | vredsum (d a b : VReg) (m : MReg)
  | vredsumo (d a b : VReg) (m : MReg)
  | vredmin (d a b : VReg) (m : MReg)
  | vredmax (d a b : VReg) (m : MReg)
  | vredand (d a b : VReg) (m : MReg)
  | vredor (d a b : VReg) (m : MReg)
  | vredxor (d a b : VReg) (m : MReg)
  | vdot (d a b : VReg) (m : MReg)
  | vxacc (a b : VReg) (m : MReg)
  | vxrnd (d : VReg)
  | vxrndClr (d : VReg)
  | vcvth (d a : VReg) (t : Tag) (m : MReg)
  | vcvtd (d a : VReg) (t : Tag) (m : MReg)
  | vcvtf4 (d a : VReg) (t : BitVec 2)
  | vcvti (d a : VReg) (t : Tag) (m : MReg)
  | vcvtf (d a : VReg) (t : Tag) (m : MReg)
  | vquant (d a b : VReg)
  | vdeq (d a : VReg) (t : Tag) (m : MReg)
  | vscale (d a b : VReg) (m : MReg)
  | vpacks (d a b : VReg) (m : MReg)
  | vbfpn (d a : VReg) (t : Tag) (m : MReg)
  | vgathr (d a b : VReg) (m : MReg)
  | vslideup (d a : VReg) (b : XReg) (m : MReg)
  | vslidedn (d a : VReg) (b : XReg) (m : MReg)
  | vcompr (d a : VReg) (m : MReg)
  | vexpnd (d a : VReg) (m : MReg)
  | viota (d : VReg) (b m : MReg)
  | vid (d : VReg) (m : MReg)
  | vbcast (d a : VReg) (b : XReg) (m : MReg)
  | vextr (d : XReg) (a : VReg) (b : XReg)
  | vinsrt (d : VReg) (a b : XReg)
  | vrev (d a : VReg) (m : MReg)
  | vzip (d a b : VReg)
  | vunzip (d a : VReg) (h : Bool)
  | vstrp (d a : VReg) (b : XReg)
  | vconfd (d : MReg) (a : VReg) (m : MReg)
  | vld (d : VReg) (x : XReg) (m : MReg)
  | vlds (d : VReg) (x s : XReg) (m : MReg)
  | vldseg (d : VReg) (x : XReg) (m : MReg) (n : BitVec 3)
  | vldx (d : VReg) (x : XReg) (b : VReg) (m : MReg) (o : Bool)
  | vldff (d : VReg) (x : XReg) (m : MReg)
  | vldw (d : VReg) (x : XReg) (w : WReg) (m : MReg)
  | vgwin (d : VReg) (x : XReg) (b : VReg) (m : MReg) (o : Bool)
  | vldfe (d : VReg) (x : XReg) (m : MReg) (c : Bool)
  | vst (v : VReg) (x : XReg) (m : MReg)
  | vsts (v : VReg) (x s : XReg) (m : MReg)
  | vstseg (v : VReg) (x : XReg) (m : MReg) (n : BitVec 3)
  | vstx (v : VReg) (x : XReg) (b : VReg) (m : MReg) (o : Bool)
  | vstxo (v : VReg) (x : XReg) (b : VReg) (m : MReg) (o : Bool)
  | vstfe (v : VReg) (x : XReg) (m : MReg)
  | vstwm (v : VReg) (x : XReg) (w : WReg) (m : MReg)
  | upd (d : XReg) (a b : VReg) (m : MReg)
  | upda (d : XReg) (a b : VReg) (m : MReg)
  | uwin (d a : XReg)
  | uwinRel (d : XReg)
  | uacc (a b : VReg) (m : MReg)
  | umerge
  | uflush (d : XReg)
  | uregion (d a : XReg)
  | uregionRel (d a : XReg)
  | uquery (d a : XReg)
  | gcsleep (d : MReg) (a b : VReg) (m : MReg)
  | vdrain
  | sload (a : XReg) (n : TReg)
  | sarm (d a b : XReg) (n : TReg)
  | sport (a b : XReg)
  | twload (a b : XReg) (n : TReg)
  | sgrow (a : XReg) (g : Growth)
  | modcfg (a : XReg)
  | modchk (d a : XReg) (c b : Bool)
  | sstat (d a : XReg)
  | sabort (d a : XReg)
  | sfree
  | mgrp (d a : XReg)
  | mgrpRel
  | mwload (a : XReg) (n : TReg)
  | mma (a b : XReg) (c : Bool) (n : TReg)
  | maccz (c : Bool) (n : TReg)
  | maccst (a b : XReg) (c : Bool) (n : TReg)
  | maccld (a b : XReg) (c : Bool) (n : TReg)
  | maload (d a b : XReg) (k f : Bool) (n : TReg)
  | mstat (d : XReg)
  | gload (a : XReg) (n : TReg)
  | grun (d a b : XReg) (n : TReg)
  | gstat (d : XReg)
  | gfree
  | rtcfg (d a : XReg)
  | rtcfgRel (d a : XReg)
  | rtupd (d a b : XReg)
  | route (d a b : XReg) (n : TReg)
  | recv (d : XReg)
  | recvNb (d : XReg)
  | rret (a b : XReg) (n : TReg)
  | rretErr (b : XReg) (n : TReg)
  | rstat (d a : XReg)
  | rstatLate (d : XReg)
  | rhot (d a : XReg)
  | rscfg (a b : XReg)
  | rscfgInbox (a b : XReg)
  | ccomm (d a : XReg)
  | cfree (d a : XReg)
  | cbind (d a b : XReg)
  | cunbind (d a : XReg)
  | cstart (d a b : XReg) (n : TReg)
  | csend (a b : XReg) (n : TReg)
  | cfetch (a b : XReg) (n : TReg)
  | cstat (d a : XReg)
  | ccancel (d a : XReg)
  | xcopy (d a b : XReg) (n : TReg)
  | xcopyt (d a b : XReg) (e : Size) (n : TReg)
  | xdecode (d a b : XReg) (n : TReg)
  | xexport (d a b : XReg) (n : TReg)
  | xfill (d a b : XReg) (n : TReg)
  | xhost (d a b : XReg) (n : TReg)
  | xhostToh (d a b : XReg) (n : TReg)
  | xrootWrite (v : Word)
  | fcsrAccess (p : PlaneId)
  | tstatWrite (v : Word)
  | rframeWrite (v : Word)
  | vectorExecute (p : PlaneId) (groups : Nat)
  | walkRefill (p : PlaneId) (va : Word)
  | slotBoundary (core : CoreId)
  | admission (planes : List PlaneId) (bases : List Nat)
  | eviction (coh : Nat)
  | consumerEviction (coh : Nat)
  | resumption (coh : Nat)
  | retirement (coh : Nat)
  | waittlWake (p : PlaneId)
  | sleepWake (p : PlaneId)
  | sleepTimeout (p : PlaneId)
  | barrierWake (p : PlaneId)
  | acwaitWake (p : PlaneId)
  | gcsleepWake (p : PlaneId)
  | qdrainRelease (p : PlaneId)
  | vldwRelease (p : PlaneId)
  | consumingLoadWake (p : PlaneId)
  | recvWake (p : PlaneId)
  | vstwmComplete (p : PlaneId)
  | copyComplete (p : PlaneId) (n : TReg) (seq : Nat)
  | sloadInstall (p : PlaneId)
  | twloadApply (p : PlaneId)
  | modcfgApply (p : PlaneId)
  | nodeFire (p : PlaneId) (n : TReg) (seq : Nat) (u : FabUnit)
  | inputPortFeRead (p : PlaneId) (n : TReg) (seq slot g : Nat)
  | sectionRunComplete (p : PlaneId) (n : TReg) (seq : Nat)
  | matrixGroupStart (p : PlaneId)
  | matrixOpComplete (p : PlaneId) (n : TReg) (seq : Nat)
  | mgrpReleaseDone (p : PlaneId)
  | gloadInstall (p : PlaneId)
  | graphRunComplete (p : PlaneId) (n : TReg) (seq k : Nat)
  | fabricRelease (p : PlaneId)
  | graphRelease (p : PlaneId)
  | pressAccept (p : PlaneId) (n : TReg) (seq k : Nat)
  | eagerApply (reg pa : Nat)
  | updComplete (p : PlaneId) (n : TReg) (seq : Nat)
  | uflushComplete (p : PlaneId) (n : TReg) (seq : Nat)
  | regionReleaseApply (p : PlaneId)
  | routePlacement (core : CoreId) (e pick : Nat)
  | routeWaitDelivery (core : CoreId) (e pick : Nat)
  | returnApply (p : PlaneId) (n : TReg) (seq : Nat)
  | routeTimeout (core : CoreId) (e : Nat)
  | routeComplete (core : CoreId) (e : Nat)
  | communicatorJoin (c pkg : Nat)
  | chunkSend (die : Bool)
  | chunkArrival (c : Nat) (msg : CollMsg)
  | tileLand (p : PlaneId) (n : TReg) (seq tile : Nat)
  | cstartComplete (p : PlaneId) (n : TReg) (seq : Nat)
  | streamPieceDeliver (p : PlaneId) (k : Nat)
  | cfreeWithdraw (p : PlaneId)
  | cunbindClose (p : PlaneId)
  | thermalThrottle
  | workPacing (idle : Nat)
  | thermalShutdown
  | packageReset (pkg : Nat) (domain : List Nat) (trained : Bool)
  | ownerRelease
  | patrolScrub
  | flitReplay (link : Nat)
  | laneLoss (link : Nat)
  | troiqueMessage (msg : TroiqueMsg)
  | messageFail (pkg : Nat) (fails : Bool)
  | ethernetFrameDrop (port : Bool)
  | rdmaWrite (key off : Nat) (data : List Byte)
  | rdmaRead (key off len : Nat)
  | launchCommand (env : CmdEnv) (key off : Nat)
  | cancel (env : CmdEnv) (coh : Nat)
  | query (env : CmdEnv)
  | mapwin (env : CmdEnv) (num root base len : Nat) (r w : Bool)
  | unmapwin (env : CmdEnv) (num : Nat)
  | region (env : CmdEnv) (num key base len : Nat) (toh fromh : Bool)
  | unregion (env : CmdEnv) (num : Nat)
  | modeget (env : CmdEnv)
  | modeset (env : CmdEnv) (mode : ModeSet)
  | attest (env : CmdEnv) (nonce : List Byte)
  | fwupdate (env : CmdEnv) (key off len : Nat) (mgmt : Bool)
  | post (env : CmdEnv) (coh rank : Nat) (bits : Word)
  | ack (env : CmdEnv) (upto : Nat)
  | completeResend
  | illegalInstruction (w : IWord)
  | instructionFetchFault (va : Word) (kind : XlateKind)
  | verifierCiphertext (session : Nat) (ct : List Byte) (signer : Option (List Byte))
  | unknownOpcode (env : CmdEnv) (op : Nat)
  deriving DecidableEq, Repr

end Sys2Proof
end

