-- ==== Sys2Proof/WellFormed.lean ====
section
/-! DEFINITION. Which operand values an encoding admits, beyond what the operand types already say (09 R114, R124 row 2). -/
namespace Sys2Proof

/-- `i.wf`: the operands of `i` satisfy every decode-time condition that its operand types leave open: a bit field inside 64
bits (11 R137), at least two segment fields (09 R118), a mask register other than M0 as a destination (09 R108), a mask for
VLDFF (15 R228), a base register that has a successor where X(a+1) is read (15 R229 to R231), a tag other than NONE
(13 R181, R198), and a queue named (11 Table 11-5). -/
def Instr.wf (i : Instr) : Bool :=
  match i with
  | .add _ _ _ => true
  | .sub _ _ _ => true
  | .and _ _ _ => true
  | .or _ _ _ => true
  | .xor _ _ _ => true
  | .andn _ _ _ => true
  | .orn _ _ _ => true
  | .sll _ _ _ => true
  | .srl _ _ _ => true
  | .sra _ _ _ => true
  | .ror _ _ _ => true
  | .mul _ _ _ => true
  | .mulh _ _ _ => true
  | .mulhz _ _ _ => true
  | .div _ _ _ => true
  | .divz _ _ _ => true
  | .rem _ _ _ => true
  | .remz _ _ _ => true
  | .min _ _ _ => true
  | .max _ _ _ => true
  | .minz _ _ _ => true
  | .maxz _ _ _ => true
  | .seq _ _ _ => true
  | .slt _ _ _ => true
  | .sltz _ _ _ => true
  | .clz _ _ => true
  | .ctz _ _ => true
  | .popc _ _ => true
  | .sext _ _ _ => true
  | .zext _ _ _ => true
  | .bfx _ _ l p => decide (p.toNat + l.toNat < 64)
  | .bfi _ _ l p => decide (p.toNat + l.toNat < 64)
  | .addi _ _ _ => true
  | .andi _ _ _ => true
  | .ori _ _ _ => true
  | .xori _ _ _ => true
  | .slti _ _ _ => true
  | .lih _ _ _ => true
  | .slli _ _ _ => true
  | .srli _ _ _ => true
  | .srai _ _ _ => true
  | .rori _ _ _ => true
  | .ld _ _ _ _ => true
  | .ldz _ _ _ _ => true
  | .st _ _ _ _ => true
  | .fldw _ _ _ => true
  | .fldd _ _ _ => true
  | .fstw _ _ _ => true
  | .fstd _ _ _ => true
  | .beq _ _ _ => true
  | .bne _ _ _ => true
  | .blt _ _ _ => true
  | .bge _ _ _ => true
  | .blo _ _ _ => true
  | .bhs _ _ _ => true
  | .jl _ _ => true
  | .jlr _ _ _ => true
  | .pfx _ _ => true
  | .fadd _ _ _ _ _ => true
  | .fsub _ _ _ _ _ => true
  | .fmul _ _ _ _ _ => true
  | .fdiv _ _ _ _ _ => true
  | .fsqrt _ _ _ _ => true
  | .fmin _ _ _ _ _ => true
  | .fmax _ _ _ _ _ => true
  | .fma _ _ _ _ _ => true
  | .fneg _ _ _ _ => true
  | .fabs _ _ _ _ => true
  | .fcps _ _ _ _ _ => true
  | .feq _ _ _ _ _ => true
  | .flt _ _ _ _ _ => true
  | .fle _ _ _ _ _ => true
  | .fcvt _ _ _ => true
  | .fmovxf _ _ _ _ => true
  | .fmovfx _ _ _ => true
  | .fclass _ _ _ _ => true
  | .amoswap _ _ _ _ _ _ => true
  | .amocas _ _ _ _ _ _ => true
  | .amoadd _ _ _ _ _ _ => true
  | .amoand _ _ _ _ _ _ => true
  | .amoor _ _ _ _ _ _ => true
  | .amoxor _ _ _ _ _ _ => true
  | .amomin _ _ _ _ _ _ => true
  | .amomax _ _ _ _ _ _ => true
  | .amominz _ _ _ _ _ _ => true
  | .amomaxz _ _ _ _ _ _ => true
  | .ldacq _ _ _ _ => true
  | .strel _ _ _ _ => true
  | .fence _ => true
  | .waittl _ _ => true
  | .waittlImm _ _ => true
  | .tlread _ _ => true
  | .tlreadIss _ _ => true
  | .tlbump _ _ _ => true
  | .qdrain q => decide (q ≠ 0#5)
  | .gbar _ => true
  | .garrive _ _ => true
  | .gwait _ _ => true
  | .acwait _ _ _ => true
  | .wmpub _ _ => true
  | .wmpubImm _ _ => true
  | .wmread _ _ => true
  | .yield => true
  | .sleep _ _ _ => true
  | .evpost _ _ _ => true
  | .launch _ _ _ _ => true
  | .crget _ _ => true
  | .crput _ _ => true
  | .crswap _ _ _ => true
  | .ecall => true
  | .ebreak => true
  | .rte => true
  | .halts => true
  | .xinv _ => true
  | .xinvPage _ _ => true
  | .ctxsv _ => true
  | .ctxld _ => true
  | .ifence => true
  | .tlook _ _ => true
  | .tset _ _ => true
  | .tinv _ _ => true
  | .tclr => true
  | .feget _ _ => true
  | .feset _ => true
  | .feclr _ => true
  | .zscan _ _ _ => true
  | .setvl _ _ t _ => decide (t ≠ .none)
  | .cfgget _ => true
  | .vcpget _ => true
  | .vadd _ _ _ _ => true
  | .vsub _ _ _ _ => true
  | .vmul _ _ _ _ => true
  | .vdiv _ _ _ _ => true
  | .vmin _ _ _ _ => true
  | .vmax _ _ _ _ => true
  | .vabs _ _ _ => true
  | .vneg _ _ _ => true
  | .vsqrt _ _ _ => true
  | .vfma _ _ _ _ => true
  | .vfms _ _ _ _ => true
  | .vfnma _ _ _ _ => true
  | .vand _ _ _ _ => true
  | .vor _ _ _ _ => true
  | .vxor _ _ _ _ => true
  | .vnot _ _ _ => true
  | .vsll _ _ _ _ => true
  | .vsrl _ _ _ _ => true
  | .vsra _ _ _ _ => true
  | .vmulh _ _ _ _ => true
  | .vsadd _ _ _ _ => true
  | .vssub _ _ _ _ => true
  | .vclz _ _ _ => true
  | .vpopc _ _ _ => true
  | .vmov _ _ _ => true
  | .vmerge _ _ _ _ => true
  | .vcps _ _ _ _ => true
  | .vclass _ _ _ => true
  | .vmodmul _ _ _ _ => true
  | .vmodadd _ _ _ _ => true
  | .vmodsub _ _ _ _ => true
  | .vtag _ _ t => decide (t ≠ .none)
  | .vaddVs _ _ _ _ _ => true
  | .vsubVs _ _ _ _ _ => true
  | .vmulVs _ _ _ _ _ => true
  | .vdivVs _ _ _ _ _ => true
  | .vminVs _ _ _ _ _ => true
  | .vmaxVs _ _ _ _ _ => true
  | .vfmaVs _ _ _ _ _ => true
  | .vfmsVs _ _ _ _ _ => true
  | .vfnmaVs _ _ _ _ _ => true
  | .vandVs _ _ _ _ _ => true
  | .vorVs _ _ _ _ _ => true
  | .vxorVs _ _ _ _ _ => true
  | .vsllVs _ _ _ _ _ => true
  | .vsrlVs _ _ _ _ _ => true
  | .vsraVs _ _ _ _ _ => true
  | .vmulhVs _ _ _ _ _ => true
  | .vsaddVs _ _ _ _ _ => true
  | .vssubVs _ _ _ _ _ => true
  | .vmergeVs _ _ _ _ _ => true
  | .vcpsVs _ _ _ _ _ => true
  | .vmodmulVs _ _ _ _ _ => true
  | .vmodaddVs _ _ _ _ _ => true
  | .vmodsubVs _ _ _ _ _ => true
  | .vcmpeq d _ _ _ => decide (d ≠ 0#3)
  | .vcmpne d _ _ _ => decide (d ≠ 0#3)
  | .vcmplt d _ _ _ => decide (d ≠ 0#3)
  | .vcmple d _ _ _ => decide (d ≠ 0#3)
  | .vcmpun d _ _ _ => decide (d ≠ 0#3)
  | .mand d _ _ => decide (d ≠ 0#3)
  | .mor d _ _ => decide (d ≠ 0#3)
  | .mxor d _ _ => decide (d ≠ 0#3)
  | .mandn d _ _ => decide (d ≠ 0#3)
  | .mnot d _ => decide (d ≠ 0#3)
  | .mpopc _ _ _ => true
  | .mfirst _ _ _ => true
  | .mset d _ => decide (d ≠ 0#3)
  | .mfromv d _ _ => decide (d ≠ 0#3)
  | .vredsum _ _ _ _ => true
  | .vredsumo _ _ _ _ => true
  | .vredmin _ _ _ _ => true
  | .vredmax _ _ _ _ => true
  | .vredand _ _ _ _ => true
  | .vredor _ _ _ _ => true
  | .vredxor _ _ _ _ => true
  | .vdot _ _ _ _ => true
  | .vxacc _ _ _ => true
  | .vxrnd _ => true
  | .vxrndClr _ => true
  | .vcvth _ _ _ _ => true
  | .vcvtd _ _ _ _ => true
  | .vcvtf4 _ _ _ => true
  | .vcvti _ _ _ _ => true
  | .vcvtf _ _ _ _ => true
  | .vquant _ _ _ => true
  | .vdeq _ _ _ _ => true
  | .vscale _ _ _ _ => true
  | .vpacks _ _ _ _ => true
  | .vbfpn _ _ _ _ => true
  | .vgathr _ _ _ _ => true
  | .vslideup _ _ _ _ => true
  | .vslidedn _ _ _ _ => true
  | .vcompr _ _ _ => true
  | .vexpnd _ _ _ => true
  | .viota _ _ _ => true
  | .vid _ _ => true
  | .vbcast _ _ _ _ => true
  | .vextr _ _ _ => true
  | .vinsrt _ _ _ => true
  | .vrev _ _ _ => true
  | .vzip _ _ _ => true
  | .vunzip _ _ _ => true
  | .vstrp _ _ _ => true
  | .vconfd d _ _ => decide (d ≠ 0#3)
  | .vld _ _ _ => true
  | .vlds _ _ _ _ => true
  | .vldseg _ _ _ n => decide (n ≠ 0#3)
  | .vldx _ _ _ _ _ => true
  | .vldff _ _ m => decide (m ≠ 0#3)
  | .vldw _ x _ _ => decide (x ≠ 31#5)
  | .vgwin _ x _ _ _ => decide (x ≠ 31#5)
  | .vldfe _ _ _ _ => true
  | .vst _ _ _ => true
  | .vsts _ _ _ _ => true
  | .vstseg _ _ _ n => decide (n ≠ 0#3)
  | .vstx _ _ _ _ _ => true
  | .vstxo _ _ _ _ _ => true
  | .vstfe _ _ _ => true
  | .vstwm _ x _ _ => decide (x ≠ 31#5)
  | .upd _ _ _ _ => true
  | .upda _ _ _ _ => true
  | .uwin _ _ => true
  | .uwinRel _ => true
  | .uacc _ _ _ => true
  | .umerge => true
  | .uflush _ => true
  | .uregion _ _ => true
  | .uregionRel _ _ => true
  | .uquery _ _ => true
  | .gcsleep d _ _ _ => decide (d ≠ 0#3)
  | .vdrain => true
  | .sload _ _ => true
  | .sarm _ _ _ _ => true
  | .sport _ _ => true
  | .twload _ _ _ => true
  | .sgrow _ _ => true
  | .modcfg _ => true
  | .modchk _ _ _ _ => true
  | .sstat _ _ => true
  | .sabort _ _ => true
  | .sfree => true
  | .mgrp _ _ => true
  | .mgrpRel => true
  | .mwload _ _ => true
  | .mma _ _ _ _ => true
  | .maccz _ _ => true
  | .maccst _ _ _ _ => true
  | .maccld _ _ _ _ => true
  | .maload _ _ _ _ _ _ => true
  | .mstat _ => true
  | .gload _ _ => true
  | .grun _ _ _ _ => true
  | .gstat _ => true
  | .gfree => true
  | .rtcfg _ _ => true
  | .rtcfgRel _ _ => true
  | .rtupd _ _ _ => true
  | .route _ _ _ _ => true
  | .recv _ => true
  | .recvNb _ => true
  | .rret _ _ _ => true
  | .rretErr _ _ => true
  | .rstat _ _ => true
  | .rstatLate _ => true
  | .rhot _ _ => true
  | .rscfg _ _ => true
  | .rscfgInbox _ _ => true
  | .ccomm _ _ => true
  | .cfree _ _ => true
  | .cbind _ _ _ => true
  | .cunbind _ _ => true
  | .cstart _ _ _ _ => true
  | .csend _ _ _ => true
  | .cfetch _ _ _ => true
  | .cstat _ _ => true
  | .ccancel _ _ => true
  | .xcopy _ _ _ _ => true
  | .xcopyt _ _ _ _ _ => true
  | .xdecode _ _ _ _ => true
  | .xexport _ _ _ _ => true
  | .xfill _ _ _ _ => true
  | .xhost _ _ _ _ => true
  | .xhostToh _ _ _ _ => true
  | .xrootWrite _ => true
  | .fcsrAccess _ => true
  | .tstatWrite _ => true
  | .rframeWrite _ => true
  | .vectorExecute _ _ => true
  | .walkRefill _ _ => true
  | .slotBoundary _ => true
  | .admission _ _ => true
  | .eviction _ => true
  | .consumerEviction _ => true
  | .resumption _ => true
  | .retirement _ => true
  | .waittlWake _ => true
  | .sleepWake _ => true
  | .sleepTimeout _ => true
  | .barrierWake _ => true
  | .acwaitWake _ => true
  | .gcsleepWake _ => true
  | .qdrainRelease _ => true
  | .vldwRelease _ => true
  | .consumingLoadWake _ => true
  | .recvWake _ => true
  | .vstwmComplete _ => true
  | .copyComplete _ _ _ => true
  | .sloadInstall _ => true
  | .twloadApply _ => true
  | .modcfgApply _ => true
  | .nodeFire _ _ _ _ => true
  | .inputPortFeRead _ _ _ _ _ => true
  | .sectionRunComplete _ _ _ => true
  | .matrixGroupStart _ => true
  | .matrixOpComplete _ _ _ => true
  | .mgrpReleaseDone _ => true
  | .gloadInstall _ => true
  | .graphRunComplete _ _ _ _ => true
  | .fabricRelease _ => true
  | .graphRelease _ => true
  | .pressAccept _ _ _ _ => true
  | .eagerApply _ _ => true
  | .updComplete _ _ _ => true
  | .uflushComplete _ _ _ => true
  | .regionReleaseApply _ => true
  | .routePlacement _ _ _ => true
  | .routeWaitDelivery _ _ _ => true
  | .returnApply _ _ _ => true
  | .routeTimeout _ _ => true
  | .routeComplete _ _ => true
  | .communicatorJoin _ _ => true
  | .chunkSend _ => true
  | .chunkArrival _ _ => true
  | .tileLand _ _ _ _ => true
  | .cstartComplete _ _ _ => true
  | .streamPieceDeliver _ _ => true
  | .cfreeWithdraw _ => true
  | .cunbindClose _ => true
  | .thermalThrottle => true
  | .workPacing _ => true
  | .thermalShutdown => true
  | .packageReset _ _ _ => true
  | .ownerRelease => true
  | .patrolScrub => true
  | .flitReplay _ => true
  | .laneLoss _ => true
  | .troiqueMessage _ => true
  | .messageFail _ _ => true
  | .ethernetFrameDrop _ => true
  | .rdmaWrite _ _ _ => true
  | .rdmaRead _ _ _ => true
  | .launchCommand _ _ _ => true
  | .cancel _ _ => true
  | .query _ => true
  | .mapwin _ _ _ _ _ _ _ => true
  | .unmapwin _ _ => true
  | .region _ _ _ _ _ _ _ => true
  | .unregion _ _ => true
  | .modeget _ => true
  | .modeset _ _ => true
  | .attest _ _ => true
  | .fwupdate _ _ _ _ _ => true
  | .post _ _ _ _ => true
  | .ack _ _ => true
  | .completeResend => true
  | .illegalInstruction _ => true
  | .instructionFetchFault _ _ => true
  | .verifierCiphertext _ _ _ => true
  | .unknownOpcode _ _ => true

/-- The rows of spec/opcode_table.json that have an encoding. The others are events and commands, which no word encodes. -/
def Instr.encoded (i : Instr) : Bool :=
  match i with
  | .add _ _ _ => true
  | .sub _ _ _ => true
  | .and _ _ _ => true
  | .or _ _ _ => true
  | .xor _ _ _ => true
  | .andn _ _ _ => true
  | .orn _ _ _ => true
  | .sll _ _ _ => true
  | .srl _ _ _ => true
  | .sra _ _ _ => true
  | .ror _ _ _ => true
  | .mul _ _ _ => true
  | .mulh _ _ _ => true
  | .mulhz _ _ _ => true
  | .div _ _ _ => true
  | .divz _ _ _ => true
  | .rem _ _ _ => true
  | .remz _ _ _ => true
  | .min _ _ _ => true
  | .max _ _ _ => true
  | .minz _ _ _ => true
  | .maxz _ _ _ => true
  | .seq _ _ _ => true
  | .slt _ _ _ => true
  | .sltz _ _ _ => true
  | .clz _ _ => true
  | .ctz _ _ => true
  | .popc _ _ => true
  | .sext _ _ _ => true
  | .zext _ _ _ => true
  | .bfx _ _ _ _ => true
  | .bfi _ _ _ _ => true
  | .addi _ _ _ => true
  | .andi _ _ _ => true
  | .ori _ _ _ => true
  | .xori _ _ _ => true
  | .slti _ _ _ => true
  | .lih _ _ _ => true
  | .slli _ _ _ => true
  | .srli _ _ _ => true
  | .srai _ _ _ => true
  | .rori _ _ _ => true
  | .ld _ _ _ _ => true
  | .ldz _ _ _ _ => true
  | .st _ _ _ _ => true
  | .fldw _ _ _ => true
  | .fldd _ _ _ => true
  | .fstw _ _ _ => true
  | .fstd _ _ _ => true
  | .beq _ _ _ => true
  | .bne _ _ _ => true
  | .blt _ _ _ => true
  | .bge _ _ _ => true
  | .blo _ _ _ => true
  | .bhs _ _ _ => true
  | .jl _ _ => true
  | .jlr _ _ _ => true
  | .pfx _ _ => true
  | .fadd _ _ _ _ _ => true
  | .fsub _ _ _ _ _ => true
  | .fmul _ _ _ _ _ => true
  | .fdiv _ _ _ _ _ => true
  | .fsqrt _ _ _ _ => true
  | .fmin _ _ _ _ _ => true
  | .fmax _ _ _ _ _ => true
  | .fma _ _ _ _ _ => true
  | .fneg _ _ _ _ => true
  | .fabs _ _ _ _ => true
  | .fcps _ _ _ _ _ => true
  | .feq _ _ _ _ _ => true
  | .flt _ _ _ _ _ => true
  | .fle _ _ _ _ _ => true
  | .fcvt _ _ _ => true
  | .fmovxf _ _ _ _ => true
  | .fmovfx _ _ _ => true
  | .fclass _ _ _ _ => true
  | .amoswap _ _ _ _ _ _ => true
  | .amocas _ _ _ _ _ _ => true
  | .amoadd _ _ _ _ _ _ => true
  | .amoand _ _ _ _ _ _ => true
  | .amoor _ _ _ _ _ _ => true
  | .amoxor _ _ _ _ _ _ => true
  | .amomin _ _ _ _ _ _ => true
  | .amomax _ _ _ _ _ _ => true
  | .amominz _ _ _ _ _ _ => true
  | .amomaxz _ _ _ _ _ _ => true
  | .ldacq _ _ _ _ => true
  | .strel _ _ _ _ => true
  | .fence _ => true
  | .waittl _ _ => true
  | .waittlImm _ _ => true
  | .tlread _ _ => true
  | .tlreadIss _ _ => true
  | .tlbump _ _ _ => true
  | .qdrain _ => true
  | .gbar _ => true
  | .garrive _ _ => true
  | .gwait _ _ => true
  | .acwait _ _ _ => true
  | .wmpub _ _ => true
  | .wmpubImm _ _ => true
  | .wmread _ _ => true
  | .yield => true
  | .sleep _ _ _ => true
  | .evpost _ _ _ => true
  | .launch _ _ _ _ => true
  | .crget _ _ => true
  | .crput _ _ => true
  | .crswap _ _ _ => true
  | .ecall => true
  | .ebreak => true
  | .rte => true
  | .halts => true
  | .xinv _ => true
  | .xinvPage _ _ => true
  | .ctxsv _ => true
  | .ctxld _ => true
  | .ifence => true
  | .tlook _ _ => true
  | .tset _ _ => true
  | .tinv _ _ => true
  | .tclr => true
  | .feget _ _ => true
  | .feset _ => true
  | .feclr _ => true
  | .zscan _ _ _ => true
  | .setvl _ _ _ _ => true
  | .cfgget _ => true
  | .vcpget _ => true
  | .vadd _ _ _ _ => true
  | .vsub _ _ _ _ => true
  | .vmul _ _ _ _ => true
  | .vdiv _ _ _ _ => true
  | .vmin _ _ _ _ => true
  | .vmax _ _ _ _ => true
  | .vabs _ _ _ => true
  | .vneg _ _ _ => true
  | .vsqrt _ _ _ => true
  | .vfma _ _ _ _ => true
  | .vfms _ _ _ _ => true
  | .vfnma _ _ _ _ => true
  | .vand _ _ _ _ => true
  | .vor _ _ _ _ => true
  | .vxor _ _ _ _ => true
  | .vnot _ _ _ => true
  | .vsll _ _ _ _ => true
  | .vsrl _ _ _ _ => true
  | .vsra _ _ _ _ => true
  | .vmulh _ _ _ _ => true
  | .vsadd _ _ _ _ => true
  | .vssub _ _ _ _ => true
  | .vclz _ _ _ => true
  | .vpopc _ _ _ => true
  | .vmov _ _ _ => true
  | .vmerge _ _ _ _ => true
  | .vcps _ _ _ _ => true
  | .vclass _ _ _ => true
  | .vmodmul _ _ _ _ => true
  | .vmodadd _ _ _ _ => true
  | .vmodsub _ _ _ _ => true
  | .vtag _ _ _ => true
  | .vaddVs _ _ _ _ _ => true
  | .vsubVs _ _ _ _ _ => true
  | .vmulVs _ _ _ _ _ => true
  | .vdivVs _ _ _ _ _ => true
  | .vminVs _ _ _ _ _ => true
  | .vmaxVs _ _ _ _ _ => true
  | .vfmaVs _ _ _ _ _ => true
  | .vfmsVs _ _ _ _ _ => true
  | .vfnmaVs _ _ _ _ _ => true
  | .vandVs _ _ _ _ _ => true
  | .vorVs _ _ _ _ _ => true
  | .vxorVs _ _ _ _ _ => true
  | .vsllVs _ _ _ _ _ => true
  | .vsrlVs _ _ _ _ _ => true
  | .vsraVs _ _ _ _ _ => true
  | .vmulhVs _ _ _ _ _ => true
  | .vsaddVs _ _ _ _ _ => true
  | .vssubVs _ _ _ _ _ => true
  | .vmergeVs _ _ _ _ _ => true
  | .vcpsVs _ _ _ _ _ => true
  | .vmodmulVs _ _ _ _ _ => true
  | .vmodaddVs _ _ _ _ _ => true
  | .vmodsubVs _ _ _ _ _ => true
  | .vcmpeq _ _ _ _ => true
  | .vcmpne _ _ _ _ => true
  | .vcmplt _ _ _ _ => true
  | .vcmple _ _ _ _ => true
  | .vcmpun _ _ _ _ => true
  | .mand _ _ _ => true
  | .mor _ _ _ => true
  | .mxor _ _ _ => true
  | .mandn _ _ _ => true
  | .mnot _ _ => true
  | .mpopc _ _ _ => true
  | .mfirst _ _ _ => true
  | .mset _ _ => true
  | .mfromv _ _ _ => true
  | .vredsum _ _ _ _ => true
  | .vredsumo _ _ _ _ => true
  | .vredmin _ _ _ _ => true
  | .vredmax _ _ _ _ => true
  | .vredand _ _ _ _ => true
  | .vredor _ _ _ _ => true
  | .vredxor _ _ _ _ => true
  | .vdot _ _ _ _ => true
  | .vxacc _ _ _ => true
  | .vxrnd _ => true
  | .vxrndClr _ => true
  | .vcvth _ _ _ _ => true
  | .vcvtd _ _ _ _ => true
  | .vcvtf4 _ _ _ => true
  | .vcvti _ _ _ _ => true
  | .vcvtf _ _ _ _ => true
  | .vquant _ _ _ => true
  | .vdeq _ _ _ _ => true
  | .vscale _ _ _ _ => true
  | .vpacks _ _ _ _ => true
  | .vbfpn _ _ _ _ => true
  | .vgathr _ _ _ _ => true
  | .vslideup _ _ _ _ => true
  | .vslidedn _ _ _ _ => true
  | .vcompr _ _ _ => true
  | .vexpnd _ _ _ => true
  | .viota _ _ _ => true
  | .vid _ _ => true
  | .vbcast _ _ _ _ => true
  | .vextr _ _ _ => true
  | .vinsrt _ _ _ => true
  | .vrev _ _ _ => true
  | .vzip _ _ _ => true
  | .vunzip _ _ _ => true
  | .vstrp _ _ _ => true
  | .vconfd _ _ _ => true
  | .vld _ _ _ => true
  | .vlds _ _ _ _ => true
  | .vldseg _ _ _ _ => true
  | .vldx _ _ _ _ _ => true
  | .vldff _ _ _ => true
  | .vldw _ _ _ _ => true
  | .vgwin _ _ _ _ _ => true
  | .vldfe _ _ _ _ => true
  | .vst _ _ _ => true
  | .vsts _ _ _ _ => true
  | .vstseg _ _ _ _ => true
  | .vstx _ _ _ _ _ => true
  | .vstxo _ _ _ _ _ => true
  | .vstfe _ _ _ => true
  | .vstwm _ _ _ _ => true
  | .upd _ _ _ _ => true
  | .upda _ _ _ _ => true
  | .uwin _ _ => true
  | .uwinRel _ => true
  | .uacc _ _ _ => true
  | .umerge => true
  | .uflush _ => true
  | .uregion _ _ => true
  | .uregionRel _ _ => true
  | .uquery _ _ => true
  | .gcsleep _ _ _ _ => true
  | .vdrain => true
  | .sload _ _ => true
  | .sarm _ _ _ _ => true
  | .sport _ _ => true
  | .twload _ _ _ => true
  | .sgrow _ _ => true
  | .modcfg _ => true
  | .modchk _ _ _ _ => true
  | .sstat _ _ => true
  | .sabort _ _ => true
  | .sfree => true
  | .mgrp _ _ => true
  | .mgrpRel => true
  | .mwload _ _ => true
  | .mma _ _ _ _ => true
  | .maccz _ _ => true
  | .maccst _ _ _ _ => true
  | .maccld _ _ _ _ => true
  | .maload _ _ _ _ _ _ => true
  | .mstat _ => true
  | .gload _ _ => true
  | .grun _ _ _ _ => true
  | .gstat _ => true
  | .gfree => true
  | .rtcfg _ _ => true
  | .rtcfgRel _ _ => true
  | .rtupd _ _ _ => true
  | .route _ _ _ _ => true
  | .recv _ => true
  | .recvNb _ => true
  | .rret _ _ _ => true
  | .rretErr _ _ => true
  | .rstat _ _ => true
  | .rstatLate _ => true
  | .rhot _ _ => true
  | .rscfg _ _ => true
  | .rscfgInbox _ _ => true
  | .ccomm _ _ => true
  | .cfree _ _ => true
  | .cbind _ _ _ => true
  | .cunbind _ _ => true
  | .cstart _ _ _ _ => true
  | .csend _ _ _ => true
  | .cfetch _ _ _ => true
  | .cstat _ _ => true
  | .ccancel _ _ => true
  | .xcopy _ _ _ _ => true
  | .xcopyt _ _ _ _ _ => true
  | .xdecode _ _ _ _ => true
  | .xexport _ _ _ _ => true
  | .xfill _ _ _ _ => true
  | .xhost _ _ _ _ => true
  | .xhostToh _ _ _ _ => true
  | .xrootWrite _ => false
  | .fcsrAccess _ => false
  | .tstatWrite _ => false
  | .rframeWrite _ => false
  | .vectorExecute _ _ => false
  | .walkRefill _ _ => false
  | .slotBoundary _ => false
  | .admission _ _ => false
  | .eviction _ => false
  | .consumerEviction _ => false
  | .resumption _ => false
  | .retirement _ => false
  | .waittlWake _ => false
  | .sleepWake _ => false
  | .sleepTimeout _ => false
  | .barrierWake _ => false
  | .acwaitWake _ => false
  | .gcsleepWake _ => false
  | .qdrainRelease _ => false
  | .vldwRelease _ => false
  | .consumingLoadWake _ => false
  | .recvWake _ => false
  | .vstwmComplete _ => false
  | .copyComplete _ _ _ => false
  | .sloadInstall _ => false
  | .twloadApply _ => false
  | .modcfgApply _ => false
  | .nodeFire _ _ _ _ => false
  | .inputPortFeRead _ _ _ _ _ => false
  | .sectionRunComplete _ _ _ => false
  | .matrixGroupStart _ => false
  | .matrixOpComplete _ _ _ => false
  | .mgrpReleaseDone _ => false
  | .gloadInstall _ => false
  | .graphRunComplete _ _ _ _ => false
  | .fabricRelease _ => false
  | .graphRelease _ => false
  | .pressAccept _ _ _ _ => false
  | .eagerApply _ _ => false
  | .updComplete _ _ _ => false
  | .uflushComplete _ _ _ => false
  | .regionReleaseApply _ => false
  | .routePlacement _ _ _ => false
  | .routeWaitDelivery _ _ _ => false
  | .returnApply _ _ _ => false
  | .routeTimeout _ _ => false
  | .routeComplete _ _ => false
  | .communicatorJoin _ _ => false
  | .chunkSend _ => false
  | .chunkArrival _ _ => false
  | .tileLand _ _ _ _ => false
  | .cstartComplete _ _ _ => false
  | .streamPieceDeliver _ _ => false
  | .cfreeWithdraw _ => false
  | .cunbindClose _ => false
  | .thermalThrottle => false
  | .workPacing _ => false
  | .thermalShutdown => false
  | .packageReset _ _ _ => false
  | .ownerRelease => false
  | .patrolScrub => false
  | .flitReplay _ => false
  | .laneLoss _ => false
  | .troiqueMessage _ => false
  | .messageFail _ _ => false
  | .ethernetFrameDrop _ => false
  | .rdmaWrite _ _ _ => false
  | .rdmaRead _ _ _ => false
  | .launchCommand _ _ _ => false
  | .cancel _ _ => false
  | .query _ => false
  | .mapwin _ _ _ _ _ _ _ => false
  | .unmapwin _ _ => false
  | .region _ _ _ _ _ _ _ => false
  | .unregion _ _ => false
  | .modeget _ => false
  | .modeset _ _ => false
  | .attest _ _ => false
  | .fwupdate _ _ _ _ _ => false
  | .post _ _ _ _ => false
  | .ack _ _ => false
  | .completeResend => false
  | .illegalInstruction _ => false
  | .instructionFetchFault _ _ => false
  | .verifierCiphertext _ _ _ => false
  | .unknownOpcode _ _ => false

end Sys2Proof
end

