-- ==== Sys2Proof/Decode.lean ====
section
/-! DEFINITION. The codes of operand fields, the word formats, the decoder and the encoder (09 R105 to R124). -/
namespace Sys2Proof

/-- 09 R117, 03 Table 3-4. -/
def RMode.code : RMode → BitVec 3
  | .rne => 0 | .rmm => 1 | .rup => 2 | .rdn => 3 | .rtz => 4 | .dyn => 5
/-- A rounding mode field; 0b110 and 0b111 are reserved (03 R26). -/
def RMode.ofCode? (c : BitVec 3) : Option RMode :=
  match c.toNat with
  | 0 => some .rne | 1 => some .rmm | 2 => some .rup | 3 => some .rdn | 4 => some .rtz | 5 => some .dyn | _ => none
/-- 07 Table 7-8. -/
def Scope.code : Scope → BitVec 3
  | .plane => 0 | .core => 1 | .die => 2 | .pkg => 3 | .dom => 4 | .sys => 5
/-- A scope field; 0b110 and 0b111 are reserved (07 Table 7-8). -/
def Scope.ofCode? (c : BitVec 3) : Option Scope :=
  match c.toNat with
  | 0 => some .plane | 1 => some .core | 2 => some .die | 3 => some .pkg | 4 => some .dom | 5 => some .sys | _ => none
/-- 09 R117. -/
def Order.code : Order → BitVec 2
  | .none => 0 | .acq => 1 | .rel => 2 | .ar => 3
/-- An order field; every code is an order (09 R117). -/
def Order.ofCode (c : BitVec 2) : Order :=
  match c.toNat with
  | 0 => .none | 1 => .acq | 2 => .rel | _ => .ar
/-- 09 R106. -/
def FFmt.code : FFmt → BitVec 2
  | .f64 => 0 | .f32 => 1 | .f16 => 2 | .bf16 => 3
/-- A format field; every code is a format (09 R106). -/
def FFmt.ofCode? (c : BitVec 2) : Option FFmt :=
  match c.toNat with
  | 0 => some .f64 | 1 => some .f32 | 2 => some .f16 | _ => some .bf16
/-- 09 R115. -/
def Size.code : Size → BitVec 2
  | .b => 0 | .h => 1 | .w => 2 | .d => 3
/-- A size field; every code is a size (09 R115). -/
def Size.ofCode? (c : BitVec 2) : Option Size :=
  match c.toNat with
  | 0 => some .b | 1 => some .h | 2 => some .w | _ => some .d
/-- 19 R303. -/
def Growth.code : Growth → BitVec 2
  | .cond => 0 | .always => 1 | .none => 2
/-- A growth field; 0b11 is illegal (19 R303). -/
def Growth.ofCode? (c : BitVec 2) : Option Growth :=
  match c.toNat with
  | 0 => some .cond | 1 => some .always | 2 => some .none | _ => Option.none
/-- 09 Table 9-2. -/
def CReg.code : CReg → BitVec 11
  | .fcsr => 0x000 | .fex0 => 0x001 | .fex1 => 0x002 | .vcp => 0x003 | .planeid => 0x004 | .grps => 0x005 | .prio => 0x006
  | .cycle => 0x007 | .tvec => 0x010 | .tcause => 0x011 | .tpc => 0x012 | .tval => 0x013 | .tstat => 0x014
  | .rframe => 0x015 | .xroot => 0x020 | .quota => 0x021
/-- A control register number; a number not in Table 9-2 names none (09 R109). -/
def CReg.ofCode? (c : BitVec 11) : Option CReg :=
  match c.toNat with
  | 0x000 => some .fcsr | 0x001 => some .fex0 | 0x002 => some .fex1 | 0x003 => some .vcp | 0x004 => some .planeid
  | 0x005 => some .grps | 0x006 => some .prio | 0x007 => some .cycle | 0x010 => some .tvec | 0x011 => some .tcause
  | 0x012 => some .tpc | 0x013 => some .tval | 0x014 => some .tstat | 0x015 => some .rframe | 0x020 => some .xroot
  | 0x021 => some .quota | _ => none
/-- 09 Table 9-3. -/
def Tag.code : Tag → BitVec 5
  | .none => 0x00 | .s8 => 0x01 | .z8 => 0x02 | .s16 => 0x03 | .z16 => 0x04 | .s32 => 0x05 | .z32 => 0x06 | .s64 => 0x07
  | .z64 => 0x08 | .fp64 => 0x09 | .fp32 => 0x0A | .bf16 => 0x0B | .fp16 => 0x0C | .e4m3 => 0x0D | .e5m2 => 0x0E
  | .q4 => 0x0F | .b16 => 0x10 | .m32 => 0x11
/-- A tag field; 0x12 to 0x1F are reserved (09 R110). -/
def Tag.ofCode? (c : BitVec 5) : Option Tag :=
  match c.toNat with
  | 0x00 => some .none | 0x01 => some .s8 | 0x02 => some .z8 | 0x03 => some .s16 | 0x04 => some .z16 | 0x05 => some .s32
  | 0x06 => some .z32 | 0x07 => some .s64 | 0x08 => some .z64 | 0x09 => some .fp64 | 0x0A => some .fp32 | 0x0B => some .bf16
  | 0x0C => some .fp16 | 0x0D => some .e4m3 | 0x0E => some .e5m2 | 0x0F => some .q4 | 0x10 => some .b16
  | 0x11 => some .m32 | _ => Option.none
/-- A field that names an F register; 16 to 31 are beyond the file (09 R114). -/
def freg? (x : BitVec 5) : Option FReg := if x.extractLsb' 4 1 = 0#1 then some (x.extractLsb' 0 4) else none
/-- A 6-bit field that names a mask register; 8 to 63 are beyond the file (09 R114). -/
def mreg? (x : BitVec 6) : Option MReg := if x.extractLsb' 3 3 = 0#3 then some (x.extractLsb' 0 3) else none
/-- A 6-bit field that names an X register; 32 to 63 are beyond the file (13 R199, R214). -/
def xreg? (x : BitVec 6) : Option XReg := if x.extractLsb' 5 1 = 0#1 then some (x.extractLsb' 0 5) else none

/-- Field b of FCVT (11 Table 11-3). -/
def FcvtKind.kindCode : FcvtKind → BitVec 5
  | .ff g _ _ => 0#3 ++ g.code
  | .fromS64 _ _ => 0b01000 | .fromZ64 _ _ => 0b01001
  | .toS64 _ _ => 0b10000 | .toZ64 _ _ => 0b10001 | .toS32 _ _ => 0b10010 | .toZ32 _ _ => 0b10011
/-- Field d of FCVT (11 Table 11-3). -/
def FcvtKind.dCode : FcvtKind → BitVec 5
  | .ff _ d _ => 0#1 ++ d | .fromS64 d _ => 0#1 ++ d | .fromZ64 d _ => 0#1 ++ d
  | .toS64 d _ => d | .toZ64 d _ => d | .toS32 d _ => d | .toZ32 d _ => d
/-- Field a of FCVT (11 Table 11-3). -/
def FcvtKind.aCode : FcvtKind → BitVec 5
  | .ff _ _ a => 0#1 ++ a | .fromS64 _ a => a | .fromZ64 _ a => a
  | .toS64 _ a => 0#1 ++ a | .toZ64 _ a => 0#1 ++ a | .toS32 _ a => 0#1 ++ a | .toZ32 _ a => 0#1 ++ a
/-- The kind that fields d, a and b of FCVT name; any other b value names none (11 R145). -/
def fcvtKind? (d a b : BitVec 5) : Option FcvtKind :=
  if b.extractLsb' 2 3 = 0#3 then
    (FFmt.ofCode? (b.extractLsb' 0 2)).bind fun g => (freg? d).bind fun d => (freg? a).bind fun a => some (.ff g d a)
  else match b.toNat with
  | 0b01000 => (freg? d).bind fun d => some (.fromS64 d a)
  | 0b01001 => (freg? d).bind fun d => some (.fromZ64 d a)
  | 0b10000 => (freg? a).bind fun a => some (.toS64 d a)
  | 0b10001 => (freg? a).bind fun a => some (.toZ64 d a)
  | 0b10010 => (freg? a).bind fun a => some (.toS32 d a)
  | 0b10011 => (freg? a).bind fun a => some (.toZ32 d a)
  | _ => none

/-- Formats RRR and E (09 Table 9-4). -/
def packR (op : BitVec 6) (d a b fn : BitVec 5) (mod : BitVec 6) : IWord := op ++ d ++ a ++ b ++ fn ++ mod
/-- Formats I16 and B16 (09 Table 9-4). -/
def packI (op : BitVec 6) (d a : BitVec 5) (imm : BitVec 16) : IWord := op ++ d ++ a ++ imm
/-- Format J21 (09 Table 9-4). -/
def packJ (op : BitVec 6) (d : BitVec 5) (j : BitVec 21) : IWord := op ++ d ++ j
/-- Format V3 (09 Table 9-4). -/
def packV (op vd va vb : BitVec 6) (m : BitVec 3) (fn : BitVec 5) : IWord := op ++ vd ++ va ++ vb ++ m ++ fn
/-- Format VS (09 Table 9-4). -/
def packS (op vd va : BitVec 6) (xb : BitVec 5) (m : BitVec 3) (i : BitVec 1) (fn : BitVec 5) : IWord :=
  op ++ vd ++ va ++ xb ++ m ++ i ++ fn
/-- Format VM (09 Table 9-4). -/
def packM (op vd : BitVec 6) (xa : BitVec 5) (b : BitVec 6) (m q fn : BitVec 3) : IWord := op ++ vd ++ xa ++ b ++ m ++ q ++ fn

/-- Bits 31:26, the major opcode (09 R113). -/
def fldOp (w : IWord) : BitVec 6 := w.extractLsb' 26 6
/-- Bits 25:21 of RRR, I16, B16, J21 and E. -/
def fldD (w : IWord) : BitVec 5 := w.extractLsb' 21 5
/-- Bits 20:16 of RRR, I16, B16 and E. -/
def fldA (w : IWord) : BitVec 5 := w.extractLsb' 16 5
/-- Bits 15:11 of RRR and E. -/
def fldB (w : IWord) : BitVec 5 := w.extractLsb' 11 5
/-- Bits 10:6 of RRR and E. -/
def fldFn (w : IWord) : BitVec 5 := w.extractLsb' 6 5
/-- Bits 5:0 of RRR and E. -/
def fldMod (w : IWord) : BitVec 6 := w.extractLsb' 0 6
/-- Bits 15:0 of I16 and B16. -/
def fldImm (w : IWord) : BitVec 16 := w.extractLsb' 0 16
/-- Bits 20:0 of J21. -/
def fldJ (w : IWord) : BitVec 21 := w.extractLsb' 0 21
/-- Bits 25:20 of V3, VS and VM. -/
def fldVd (w : IWord) : BitVec 6 := w.extractLsb' 20 6
/-- Bits 19:14 of V3 and VS. -/
def fldVa (w : IWord) : BitVec 6 := w.extractLsb' 14 6
/-- Bits 13:8 of V3. -/
def fldVb (w : IWord) : BitVec 6 := w.extractLsb' 8 6
/-- Bits 7:5 of V3. -/
def fldM (w : IWord) : BitVec 3 := w.extractLsb' 5 3
/-- Bits 4:0 of V3 and VS. -/
def fldVfn (w : IWord) : BitVec 5 := w.extractLsb' 0 5
/-- Bits 13:9 of VS. -/
def fldXb (w : IWord) : BitVec 5 := w.extractLsb' 9 5
/-- Bits 8:6 of VS and VM. -/
def fldSm (w : IWord) : BitVec 3 := w.extractLsb' 6 3
/-- Bit 5 of VS. -/
def fldSi (w : IWord) : BitVec 1 := w.extractLsb' 5 1
/-- Bits 19:15 of VM. -/
def fldXa (w : IWord) : BitVec 5 := w.extractLsb' 15 5
/-- Bits 14:9 of VM. -/
def fldMb (w : IWord) : BitVec 6 := w.extractLsb' 9 6
/-- Bits 5:3 of VM. -/
def fldMq (w : IWord) : BitVec 3 := w.extractLsb' 3 3
/-- Bits 2:0 of VM. -/
def fldMfn (w : IWord) : BitVec 3 := w.extractLsb' 0 3

/-- The instruction `i` if its operands are admitted, else no instruction (09 R124 row 2). -/
def guardWf (i : Instr) : Option Instr := if i.wf then some i else none

/-- Major 0x01 (09 Table 9-5). A function at or beyond the count has no instruction (09 R119). -/
def decodeInt (d a b fn : BitVec 5) (mod : BitVec 6) : Option Instr :=
  match fn.toNat with
  | 0 => if mod = 0#6 then some (.add d a b) else none
  | 1 => if mod = 0#6 then some (.sub d a b) else none
  | 2 => if mod = 0#6 then some (.and d a b) else none
  | 3 => if mod = 0#6 then some (.or d a b) else none
  | 4 => if mod = 0#6 then some (.xor d a b) else none
  | 5 => if mod = 0#6 then some (.andn d a b) else none
  | 6 => if mod = 0#6 then some (.orn d a b) else none
  | 7 => if mod = 0#6 then some (.sll d a b) else none
  | 8 => if mod = 0#6 then some (.srl d a b) else none
  | 9 => if mod = 0#6 then some (.sra d a b) else none
  | 10 => if mod = 0#6 then some (.ror d a b) else none
  | 11 => if mod = 0#6 then some (.mul d a b) else none
  | 12 => if mod = 0#6 then some (.mulh d a b) else none
  | 13 => if mod = 0#6 then some (.mulhz d a b) else none
  | 14 => if mod = 0#6 then some (.div d a b) else none
  | 15 => if mod = 0#6 then some (.divz d a b) else none
  | 16 => if mod = 0#6 then some (.rem d a b) else none
  | 17 => if mod = 0#6 then some (.remz d a b) else none
  | 18 => if mod = 0#6 then some (.min d a b) else none
  | 19 => if mod = 0#6 then some (.max d a b) else none
  | 20 => if mod = 0#6 then some (.minz d a b) else none
  | 21 => if mod = 0#6 then some (.maxz d a b) else none
  | 22 => if mod = 0#6 then some (.seq d a b) else none
  | 23 => if mod = 0#6 then some (.slt d a b) else none
  | 24 => if mod = 0#6 then some (.sltz d a b) else none
  | 25 => if b = 0#5 ∧ mod = 0#6 then some (.clz d a) else none
  | 26 => if b = 0#5 ∧ mod = 0#6 then some (.ctz d a) else none
  | 27 => if b = 0#5 ∧ mod = 0#6 then some (.popc d a) else none
  | 28 => if b = 0#5 then some (.sext d a mod) else none
  | 29 => if b = 0#5 then some (.zext d a mod) else none
  | 30 => guardWf (.bfx d a b mod)
  | 31 => guardWf (.bfi d a b mod)
  | _ => none

/-- Major 0x02 (09 Table 9-5). -/
def decodeAddi (d a : BitVec 5) (imm : BitVec 16) : Option Instr :=
  some (.addi d a imm)

/-- Major 0x03 (09 Table 9-5). -/
def decodeAndi (d a : BitVec 5) (imm : BitVec 16) : Option Instr :=
  some (.andi d a imm)

/-- Major 0x04 (09 Table 9-5). -/
def decodeOri (d a : BitVec 5) (imm : BitVec 16) : Option Instr :=
  some (.ori d a imm)

/-- Major 0x05 (09 Table 9-5). -/
def decodeXori (d a : BitVec 5) (imm : BitVec 16) : Option Instr :=
  some (.xori d a imm)

/-- Major 0x06 (09 Table 9-5). -/
def decodeSlti (d a : BitVec 5) (imm : BitVec 16) : Option Instr :=
  some (.slti d a imm)

/-- Major 0x07 (09 Table 9-5). -/
def decodeLih (d a : BitVec 5) (imm : BitVec 16) : Option Instr :=
  some (.lih d a imm)

/-- Major 0x08 (09 Table 9-5). A function at or beyond the count has no instruction (09 R119). -/
def decodeShi (d a : BitVec 5) (imm : BitVec 16) : Option Instr :=
  match (imm.extractLsb' 14 2).toNat with
  | 0 => if imm.extractLsb' 6 10 = 0#10 then some (.slli d a (imm.extractLsb' 0 6)) else none
  | 1 => if imm.extractLsb' 6 10 = 256#10 then some (.srli d a (imm.extractLsb' 0 6)) else none
  | 2 => if imm.extractLsb' 6 10 = 512#10 then some (.srai d a (imm.extractLsb' 0 6)) else none
  | 3 => if imm.extractLsb' 6 10 = 768#10 then some (.rori d a (imm.extractLsb' 0 6)) else none
  | _ => none

/-- Major 0x09 (09 Table 9-5). -/
def decodeLd (d a : BitVec 5) (imm : BitVec 16) : Option Instr :=
  (Size.ofCode? (imm.extractLsb' 14 2)).bind fun z' => some (.ld d a z' (imm.extractLsb' 0 14))

/-- Major 0x0A (09 Table 9-5). -/
def decodeLdz (d a : BitVec 5) (imm : BitVec 16) : Option Instr :=
  (Size.ofCode? (imm.extractLsb' 14 2)).bind fun z' => some (.ldz d a z' (imm.extractLsb' 0 14))

/-- Major 0x0B (09 Table 9-5). -/
def decodeSt (d a : BitVec 5) (imm : BitVec 16) : Option Instr :=
  (Size.ofCode? (imm.extractLsb' 14 2)).bind fun z' => some (.st d a z' (imm.extractLsb' 0 14))

/-- Major 0x0C (09 Table 9-5). A function at or beyond the count has no instruction (09 R119). -/
def decodeFmem (d a : BitVec 5) (imm : BitVec 16) : Option Instr :=
  match (imm.extractLsb' 14 2).toNat with
  | 0 => (freg? d).bind fun d' => some (.fldw d' a (imm.extractLsb' 0 14))
  | 1 => (freg? d).bind fun d' => some (.fldd d' a (imm.extractLsb' 0 14))
  | 2 => (freg? d).bind fun d' => some (.fstw d' a (imm.extractLsb' 0 14))
  | 3 => (freg? d).bind fun d' => some (.fstd d' a (imm.extractLsb' 0 14))
  | _ => none

/-- Major 0x0D (09 Table 9-5). -/
def decodeBeq (d a : BitVec 5) (imm : BitVec 16) : Option Instr :=
  some (.beq d a imm)

/-- Major 0x0E (09 Table 9-5). -/
def decodeBne (d a : BitVec 5) (imm : BitVec 16) : Option Instr :=
  some (.bne d a imm)

/-- Major 0x0F (09 Table 9-5). -/
def decodeBlt (d a : BitVec 5) (imm : BitVec 16) : Option Instr :=
  some (.blt d a imm)

/-- Major 0x10 (09 Table 9-5). -/
def decodeBge (d a : BitVec 5) (imm : BitVec 16) : Option Instr :=
  some (.bge d a imm)

/-- Major 0x11 (09 Table 9-5). -/
def decodeBlo (d a : BitVec 5) (imm : BitVec 16) : Option Instr :=
  some (.blo d a imm)

/-- Major 0x12 (09 Table 9-5). -/
def decodeBhs (d a : BitVec 5) (imm : BitVec 16) : Option Instr :=
  some (.bhs d a imm)

/-- Major 0x13 (09 Table 9-5). -/
def decodeJl (d : BitVec 5) (j : BitVec 21) : Option Instr :=
  some (.jl d j)

/-- Major 0x14 (09 Table 9-5). -/
def decodeJlr (d a : BitVec 5) (imm : BitVec 16) : Option Instr :=
  some (.jlr d a imm)

/-- Major 0x15 (09 Table 9-5). A function at or beyond the count has no instruction (09 R119). -/
def decodeFp (d a b fn : BitVec 5) (mod : BitVec 6) : Option Instr :=
  match fn.toNat with
  | 0 => if mod.extractLsb' 3 1 = 0#1 then (freg? d).bind fun d' => (freg? a).bind fun a' => (freg? b).bind fun b' => (FFmt.ofCode? (mod.extractLsb' 4 2)).bind fun t' => (RMode.ofCode? (mod.extractLsb' 0 3)).bind fun r' => some (.fadd d' a' b' t' r') else none
  | 1 => if mod.extractLsb' 3 1 = 0#1 then (freg? d).bind fun d' => (freg? a).bind fun a' => (freg? b).bind fun b' => (FFmt.ofCode? (mod.extractLsb' 4 2)).bind fun t' => (RMode.ofCode? (mod.extractLsb' 0 3)).bind fun r' => some (.fsub d' a' b' t' r') else none
  | 2 => if mod.extractLsb' 3 1 = 0#1 then (freg? d).bind fun d' => (freg? a).bind fun a' => (freg? b).bind fun b' => (FFmt.ofCode? (mod.extractLsb' 4 2)).bind fun t' => (RMode.ofCode? (mod.extractLsb' 0 3)).bind fun r' => some (.fmul d' a' b' t' r') else none
  | 3 => if mod.extractLsb' 3 1 = 0#1 then (freg? d).bind fun d' => (freg? a).bind fun a' => (freg? b).bind fun b' => (FFmt.ofCode? (mod.extractLsb' 4 2)).bind fun t' => (RMode.ofCode? (mod.extractLsb' 0 3)).bind fun r' => some (.fdiv d' a' b' t' r') else none
  | 4 => if b = 0#5 ∧ mod.extractLsb' 3 1 = 0#1 then (freg? d).bind fun d' => (freg? a).bind fun a' => (FFmt.ofCode? (mod.extractLsb' 4 2)).bind fun t' => (RMode.ofCode? (mod.extractLsb' 0 3)).bind fun r' => some (.fsqrt d' a' t' r') else none
  | 5 => if mod.extractLsb' 3 1 = 0#1 then (freg? d).bind fun d' => (freg? a).bind fun a' => (freg? b).bind fun b' => (FFmt.ofCode? (mod.extractLsb' 4 2)).bind fun t' => (RMode.ofCode? (mod.extractLsb' 0 3)).bind fun r' => some (.fmin d' a' b' t' r') else none
  | 6 => if mod.extractLsb' 3 1 = 0#1 then (freg? d).bind fun d' => (freg? a).bind fun a' => (freg? b).bind fun b' => (FFmt.ofCode? (mod.extractLsb' 4 2)).bind fun t' => (RMode.ofCode? (mod.extractLsb' 0 3)).bind fun r' => some (.fmax d' a' b' t' r') else none
  | 7 => if mod.extractLsb' 3 1 = 0#1 then (freg? d).bind fun d' => (freg? a).bind fun a' => (freg? b).bind fun b' => (FFmt.ofCode? (mod.extractLsb' 4 2)).bind fun t' => (RMode.ofCode? (mod.extractLsb' 0 3)).bind fun r' => some (.fma d' a' b' t' r') else none
  | 8 => if b = 0#5 ∧ mod.extractLsb' 3 1 = 0#1 then (freg? d).bind fun d' => (freg? a).bind fun a' => (FFmt.ofCode? (mod.extractLsb' 4 2)).bind fun t' => (RMode.ofCode? (mod.extractLsb' 0 3)).bind fun r' => some (.fneg d' a' t' r') else none
  | 9 => if b = 0#5 ∧ mod.extractLsb' 3 1 = 0#1 then (freg? d).bind fun d' => (freg? a).bind fun a' => (FFmt.ofCode? (mod.extractLsb' 4 2)).bind fun t' => (RMode.ofCode? (mod.extractLsb' 0 3)).bind fun r' => some (.fabs d' a' t' r') else none
  | 10 => if mod.extractLsb' 3 1 = 0#1 then (freg? d).bind fun d' => (freg? a).bind fun a' => (freg? b).bind fun b' => (FFmt.ofCode? (mod.extractLsb' 4 2)).bind fun t' => (RMode.ofCode? (mod.extractLsb' 0 3)).bind fun r' => some (.fcps d' a' b' t' r') else none
  | 11 => if mod.extractLsb' 3 1 = 0#1 then (freg? a).bind fun a' => (freg? b).bind fun b' => (FFmt.ofCode? (mod.extractLsb' 4 2)).bind fun t' => (RMode.ofCode? (mod.extractLsb' 0 3)).bind fun r' => some (.feq d a' b' t' r') else none
  | 12 => if mod.extractLsb' 3 1 = 0#1 then (freg? a).bind fun a' => (freg? b).bind fun b' => (FFmt.ofCode? (mod.extractLsb' 4 2)).bind fun t' => (RMode.ofCode? (mod.extractLsb' 0 3)).bind fun r' => some (.flt d a' b' t' r') else none
  | 13 => if mod.extractLsb' 3 1 = 0#1 then (freg? a).bind fun a' => (freg? b).bind fun b' => (FFmt.ofCode? (mod.extractLsb' 4 2)).bind fun t' => (RMode.ofCode? (mod.extractLsb' 0 3)).bind fun r' => some (.fle d a' b' t' r') else none
  | 14 => if mod.extractLsb' 3 1 = 0#1 then (fcvtKind? d a b).bind fun k => (FFmt.ofCode? (mod.extractLsb' 4 2)).bind fun t' => (RMode.ofCode? (mod.extractLsb' 0 3)).bind fun r' => some (.fcvt k t' r') else none
  | 15 => if b = 0#5 ∧ mod.extractLsb' 3 1 = 0#1 then (freg? d).bind fun d' => (FFmt.ofCode? (mod.extractLsb' 4 2)).bind fun t' => (RMode.ofCode? (mod.extractLsb' 0 3)).bind fun r' => some (.fmovxf d' a t' r') else none
  | 16 => if b = 0#5 ∧ mod.extractLsb' 3 3 = 0#3 then (freg? a).bind fun a' => (RMode.ofCode? (mod.extractLsb' 0 3)).bind fun r' => some (.fmovfx d a' r') else none
  | 17 => if b = 0#5 ∧ mod.extractLsb' 3 1 = 0#1 then (freg? a).bind fun a' => (FFmt.ofCode? (mod.extractLsb' 4 2)).bind fun t' => (RMode.ofCode? (mod.extractLsb' 0 3)).bind fun r' => some (.fclass d a' t' r') else none
  | _ => none

/-- Major 0x16 (09 Table 9-5). A function at or beyond the count has no instruction (09 R119). -/
def decodeAmo (d a b fn : BitVec 5) (mod : BitVec 6) : Option Instr :=
  match fn.toNat with
  | 0 => (Scope.ofCode? (mod.extractLsb' 1 3)).bind fun s' => some (.amoswap d a b (Order.ofCode (mod.extractLsb' 4 2)) s' ((mod.extractLsb' 0 1) == 1#1))
  | 1 => (Scope.ofCode? (mod.extractLsb' 1 3)).bind fun s' => some (.amocas d a b (Order.ofCode (mod.extractLsb' 4 2)) s' ((mod.extractLsb' 0 1) == 1#1))
  | 2 => (Scope.ofCode? (mod.extractLsb' 1 3)).bind fun s' => some (.amoadd d a b (Order.ofCode (mod.extractLsb' 4 2)) s' ((mod.extractLsb' 0 1) == 1#1))
  | 3 => (Scope.ofCode? (mod.extractLsb' 1 3)).bind fun s' => some (.amoand d a b (Order.ofCode (mod.extractLsb' 4 2)) s' ((mod.extractLsb' 0 1) == 1#1))
  | 4 => (Scope.ofCode? (mod.extractLsb' 1 3)).bind fun s' => some (.amoor d a b (Order.ofCode (mod.extractLsb' 4 2)) s' ((mod.extractLsb' 0 1) == 1#1))
  | 5 => (Scope.ofCode? (mod.extractLsb' 1 3)).bind fun s' => some (.amoxor d a b (Order.ofCode (mod.extractLsb' 4 2)) s' ((mod.extractLsb' 0 1) == 1#1))
  | 6 => (Scope.ofCode? (mod.extractLsb' 1 3)).bind fun s' => some (.amomin d a b (Order.ofCode (mod.extractLsb' 4 2)) s' ((mod.extractLsb' 0 1) == 1#1))
  | 7 => (Scope.ofCode? (mod.extractLsb' 1 3)).bind fun s' => some (.amomax d a b (Order.ofCode (mod.extractLsb' 4 2)) s' ((mod.extractLsb' 0 1) == 1#1))
  | 8 => (Scope.ofCode? (mod.extractLsb' 1 3)).bind fun s' => some (.amominz d a b (Order.ofCode (mod.extractLsb' 4 2)) s' ((mod.extractLsb' 0 1) == 1#1))
  | 9 => (Scope.ofCode? (mod.extractLsb' 1 3)).bind fun s' => some (.amomaxz d a b (Order.ofCode (mod.extractLsb' 4 2)) s' ((mod.extractLsb' 0 1) == 1#1))
  | 10 => if b = 0#5 ∧ mod.extractLsb' 4 2 = 1#2 then (Scope.ofCode? (mod.extractLsb' 1 3)).bind fun s' => some (.ldacq d a s' ((mod.extractLsb' 0 1) == 1#1)) else none
  | 11 => if d = 0#5 ∧ mod.extractLsb' 4 2 = 2#2 then (Scope.ofCode? (mod.extractLsb' 1 3)).bind fun s' => some (.strel a b s' ((mod.extractLsb' 0 1) == 1#1)) else none
  | _ => none

/-- Major 0x17 (09 Table 9-5). A function at or beyond the count has no instruction (09 R119). -/
def decodeSync (d a b fn : BitVec 5) (mod : BitVec 6) : Option Instr :=
  match fn.toNat with
  | 0 => if d = 0#5 ∧ a = 0#5 ∧ b = 0#5 ∧ mod.extractLsb' 4 2 = 0#2 ∧ mod.extractLsb' 0 1 = 0#1 then (Scope.ofCode? (mod.extractLsb' 1 3)).bind fun s' => some (.fence s') else none
  | 1 => if mod.extractLsb' 5 1 = 1#1 then (if d = 0#5 ∧ b.extractLsb' 4 1 = 0#1 ∧ mod.extractLsb' 5 1 = 1#1 then some (.waittlImm (a ++ (mod.extractLsb' 0 5)) (b.extractLsb' 0 4)) else none) else (if d = 0#5 ∧ b.extractLsb' 4 1 = 0#1 ∧ mod = 0#6 then some (.waittl a (b.extractLsb' 0 4)) else none)
  | 2 => if mod.extractLsb' 0 1 = 1#1 then (if a = 0#5 ∧ b.extractLsb' 4 1 = 0#1 ∧ mod = 1#6 then some (.tlreadIss d (b.extractLsb' 0 4)) else none) else (if a = 0#5 ∧ b.extractLsb' 4 1 = 0#1 ∧ mod = 0#6 then some (.tlread d (b.extractLsb' 0 4)) else none)
  | 3 => if b.extractLsb' 4 1 = 0#1 ∧ mod = 0#6 then some (.tlbump d a (b.extractLsb' 0 4)) else none
  | 4 => if d = 0#5 ∧ a = 0#5 ∧ b = 0#5 ∧ mod.extractLsb' 5 1 = 0#1 then guardWf (.qdrain (mod.extractLsb' 0 5)) else none
  | 5 => if d = 0#5 ∧ a = 0#5 ∧ b.extractLsb' 2 3 = 0#3 ∧ mod = 0#6 then some (.gbar (b.extractLsb' 0 2)) else none
  | 6 => if a = 0#5 ∧ b.extractLsb' 2 3 = 0#3 ∧ mod = 0#6 then some (.garrive d (b.extractLsb' 0 2)) else none
  | 7 => if d = 0#5 ∧ b.extractLsb' 2 3 = 0#3 ∧ mod = 0#6 then some (.gwait a (b.extractLsb' 0 2)) else none
  | 8 => if mod = 0#6 then some (.acwait d a b) else none
  | 9 => if d.extractLsb' 0 1 = 1#1 then (if d = 1#5 then some (.wmpubImm (a ++ b) mod) else none) else (if d = 0#5 ∧ b = 0#5 then some (.wmpub a mod) else none)
  | 10 => if a = 0#5 ∧ b = 0#5 then some (.wmread d mod) else none
  | 11 => if d = 0#5 ∧ a = 0#5 ∧ b = 0#5 ∧ mod = 0#6 then some (.yield) else none
  | 12 => if mod = 0#6 then some (.sleep d a b) else none
  | 13 => if mod = 0#6 then some (.evpost d a b) else none
  | 14 => if mod.extractLsb' 4 2 = 0#2 then some (.launch d a b (mod.extractLsb' 0 4)) else none
  | _ => none

/-- Major 0x18 (09 Table 9-5). A function at or beyond the count has no instruction (09 R119). -/
def decodeSys (d a b fn : BitVec 5) (mod : BitVec 6) : Option Instr :=
  match fn.toNat with
  | 0 => if a = 0#5 then (CReg.ofCode? (b ++ mod)).bind fun c' => some (.crget d c') else none
  | 1 => if d = 0#5 then (CReg.ofCode? (b ++ mod)).bind fun c' => some (.crput a c') else none
  | 2 => (CReg.ofCode? (b ++ mod)).bind fun c' => some (.crswap d a c')
  | 3 => if d = 0#5 ∧ a = 0#5 ∧ b = 0#5 ∧ mod = 0#6 then some (.ecall) else none
  | 4 => if d = 0#5 ∧ a = 0#5 ∧ b = 0#5 ∧ mod = 0#6 then some (.ebreak) else none
  | 5 => if d = 0#5 ∧ a = 0#5 ∧ b = 0#5 ∧ mod = 0#6 then some (.rte) else none
  | 6 => if d = 0#5 ∧ a = 0#5 ∧ b = 0#5 ∧ mod = 0#6 then some (.halts) else none
  | 7 => if mod.extractLsb' 4 1 = 1#1 then (if d = 0#5 ∧ b = 0#5 ∧ mod.extractLsb' 4 2 = 1#2 ∧ mod.extractLsb' 0 1 = 0#1 then (Scope.ofCode? (mod.extractLsb' 1 3)).bind fun s' => some (.xinvPage a s') else none) else (if d = 0#5 ∧ a = 0#5 ∧ b = 0#5 ∧ mod.extractLsb' 4 2 = 0#2 ∧ mod.extractLsb' 0 1 = 0#1 then (Scope.ofCode? (mod.extractLsb' 1 3)).bind fun s' => some (.xinv s') else none)
  | 8 => if d = 0#5 ∧ b = 0#5 ∧ mod = 0#6 then some (.ctxsv a) else none
  | 9 => if d = 0#5 ∧ b = 0#5 ∧ mod = 0#6 then some (.ctxld a) else none
  | 10 => if d = 0#5 ∧ a = 0#5 ∧ b = 0#5 ∧ mod = 0#6 then some (.ifence) else none
  | _ => none

/-- Major 0x19 (09 Table 9-5). A function at or beyond the count has no instruction (09 R119). -/
def decodeTagTable (d a b fn : BitVec 5) (mod : BitVec 6) : Option Instr :=
  match fn.toNat with
  | 0 => if b = 0#5 ∧ mod = 0#6 then some (.tlook d a) else none
  | 1 => if d = 0#5 ∧ mod = 0#6 then some (.tset a b) else none
  | 2 => if b = 0#5 ∧ mod = 0#6 then some (.tinv d a) else none
  | 3 => if d = 0#5 ∧ a = 0#5 ∧ b = 0#5 ∧ mod = 0#6 then some (.tclr) else none
  | 4 => if b = 0#5 ∧ mod = 0#6 then some (.feget d a) else none
  | 5 => if d = 0#5 ∧ b = 0#5 ∧ mod = 0#6 then some (.feset a) else none
  | 6 => if d = 0#5 ∧ b = 0#5 ∧ mod = 0#6 then some (.feclr a) else none
  | 7 => if mod = 0#6 then some (.zscan d a b) else none
  | _ => none

/-- Major 0x20 (09 Table 9-5). A function at or beyond the count has no instruction (09 R119). -/
def decodeVcfg (d a b fn : BitVec 5) (mod : BitVec 6) : Option Instr :=
  match fn.toNat with
  | 0 => if mod.extractLsb' 2 4 = 0#4 then (Tag.ofCode? b).bind fun t' => guardWf (.setvl d a t' (mod.extractLsb' 0 2)) else none
  | 1 => if a = 0#5 ∧ b = 0#5 ∧ mod = 0#6 then some (.cfgget d) else none
  | 2 => if a = 0#5 ∧ b = 0#5 ∧ mod = 0#6 then some (.vcpget d) else none
  | _ => none

/-- Major 0x21 (09 Table 9-5). A function at or beyond the count has no instruction (09 R119). -/
def decodeVarith (vd va vb : BitVec 6) (m : BitVec 3) (fn : BitVec 5) : Option Instr :=
  match fn.toNat with
  | 0 => some (.vadd vd va vb m)
  | 1 => some (.vsub vd va vb m)
  | 2 => some (.vmul vd va vb m)
  | 3 => some (.vdiv vd va vb m)
  | 4 => some (.vmin vd va vb m)
  | 5 => some (.vmax vd va vb m)
  | 6 => if vb = 0#6 then some (.vabs vd va m) else none
  | 7 => if vb = 0#6 then some (.vneg vd va m) else none
  | 8 => if vb = 0#6 then some (.vsqrt vd va m) else none
  | 9 => some (.vfma vd va vb m)
  | 10 => some (.vfms vd va vb m)
  | 11 => some (.vfnma vd va vb m)
  | 12 => some (.vand vd va vb m)
  | 13 => some (.vor vd va vb m)
  | 14 => some (.vxor vd va vb m)
  | 15 => if vb = 0#6 then some (.vnot vd va m) else none
  | 16 => some (.vsll vd va vb m)
  | 17 => some (.vsrl vd va vb m)
  | 18 => some (.vsra vd va vb m)
  | 19 => some (.vmulh vd va vb m)
  | 20 => some (.vsadd vd va vb m)
  | 21 => some (.vssub vd va vb m)
  | 22 => if vb = 0#6 then some (.vclz vd va m) else none
  | 23 => if vb = 0#6 then some (.vpopc vd va m) else none
  | 24 => if vb = 0#6 then some (.vmov vd va m) else none
  | 25 => some (.vmerge vd va vb m)
  | 26 => some (.vcps vd va vb m)
  | 27 => if vb = 0#6 then some (.vclass vd va m) else none
  | 28 => some (.vmodmul vd va vb m)
  | 29 => some (.vmodadd vd va vb m)
  | 30 => some (.vmodsub vd va vb m)
  | 31 => if vb.extractLsb' 5 1 = 0#1 ∧ m = 0#3 then (Tag.ofCode? (vb.extractLsb' 0 5)).bind fun t' => guardWf (.vtag vd va t') else none
  | _ => none

/-- Major 0x22 (09 Table 9-5). A function at or beyond the count has no instruction (09 R119). -/
def decodeVariths (vd va : BitVec 6) (xb : BitVec 5) (m : BitVec 3) (i : BitVec 1) (fn : BitVec 5) : Option Instr :=
  match fn.toNat with
  | 0 => some (.vaddVs vd va xb m (i == 1#1))
  | 1 => some (.vsubVs vd va xb m (i == 1#1))
  | 2 => some (.vmulVs vd va xb m (i == 1#1))
  | 3 => some (.vdivVs vd va xb m (i == 1#1))
  | 4 => some (.vminVs vd va xb m (i == 1#1))
  | 5 => some (.vmaxVs vd va xb m (i == 1#1))
  | 9 => some (.vfmaVs vd va xb m (i == 1#1))
  | 10 => some (.vfmsVs vd va xb m (i == 1#1))
  | 11 => some (.vfnmaVs vd va xb m (i == 1#1))
  | 12 => some (.vandVs vd va xb m (i == 1#1))
  | 13 => some (.vorVs vd va xb m (i == 1#1))
  | 14 => some (.vxorVs vd va xb m (i == 1#1))
  | 16 => some (.vsllVs vd va xb m (i == 1#1))
  | 17 => some (.vsrlVs vd va xb m (i == 1#1))
  | 18 => some (.vsraVs vd va xb m (i == 1#1))
  | 19 => some (.vmulhVs vd va xb m (i == 1#1))
  | 20 => some (.vsaddVs vd va xb m (i == 1#1))
  | 21 => some (.vssubVs vd va xb m (i == 1#1))
  | 25 => some (.vmergeVs vd va xb m (i == 1#1))
  | 26 => some (.vcpsVs vd va xb m (i == 1#1))
  | 28 => some (.vmodmulVs vd va xb m (i == 1#1))
  | 29 => some (.vmodaddVs vd va xb m (i == 1#1))
  | 30 => some (.vmodsubVs vd va xb m (i == 1#1))
  | _ => none

/-- Major 0x23 (09 Table 9-5). A function at or beyond the count has no instruction (09 R119). -/
def decodeVcmp (vd va vb : BitVec 6) (m : BitVec 3) (fn : BitVec 5) : Option Instr :=
  match fn.toNat with
  | 0 => (mreg? vd).bind fun d' => guardWf (.vcmpeq d' va vb m)
  | 1 => (mreg? vd).bind fun d' => guardWf (.vcmpne d' va vb m)
  | 2 => (mreg? vd).bind fun d' => guardWf (.vcmplt d' va vb m)
  | 3 => (mreg? vd).bind fun d' => guardWf (.vcmple d' va vb m)
  | 4 => (mreg? vd).bind fun d' => guardWf (.vcmpun d' va vb m)
  | 5 => if m = 0#3 then (mreg? vd).bind fun d' => (mreg? va).bind fun a' => (mreg? vb).bind fun b' => guardWf (.mand d' a' b') else none
  | 6 => if m = 0#3 then (mreg? vd).bind fun d' => (mreg? va).bind fun a' => (mreg? vb).bind fun b' => guardWf (.mor d' a' b') else none
  | 7 => if m = 0#3 then (mreg? vd).bind fun d' => (mreg? va).bind fun a' => (mreg? vb).bind fun b' => guardWf (.mxor d' a' b') else none
  | 8 => if m = 0#3 then (mreg? vd).bind fun d' => (mreg? va).bind fun a' => (mreg? vb).bind fun b' => guardWf (.mandn d' a' b') else none
  | 9 => if vb = 0#6 ∧ m = 0#3 then (mreg? vd).bind fun d' => (mreg? va).bind fun a' => guardWf (.mnot d' a') else none
  | 10 => if vb = 0#6 then (xreg? vd).bind fun d' => (mreg? va).bind fun a' => some (.mpopc d' a' m) else none
  | 11 => if vb = 0#6 then (xreg? vd).bind fun d' => (mreg? va).bind fun a' => some (.mfirst d' a' m) else none
  | 12 => if vb = 0#6 ∧ m = 0#3 then (mreg? vd).bind fun d' => (xreg? va).bind fun a' => guardWf (.mset d' a') else none
  | 13 => if vb = 0#6 then (mreg? vd).bind fun d' => guardWf (.mfromv d' va m) else none
  | _ => none

/-- Major 0x24 (09 Table 9-5). A function at or beyond the count has no instruction (09 R119). -/
def decodeVred (vd va vb : BitVec 6) (m : BitVec 3) (fn : BitVec 5) : Option Instr :=
  match fn.toNat with
  | 0 => some (.vredsum vd va vb m)
  | 1 => some (.vredsumo vd va vb m)
  | 2 => some (.vredmin vd va vb m)
  | 3 => some (.vredmax vd va vb m)
  | 4 => some (.vredand vd va vb m)
  | 5 => some (.vredor vd va vb m)
  | 6 => some (.vredxor vd va vb m)
  | 7 => some (.vdot vd va vb m)
  | 8 => if vd = 0#6 then some (.vxacc va vb m) else none
  | 9 => if vb.extractLsb' 0 1 = 1#1 then (if va = 0#6 ∧ vb = 1#6 ∧ m = 0#3 then some (.vxrndClr vd) else none) else (if va = 0#6 ∧ vb = 0#6 ∧ m = 0#3 then some (.vxrnd vd) else none)
  | _ => none

/-- Major 0x25 (09 Table 9-5). A function at or beyond the count has no instruction (09 R119). -/
def decodeVconv (vd va vb : BitVec 6) (m : BitVec 3) (fn : BitVec 5) : Option Instr :=
  match fn.toNat with
  | 0 => if vb.extractLsb' 5 1 = 0#1 then (Tag.ofCode? (vb.extractLsb' 0 5)).bind fun t' => some (.vcvth vd va t' m) else none
  | 1 => if vb.extractLsb' 5 1 = 0#1 then (Tag.ofCode? (vb.extractLsb' 0 5)).bind fun t' => some (.vcvtd vd va t' m) else none
  | 2 => if vb.extractLsb' 2 4 = 0#4 ∧ m = 0#3 then some (.vcvtf4 vd va (vb.extractLsb' 0 2)) else none
  | 3 => if vb.extractLsb' 5 1 = 0#1 then (Tag.ofCode? (vb.extractLsb' 0 5)).bind fun t' => some (.vcvti vd va t' m) else none
  | 4 => if vb.extractLsb' 5 1 = 0#1 then (Tag.ofCode? (vb.extractLsb' 0 5)).bind fun t' => some (.vcvtf vd va t' m) else none
  | 5 => if m = 0#3 then some (.vquant vd va vb) else none
  | 6 => if vb.extractLsb' 5 1 = 0#1 then (Tag.ofCode? (vb.extractLsb' 0 5)).bind fun t' => some (.vdeq vd va t' m) else none
  | 7 => some (.vscale vd va vb m)
  | 8 => some (.vpacks vd va vb m)
  | 9 => if vb.extractLsb' 5 1 = 0#1 then (Tag.ofCode? (vb.extractLsb' 0 5)).bind fun t' => some (.vbfpn vd va t' m) else none
  | _ => none

/-- Major 0x26 (09 Table 9-5). A function at or beyond the count has no instruction (09 R119). -/
def decodeVperm (vd va vb : BitVec 6) (m : BitVec 3) (fn : BitVec 5) : Option Instr :=
  match fn.toNat with
  | 0 => some (.vgathr vd va vb m)
  | 1 => (xreg? vb).bind fun b' => some (.vslideup vd va b' m)
  | 2 => (xreg? vb).bind fun b' => some (.vslidedn vd va b' m)
  | 3 => if vb = 0#6 then some (.vcompr vd va m) else none
  | 4 => if vb = 0#6 then some (.vexpnd vd va m) else none
  | 5 => if va = 0#6 then (mreg? vb).bind fun b' => some (.viota vd b' m) else none
  | 6 => if va = 0#6 ∧ vb = 0#6 then some (.vid vd m) else none
  | 7 => (xreg? vb).bind fun b' => some (.vbcast vd va b' m)
  | 8 => if m = 0#3 then (xreg? vd).bind fun d' => (xreg? vb).bind fun b' => some (.vextr d' va b') else none
  | 9 => if m = 0#3 then (xreg? va).bind fun a' => (xreg? vb).bind fun b' => some (.vinsrt vd a' b') else none
  | 10 => if vb = 0#6 then some (.vrev vd va m) else none
  | 11 => if m = 0#3 then some (.vzip vd va vb) else none
  | 12 => if vb.extractLsb' 1 5 = 0#5 ∧ m = 0#3 then some (.vunzip vd va ((vb.extractLsb' 0 1) == 1#1)) else none
  | 13 => if m = 0#3 then (xreg? vb).bind fun b' => some (.vstrp vd va b') else none
  | 14 => if vb = 0#6 then (mreg? vd).bind fun d' => guardWf (.vconfd d' va m) else none
  | _ => none

/-- Major 0x27 (09 Table 9-5). A function at or beyond the count has no instruction (09 R119). -/
def decodeVload (vd : BitVec 6) (xa : BitVec 5) (b : BitVec 6) (m q fn : BitVec 3) : Option Instr :=
  match fn.toNat with
  | 0 => if b = 0#6 ∧ q = 0#3 then some (.vld vd xa m) else none
  | 1 => if b.extractLsb' 5 1 = 0#1 ∧ q = 0#3 then some (.vlds vd xa (b.extractLsb' 0 5) m) else none
  | 2 => if b = 0#6 then guardWf (.vldseg vd xa m q) else none
  | 3 => if q.extractLsb' 1 2 = 0#2 then some (.vldx vd xa b m ((q.extractLsb' 0 1) == 1#1)) else none
  | 4 => if b = 0#6 ∧ q = 0#3 then guardWf (.vldff vd xa m) else none
  | 5 => if q = 0#3 then guardWf (.vldw vd xa b m) else none
  | 6 => if q.extractLsb' 1 2 = 0#2 then guardWf (.vgwin vd xa b m ((q.extractLsb' 0 1) == 1#1)) else none
  | 7 => if b = 0#6 ∧ q.extractLsb' 1 2 = 0#2 then some (.vldfe vd xa m ((q.extractLsb' 0 1) == 1#1)) else none
  | _ => none

/-- Major 0x28 (09 Table 9-5). A function at or beyond the count has no instruction (09 R119). -/
noncomputable def decodeVstore (vd : BitVec 6) (xa : BitVec 5) (b : BitVec 6) (m q fn : BitVec 3) : Option Instr :=
  match fn.toNat with
  | 0 => if b = 0#6 ∧ q = 0#3 then some (.vst vd xa m) else none
  | 1 => if b.extractLsb' 5 1 = 0#1 ∧ q = 0#3 then some (.vsts vd xa (b.extractLsb' 0 5) m) else none
  | 2 => if b = 0#6 then guardWf (.vstseg vd xa m q) else none
  | 3 => if q.extractLsb' 1 2 = 0#2 then some (.vstx vd xa b m ((q.extractLsb' 0 1) == 1#1)) else none
  | 4 => if q.extractLsb' 1 2 = 0#2 then some (.vstxo vd xa b m ((q.extractLsb' 0 1) == 1#1)) else none
  | 5 => if b = 0#6 ∧ q = 0#3 then some (.vstfe vd xa m) else none
  | 6 => if q = 0#3 then guardWf (.vstwm vd xa b m) else none
  | _ => none

/-- Major 0x29 (09 Table 9-5). A function at or beyond the count has no instruction (09 R119). -/
noncomputable def decodeVupd (vd va vb : BitVec 6) (m : BitVec 3) (fn : BitVec 5) : Option Instr :=
  match fn.toNat with
  | 0 => (xreg? vd).bind fun d' => some (.upd d' va vb m)
  | 1 => (xreg? vd).bind fun d' => some (.upda d' va vb m)
  | 2 => if vb.extractLsb' 0 1 = 1#1 then (if va = 0#6 ∧ vb = 1#6 ∧ m = 0#3 then (xreg? vd).bind fun d' => some (.uwinRel d') else none) else (if vb = 0#6 ∧ m = 0#3 then (xreg? vd).bind fun d' => (xreg? va).bind fun a' => some (.uwin d' a') else none)
  | 3 => if vd = 0#6 then some (.uacc va vb m) else none
  | 4 => if vd = 0#6 ∧ va = 0#6 ∧ vb = 0#6 ∧ m = 0#3 then some (.umerge) else none
  | 5 => if va = 0#6 ∧ vb = 0#6 ∧ m = 0#3 then (xreg? vd).bind fun d' => some (.uflush d') else none
  | 6 => if vb.extractLsb' 0 1 = 1#1 then (if vb = 1#6 ∧ m = 0#3 then (xreg? vd).bind fun d' => (xreg? va).bind fun a' => some (.uregionRel d' a') else none) else (if vb = 0#6 ∧ m = 0#3 then (xreg? vd).bind fun d' => (xreg? va).bind fun a' => some (.uregion d' a') else none)
  | 7 => if vb = 0#6 ∧ m = 0#3 then (xreg? vd).bind fun d' => (xreg? va).bind fun a' => some (.uquery d' a') else none
  | _ => none

/-- Major 0x2A (09 Table 9-5). A function at or beyond the count has no instruction (09 R119). -/
noncomputable def decodeVsync (vd va vb : BitVec 6) (m : BitVec 3) (fn : BitVec 5) : Option Instr :=
  match fn.toNat with
  | 0 => (mreg? vd).bind fun d' => guardWf (.gcsleep d' va vb m)
  | 1 => if vd = 0#6 ∧ va = 0#6 ∧ vb = 0#6 ∧ m = 0#3 then some (.vdrain) else none
  | _ => none

/-- Major 0x30 (09 Table 9-5). A function at or beyond the count has no instruction (09 R119). -/
noncomputable def decodeTrellis (d a b fn : BitVec 5) (mod : BitVec 6) : Option Instr :=
  match fn.toNat with
  | 0 => if d = 0#5 ∧ b = 0#5 ∧ mod.extractLsb' 4 2 = 0#2 then some (.sload a (mod.extractLsb' 0 4)) else none
  | 1 => if mod.extractLsb' 4 2 = 0#2 then some (.sarm d a b (mod.extractLsb' 0 4)) else none
  | 2 => if d = 0#5 ∧ mod = 0#6 then some (.sport a b) else none
  | 3 => if d = 0#5 ∧ mod.extractLsb' 4 2 = 0#2 then some (.twload a b (mod.extractLsb' 0 4)) else none
  | 4 => if d = 0#5 ∧ b = 0#5 ∧ mod.extractLsb' 0 4 = 0#4 then (Growth.ofCode? (mod.extractLsb' 4 2)).bind fun g' => some (.sgrow a g') else none
  | 5 => if d = 0#5 ∧ b = 0#5 ∧ mod = 0#6 then some (.modcfg a) else none
  | 6 => if b = 0#5 ∧ mod.extractLsb' 0 4 = 0#4 then some (.modchk d a ((mod.extractLsb' 5 1) == 1#1) ((mod.extractLsb' 4 1) == 1#1)) else none
  | 7 => if b = 0#5 ∧ mod = 0#6 then some (.sstat d a) else none
  | 8 => if b = 0#5 ∧ mod = 0#6 then some (.sabort d a) else none
  | 9 => if d = 0#5 ∧ a = 0#5 ∧ b = 0#5 ∧ mod = 0#6 then some (.sfree) else none
  | _ => none

/-- Major 0x31 (09 Table 9-5). A function at or beyond the count has no instruction (09 R119). -/
noncomputable def decodeMatrix (d a b fn : BitVec 5) (mod : BitVec 6) : Option Instr :=
  match fn.toNat with
  | 0 => if mod.extractLsb' 4 1 = 1#1 then (if d = 0#5 ∧ a = 0#5 ∧ b = 0#5 ∧ mod = 16#6 then some (.mgrpRel) else none) else (if b = 0#5 ∧ mod = 0#6 then some (.mgrp d a) else none)
  | 1 => if d = 0#5 ∧ b = 0#5 ∧ mod.extractLsb' 4 2 = 0#2 then some (.mwload a (mod.extractLsb' 0 4)) else none
  | 2 => if d = 0#5 ∧ mod.extractLsb' 5 1 = 0#1 then some (.mma a b ((mod.extractLsb' 4 1) == 1#1) (mod.extractLsb' 0 4)) else none
  | 3 => if d = 0#5 ∧ a = 0#5 ∧ b = 0#5 ∧ mod.extractLsb' 5 1 = 0#1 then some (.maccz ((mod.extractLsb' 4 1) == 1#1) (mod.extractLsb' 0 4)) else none
  | 4 => if d = 0#5 ∧ mod.extractLsb' 5 1 = 0#1 then some (.maccst a b ((mod.extractLsb' 4 1) == 1#1) (mod.extractLsb' 0 4)) else none
  | 5 => if d = 0#5 ∧ mod.extractLsb' 5 1 = 0#1 then some (.maccld a b ((mod.extractLsb' 4 1) == 1#1) (mod.extractLsb' 0 4)) else none
  | 6 => some (.maload d a b ((mod.extractLsb' 5 1) == 1#1) ((mod.extractLsb' 4 1) == 1#1) (mod.extractLsb' 0 4))
  | 7 => if a = 0#5 ∧ b = 0#5 ∧ mod = 0#6 then some (.mstat d) else none
  | _ => none

/-- Major 0x32 (09 Table 9-5). A function at or beyond the count has no instruction (09 R119). -/
noncomputable def decodeGraph (d a b fn : BitVec 5) (mod : BitVec 6) : Option Instr :=
  match fn.toNat with
  | 0 => if d = 0#5 ∧ b = 0#5 ∧ mod.extractLsb' 4 2 = 0#2 then some (.gload a (mod.extractLsb' 0 4)) else none
  | 1 => if mod.extractLsb' 4 2 = 0#2 then some (.grun d a b (mod.extractLsb' 0 4)) else none
  | 2 => if a = 0#5 ∧ b = 0#5 ∧ mod = 0#6 then some (.gstat d) else none
  | 3 => if d = 0#5 ∧ a = 0#5 ∧ b = 0#5 ∧ mod = 0#6 then some (.gfree) else none
  | _ => none

/-- Major 0x33 (09 Table 9-5). A function at or beyond the count has no instruction (09 R119). -/
noncomputable def decodeRoute (d a b fn : BitVec 5) (mod : BitVec 6) : Option Instr :=
  match fn.toNat with
  | 0 => if mod.extractLsb' 4 1 = 1#1 then (if b = 0#5 ∧ mod = 16#6 then some (.rtcfgRel d a) else none) else (if b = 0#5 ∧ mod = 0#6 then some (.rtcfg d a) else none)
  | 1 => if mod = 0#6 then some (.rtupd d a b) else none
  | 2 => if mod.extractLsb' 4 2 = 0#2 then some (.route d a b (mod.extractLsb' 0 4)) else none
  | 3 => if mod.extractLsb' 4 1 = 1#1 then (if a = 0#5 ∧ b = 0#5 ∧ mod = 16#6 then some (.recvNb d) else none) else (if a = 0#5 ∧ b = 0#5 ∧ mod = 0#6 then some (.recv d) else none)
  | 4 => if mod.extractLsb' 4 1 = 1#1 then (if d = 0#5 ∧ a = 0#5 ∧ mod.extractLsb' 4 2 = 1#2 then some (.rretErr b (mod.extractLsb' 0 4)) else none) else (if d = 0#5 ∧ mod.extractLsb' 4 2 = 0#2 then some (.rret a b (mod.extractLsb' 0 4)) else none)
  | 5 => if mod.extractLsb' 4 1 = 1#1 then (if a = 0#5 ∧ b = 0#5 ∧ mod = 16#6 then some (.rstatLate d) else none) else (if b = 0#5 ∧ mod = 0#6 then some (.rstat d a) else none)
  | 6 => if b = 0#5 ∧ mod = 0#6 then some (.rhot d a) else none
  | 7 => if mod.extractLsb' 4 1 = 1#1 then (if d = 0#5 ∧ mod = 16#6 then some (.rscfgInbox a b) else none) else (if d = 0#5 ∧ mod = 0#6 then some (.rscfg a b) else none)
  | _ => none

/-- Major 0x34 (09 Table 9-5). A function at or beyond the count has no instruction (09 R119). -/
noncomputable def decodeColl (d a b fn : BitVec 5) (mod : BitVec 6) : Option Instr :=
  match fn.toNat with
  | 0 => if b = 0#5 ∧ mod = 0#6 then some (.ccomm d a) else none
  | 1 => if b = 0#5 ∧ mod = 0#6 then some (.cfree d a) else none
  | 2 => if mod = 0#6 then some (.cbind d a b) else none
  | 3 => if b = 0#5 ∧ mod = 0#6 then some (.cunbind d a) else none
  | 4 => if mod.extractLsb' 4 2 = 0#2 then some (.cstart d a b (mod.extractLsb' 0 4)) else none
  | 5 => if d = 0#5 ∧ mod.extractLsb' 4 2 = 0#2 then some (.csend a b (mod.extractLsb' 0 4)) else none
  | 6 => if d = 0#5 ∧ mod.extractLsb' 4 2 = 0#2 then some (.cfetch a b (mod.extractLsb' 0 4)) else none
  | 7 => if b = 0#5 ∧ mod = 0#6 then some (.cstat d a) else none
  | 8 => if b = 0#5 ∧ mod = 0#6 then some (.ccancel d a) else none
  | _ => none

/-- Major 0x35 (09 Table 9-5). A function at or beyond the count has no instruction (09 R119). -/
noncomputable def decodeCopy (d a b fn : BitVec 5) (mod : BitVec 6) : Option Instr :=
  match fn.toNat with
  | 0 => if mod.extractLsb' 4 2 = 0#2 then some (.xcopy d a b (mod.extractLsb' 0 4)) else none
  | 1 => (Size.ofCode? (mod.extractLsb' 4 2)).bind fun e' => some (.xcopyt d a b e' (mod.extractLsb' 0 4))
  | 2 => if mod.extractLsb' 4 2 = 0#2 then some (.xdecode d a b (mod.extractLsb' 0 4)) else none
  | 3 => if mod.extractLsb' 4 2 = 0#2 then some (.xexport d a b (mod.extractLsb' 0 4)) else none
  | 4 => if mod.extractLsb' 4 2 = 0#2 then some (.xfill d a b (mod.extractLsb' 0 4)) else none
  | 5 => if mod.extractLsb' 4 1 = 1#1 then (if mod.extractLsb' 4 2 = 1#2 then some (.xhostToh d a b (mod.extractLsb' 0 4)) else none) else (if mod.extractLsb' 4 2 = 0#2 then some (.xhost d a b (mod.extractLsb' 0 4)) else none)
  | _ => none

/-- The instruction that one word is, PFX apart: none where the word is no instruction (09 R119, R124 row 2). The all-zero
guard major, the reserved majors and PFX itself have none here. -/
noncomputable def decodeWord (w : IWord) : Option Instr :=
  match (fldOp w).toNat with
  | 1 => decodeInt (fldD w) (fldA w) (fldB w) (fldFn w) (fldMod w)
  | 2 => decodeAddi (fldD w) (fldA w) (fldImm w)
  | 3 => decodeAndi (fldD w) (fldA w) (fldImm w)
  | 4 => decodeOri (fldD w) (fldA w) (fldImm w)
  | 5 => decodeXori (fldD w) (fldA w) (fldImm w)
  | 6 => decodeSlti (fldD w) (fldA w) (fldImm w)
  | 7 => decodeLih (fldD w) (fldA w) (fldImm w)
  | 8 => decodeShi (fldD w) (fldA w) (fldImm w)
  | 9 => decodeLd (fldD w) (fldA w) (fldImm w)
  | 10 => decodeLdz (fldD w) (fldA w) (fldImm w)
  | 11 => decodeSt (fldD w) (fldA w) (fldImm w)
  | 12 => decodeFmem (fldD w) (fldA w) (fldImm w)
  | 13 => decodeBeq (fldD w) (fldA w) (fldImm w)
  | 14 => decodeBne (fldD w) (fldA w) (fldImm w)
  | 15 => decodeBlt (fldD w) (fldA w) (fldImm w)
  | 16 => decodeBge (fldD w) (fldA w) (fldImm w)
  | 17 => decodeBlo (fldD w) (fldA w) (fldImm w)
  | 18 => decodeBhs (fldD w) (fldA w) (fldImm w)
  | 19 => decodeJl (fldD w) (fldJ w)
  | 20 => decodeJlr (fldD w) (fldA w) (fldImm w)
  | 21 => decodeFp (fldD w) (fldA w) (fldB w) (fldFn w) (fldMod w)
  | 22 => decodeAmo (fldD w) (fldA w) (fldB w) (fldFn w) (fldMod w)
  | 23 => decodeSync (fldD w) (fldA w) (fldB w) (fldFn w) (fldMod w)
  | 24 => decodeSys (fldD w) (fldA w) (fldB w) (fldFn w) (fldMod w)
  | 25 => decodeTagTable (fldD w) (fldA w) (fldB w) (fldFn w) (fldMod w)
  | 32 => decodeVcfg (fldD w) (fldA w) (fldB w) (fldFn w) (fldMod w)
  | 33 => decodeVarith (fldVd w) (fldVa w) (fldVb w) (fldM w) (fldVfn w)
  | 34 => decodeVariths (fldVd w) (fldVa w) (fldXb w) (fldSm w) (fldSi w) (fldVfn w)
  | 35 => decodeVcmp (fldVd w) (fldVa w) (fldVb w) (fldM w) (fldVfn w)
  | 36 => decodeVred (fldVd w) (fldVa w) (fldVb w) (fldM w) (fldVfn w)
  | 37 => decodeVconv (fldVd w) (fldVa w) (fldVb w) (fldM w) (fldVfn w)
  | 38 => decodeVperm (fldVd w) (fldVa w) (fldVb w) (fldM w) (fldVfn w)
  | 39 => decodeVload (fldVd w) (fldXa w) (fldMb w) (fldSm w) (fldMq w) (fldMfn w)
  | 40 => decodeVstore (fldVd w) (fldXa w) (fldMb w) (fldSm w) (fldMq w) (fldMfn w)
  | 41 => decodeVupd (fldVd w) (fldVa w) (fldVb w) (fldM w) (fldVfn w)
  | 42 => decodeVsync (fldVd w) (fldVa w) (fldVb w) (fldM w) (fldVfn w)
  | 48 => decodeTrellis (fldD w) (fldA w) (fldB w) (fldFn w) (fldMod w)
  | 49 => decodeMatrix (fldD w) (fldA w) (fldB w) (fldFn w) (fldMod w)
  | 50 => decodeGraph (fldD w) (fldA w) (fldB w) (fldFn w) (fldMod w)
  | 51 => decodeRoute (fldD w) (fldA w) (fldB w) (fldFn w) (fldMod w)
  | 52 => decodeColl (fldD w) (fldA w) (fldB w) (fldFn w) (fldMod w)
  | 53 => decodeCopy (fldD w) (fldA w) (fldB w) (fldFn w) (fldMod w)
  | _ => none

/-- Why bytes hold no instruction. -/
inductive Reject where
  /-- fewer bytes than a word -/
  | truncated
  /-- a word that is no instruction and no PFX (09 R124 row 2) -/
  | illegal (w : IWord)
  deriving DecidableEq, Repr

/-- A word from its four bytes, the lowest address first (09 R113). -/
def wordOfBytes (b0 b1 b2 b3 : Byte) : IWord := b3 ++ b2 ++ b1 ++ b0

/-- Whether a word is a prefix word (09 R119). -/
def isPfx (w : IWord) : Bool := fldOp w == 63#6

/-- The instruction at the head of a list of bytes, with the rest of the list. A PFX joins the word that follows it into one
instruction, whatever that word is (09 R122, R123). -/
noncomputable def decode : List Byte → Except Reject (Instr × List Byte)
  | b0 :: b1 :: b2 :: b3 :: rest =>
    if isPfx (wordOfBytes b0 b1 b2 b3) then
      match rest with
      | c0 :: c1 :: c2 :: c3 :: rest' =>
        .ok (.pfx ((wordOfBytes b0 b1 b2 b3).extractLsb' 0 26) (wordOfBytes c0 c1 c2 c3), rest')
      | _ => .error .truncated
    else match decodeWord (wordOfBytes b0 b1 b2 b3) with
      | some i => .ok (i, rest)
      | none => .error (.illegal (wordOfBytes b0 b1 b2 b3))
  | _ => .error .truncated

/-- The four bytes of a word, the lowest address first (09 R113). -/
def bytesOfWord (w : IWord) : List Byte :=
  [w.extractLsb' 0 8, w.extractLsb' 8 8, w.extractLsb' 16 8, w.extractLsb' 24 8]

/-- The words of an instruction, the PFX first where there is one; an event or command has none (09 R113 to R119). -/
def encode (i : Instr) : List IWord :=
  match i with
  | .add d a b => [packR 1#6 d a b 0#5 0#6]
  | .sub d a b => [packR 1#6 d a b 1#5 0#6]
  | .and d a b => [packR 1#6 d a b 2#5 0#6]
  | .or d a b => [packR 1#6 d a b 3#5 0#6]
  | .xor d a b => [packR 1#6 d a b 4#5 0#6]
  | .andn d a b => [packR 1#6 d a b 5#5 0#6]
  | .orn d a b => [packR 1#6 d a b 6#5 0#6]
  | .sll d a b => [packR 1#6 d a b 7#5 0#6]
  | .srl d a b => [packR 1#6 d a b 8#5 0#6]
  | .sra d a b => [packR 1#6 d a b 9#5 0#6]
  | .ror d a b => [packR 1#6 d a b 10#5 0#6]
  | .mul d a b => [packR 1#6 d a b 11#5 0#6]
  | .mulh d a b => [packR 1#6 d a b 12#5 0#6]
  | .mulhz d a b => [packR 1#6 d a b 13#5 0#6]
  | .div d a b => [packR 1#6 d a b 14#5 0#6]
  | .divz d a b => [packR 1#6 d a b 15#5 0#6]
  | .rem d a b => [packR 1#6 d a b 16#5 0#6]
  | .remz d a b => [packR 1#6 d a b 17#5 0#6]
  | .min d a b => [packR 1#6 d a b 18#5 0#6]
  | .max d a b => [packR 1#6 d a b 19#5 0#6]
  | .minz d a b => [packR 1#6 d a b 20#5 0#6]
  | .maxz d a b => [packR 1#6 d a b 21#5 0#6]
  | .seq d a b => [packR 1#6 d a b 22#5 0#6]
  | .slt d a b => [packR 1#6 d a b 23#5 0#6]
  | .sltz d a b => [packR 1#6 d a b 24#5 0#6]
  | .clz d a => [packR 1#6 d a 0#5 25#5 0#6]
  | .ctz d a => [packR 1#6 d a 0#5 26#5 0#6]
  | .popc d a => [packR 1#6 d a 0#5 27#5 0#6]
  | .sext d a w => [packR 1#6 d a 0#5 28#5 w]
  | .zext d a w => [packR 1#6 d a 0#5 29#5 w]
  | .bfx d a l p => [packR 1#6 d a l 30#5 p]
  | .bfi d a l p => [packR 1#6 d a l 31#5 p]
  | .addi d a i => [packI 2#6 d a i]
  | .andi d a i => [packI 3#6 d a i]
  | .ori d a i => [packI 4#6 d a i]
  | .xori d a i => [packI 5#6 d a i]
  | .slti d a i => [packI 6#6 d a i]
  | .lih d a i => [packI 7#6 d a i]
  | .slli d a s => [packI 8#6 d a (0#10 ++ s)]
  | .srli d a s => [packI 8#6 d a (256#10 ++ s)]
  | .srai d a s => [packI 8#6 d a (512#10 ++ s)]
  | .rori d a s => [packI 8#6 d a (768#10 ++ s)]
  | .ld d a z e => [packI 9#6 d a (z.code ++ e)]
  | .ldz d a z e => [packI 10#6 d a (z.code ++ e)]
  | .st d a z e => [packI 11#6 d a (z.code ++ e)]
  | .fldw d a e => [packI 12#6 (0#1 ++ d) a (0#2 ++ e)]
  | .fldd d a e => [packI 12#6 (0#1 ++ d) a (1#2 ++ e)]
  | .fstw d a e => [packI 12#6 (0#1 ++ d) a (2#2 ++ e)]
  | .fstd d a e => [packI 12#6 (0#1 ++ d) a (3#2 ++ e)]
  | .beq a b d => [packI 13#6 a b d]
  | .bne a b d => [packI 14#6 a b d]
  | .blt a b d => [packI 15#6 a b d]
  | .bge a b d => [packI 16#6 a b d]
  | .blo a b d => [packI 17#6 a b d]
  | .bhs a b d => [packI 18#6 a b d]
  | .jl d j => [packJ 19#6 d j]
  | .jlr d a i => [packI 20#6 d a i]
  | .pfx k w => [63#6 ++ k, w]
  | .fadd d a b t r => [packR 21#6 (0#1 ++ d) (0#1 ++ a) (0#1 ++ b) 0#5 (t.code ++ 0#1 ++ r.code)]
  | .fsub d a b t r => [packR 21#6 (0#1 ++ d) (0#1 ++ a) (0#1 ++ b) 1#5 (t.code ++ 0#1 ++ r.code)]
  | .fmul d a b t r => [packR 21#6 (0#1 ++ d) (0#1 ++ a) (0#1 ++ b) 2#5 (t.code ++ 0#1 ++ r.code)]
  | .fdiv d a b t r => [packR 21#6 (0#1 ++ d) (0#1 ++ a) (0#1 ++ b) 3#5 (t.code ++ 0#1 ++ r.code)]
  | .fsqrt d a t r => [packR 21#6 (0#1 ++ d) (0#1 ++ a) 0#5 4#5 (t.code ++ 0#1 ++ r.code)]
  | .fmin d a b t r => [packR 21#6 (0#1 ++ d) (0#1 ++ a) (0#1 ++ b) 5#5 (t.code ++ 0#1 ++ r.code)]
  | .fmax d a b t r => [packR 21#6 (0#1 ++ d) (0#1 ++ a) (0#1 ++ b) 6#5 (t.code ++ 0#1 ++ r.code)]
  | .fma d a b t r => [packR 21#6 (0#1 ++ d) (0#1 ++ a) (0#1 ++ b) 7#5 (t.code ++ 0#1 ++ r.code)]
  | .fneg d a t r => [packR 21#6 (0#1 ++ d) (0#1 ++ a) 0#5 8#5 (t.code ++ 0#1 ++ r.code)]
  | .fabs d a t r => [packR 21#6 (0#1 ++ d) (0#1 ++ a) 0#5 9#5 (t.code ++ 0#1 ++ r.code)]
  | .fcps d a b t r => [packR 21#6 (0#1 ++ d) (0#1 ++ a) (0#1 ++ b) 10#5 (t.code ++ 0#1 ++ r.code)]
  | .feq d a b t r => [packR 21#6 d (0#1 ++ a) (0#1 ++ b) 11#5 (t.code ++ 0#1 ++ r.code)]
  | .flt d a b t r => [packR 21#6 d (0#1 ++ a) (0#1 ++ b) 12#5 (t.code ++ 0#1 ++ r.code)]
  | .fle d a b t r => [packR 21#6 d (0#1 ++ a) (0#1 ++ b) 13#5 (t.code ++ 0#1 ++ r.code)]
  | .fcvt k t r => [packR 21#6 k.dCode k.aCode k.kindCode 14#5 (t.code ++ 0#1 ++ r.code)]
  | .fmovxf d a t r => [packR 21#6 (0#1 ++ d) a 0#5 15#5 (t.code ++ 0#1 ++ r.code)]
  | .fmovfx d a r => [packR 21#6 d (0#1 ++ a) 0#5 16#5 (0#3 ++ r.code)]
  | .fclass d a t r => [packR 21#6 d (0#1 ++ a) 0#5 17#5 (t.code ++ 0#1 ++ r.code)]
  | .amoswap d a b o s z => [packR 22#6 d a b 0#5 (o.code ++ s.code ++ BitVec.ofBool z)]
  | .amocas d a b o s z => [packR 22#6 d a b 1#5 (o.code ++ s.code ++ BitVec.ofBool z)]
  | .amoadd d a b o s z => [packR 22#6 d a b 2#5 (o.code ++ s.code ++ BitVec.ofBool z)]
  | .amoand d a b o s z => [packR 22#6 d a b 3#5 (o.code ++ s.code ++ BitVec.ofBool z)]
  | .amoor d a b o s z => [packR 22#6 d a b 4#5 (o.code ++ s.code ++ BitVec.ofBool z)]
  | .amoxor d a b o s z => [packR 22#6 d a b 5#5 (o.code ++ s.code ++ BitVec.ofBool z)]
  | .amomin d a b o s z => [packR 22#6 d a b 6#5 (o.code ++ s.code ++ BitVec.ofBool z)]
  | .amomax d a b o s z => [packR 22#6 d a b 7#5 (o.code ++ s.code ++ BitVec.ofBool z)]
  | .amominz d a b o s z => [packR 22#6 d a b 8#5 (o.code ++ s.code ++ BitVec.ofBool z)]
  | .amomaxz d a b o s z => [packR 22#6 d a b 9#5 (o.code ++ s.code ++ BitVec.ofBool z)]
  | .ldacq d a s z => [packR 22#6 d a 0#5 10#5 (1#2 ++ s.code ++ BitVec.ofBool z)]
  | .strel a b s z => [packR 22#6 0#5 a b 11#5 (2#2 ++ s.code ++ BitVec.ofBool z)]
  | .fence s => [packR 23#6 0#5 0#5 0#5 0#5 (0#2 ++ s.code ++ 0#1)]
  | .waittl a n => [packR 23#6 0#5 a (0#1 ++ n) 1#5 0#6]
  | .waittlImm v n => [packR 23#6 0#5 ((v).extractLsb' 5 5) (0#1 ++ n) 1#5 (1#1 ++ (v).extractLsb' 0 5)]
  | .tlread d n => [packR 23#6 d 0#5 (0#1 ++ n) 2#5 0#6]
  | .tlreadIss d n => [packR 23#6 d 0#5 (0#1 ++ n) 2#5 1#6]
  | .tlbump d a n => [packR 23#6 d a (0#1 ++ n) 3#5 0#6]
  | .qdrain q => [packR 23#6 0#5 0#5 0#5 4#5 (0#1 ++ q)]
  | .gbar s => [packR 23#6 0#5 0#5 (0#3 ++ s) 5#5 0#6]
  | .garrive d s => [packR 23#6 d 0#5 (0#3 ++ s) 6#5 0#6]
  | .gwait a s => [packR 23#6 0#5 a (0#3 ++ s) 7#5 0#6]
  | .acwait d a b => [packR 23#6 d a b 8#5 0#6]
  | .wmpub a w => [packR 23#6 0#5 a 0#5 9#5 w]
  | .wmpubImm v w => [packR 23#6 1#5 ((v).extractLsb' 5 5) ((v).extractLsb' 0 5) 9#5 w]
  | .wmread d w => [packR 23#6 d 0#5 0#5 10#5 w]
  | .yield  => [packR 23#6 0#5 0#5 0#5 11#5 0#6]
  | .sleep d a b => [packR 23#6 d a b 12#5 0#6]
  | .evpost d a b => [packR 23#6 d a b 13#5 0#6]
  | .launch d a b n => [packR 23#6 d a b 14#5 (0#2 ++ n)]
  | .crget d c => [packR 24#6 d 0#5 ((c.code).extractLsb' 6 5) 0#5 ((c.code).extractLsb' 0 6)]
  | .crput a c => [packR 24#6 0#5 a ((c.code).extractLsb' 6 5) 1#5 ((c.code).extractLsb' 0 6)]
  | .crswap d a c => [packR 24#6 d a ((c.code).extractLsb' 6 5) 2#5 ((c.code).extractLsb' 0 6)]
  | .ecall  => [packR 24#6 0#5 0#5 0#5 3#5 0#6]
  | .ebreak  => [packR 24#6 0#5 0#5 0#5 4#5 0#6]
  | .rte  => [packR 24#6 0#5 0#5 0#5 5#5 0#6]
  | .halts  => [packR 24#6 0#5 0#5 0#5 6#5 0#6]
  | .xinv s => [packR 24#6 0#5 0#5 0#5 7#5 (0#2 ++ s.code ++ 0#1)]
  | .xinvPage a s => [packR 24#6 0#5 a 0#5 7#5 (1#2 ++ s.code ++ 0#1)]
  | .ctxsv a => [packR 24#6 0#5 a 0#5 8#5 0#6]
  | .ctxld a => [packR 24#6 0#5 a 0#5 9#5 0#6]
  | .ifence  => [packR 24#6 0#5 0#5 0#5 10#5 0#6]
  | .tlook d a => [packR 25#6 d a 0#5 0#5 0#6]
  | .tset a b => [packR 25#6 0#5 a b 1#5 0#6]
  | .tinv d a => [packR 25#6 d a 0#5 2#5 0#6]
  | .tclr  => [packR 25#6 0#5 0#5 0#5 3#5 0#6]
  | .feget d a => [packR 25#6 d a 0#5 4#5 0#6]
  | .feset a => [packR 25#6 0#5 a 0#5 5#5 0#6]
  | .feclr a => [packR 25#6 0#5 a 0#5 6#5 0#6]
  | .zscan d a b => [packR 25#6 d a b 7#5 0#6]
  | .setvl d a t g => [packR 32#6 d a t.code 0#5 (0#4 ++ g)]
  | .cfgget d => [packR 32#6 d 0#5 0#5 1#5 0#6]
  | .vcpget d => [packR 32#6 d 0#5 0#5 2#5 0#6]
  | .vadd d a b m => [packV 33#6 d a b m 0#5]
  | .vsub d a b m => [packV 33#6 d a b m 1#5]
  | .vmul d a b m => [packV 33#6 d a b m 2#5]
  | .vdiv d a b m => [packV 33#6 d a b m 3#5]
  | .vmin d a b m => [packV 33#6 d a b m 4#5]
  | .vmax d a b m => [packV 33#6 d a b m 5#5]
  | .vabs d a m => [packV 33#6 d a 0#6 m 6#5]
  | .vneg d a m => [packV 33#6 d a 0#6 m 7#5]
  | .vsqrt d a m => [packV 33#6 d a 0#6 m 8#5]
  | .vfma d a b m => [packV 33#6 d a b m 9#5]
  | .vfms d a b m => [packV 33#6 d a b m 10#5]
  | .vfnma d a b m => [packV 33#6 d a b m 11#5]
  | .vand d a b m => [packV 33#6 d a b m 12#5]
  | .vor d a b m => [packV 33#6 d a b m 13#5]
  | .vxor d a b m => [packV 33#6 d a b m 14#5]
  | .vnot d a m => [packV 33#6 d a 0#6 m 15#5]
  | .vsll d a b m => [packV 33#6 d a b m 16#5]
  | .vsrl d a b m => [packV 33#6 d a b m 17#5]
  | .vsra d a b m => [packV 33#6 d a b m 18#5]
  | .vmulh d a b m => [packV 33#6 d a b m 19#5]
  | .vsadd d a b m => [packV 33#6 d a b m 20#5]
  | .vssub d a b m => [packV 33#6 d a b m 21#5]
  | .vclz d a m => [packV 33#6 d a 0#6 m 22#5]
  | .vpopc d a m => [packV 33#6 d a 0#6 m 23#5]
  | .vmov d a m => [packV 33#6 d a 0#6 m 24#5]
  | .vmerge d a b m => [packV 33#6 d a b m 25#5]
  | .vcps d a b m => [packV 33#6 d a b m 26#5]
  | .vclass d a m => [packV 33#6 d a 0#6 m 27#5]
  | .vmodmul d a b m => [packV 33#6 d a b m 28#5]
  | .vmodadd d a b m => [packV 33#6 d a b m 29#5]
  | .vmodsub d a b m => [packV 33#6 d a b m 30#5]
  | .vtag d a t => [packV 33#6 d a (0#1 ++ t.code) 0#3 31#5]
  | .vaddVs d a x m i => [packS 34#6 d a x m (BitVec.ofBool i) 0#5]
  | .vsubVs d a x m i => [packS 34#6 d a x m (BitVec.ofBool i) 1#5]
  | .vmulVs d a x m i => [packS 34#6 d a x m (BitVec.ofBool i) 2#5]
  | .vdivVs d a x m i => [packS 34#6 d a x m (BitVec.ofBool i) 3#5]
  | .vminVs d a x m i => [packS 34#6 d a x m (BitVec.ofBool i) 4#5]
  | .vmaxVs d a x m i => [packS 34#6 d a x m (BitVec.ofBool i) 5#5]
  | .vfmaVs d a x m i => [packS 34#6 d a x m (BitVec.ofBool i) 9#5]
  | .vfmsVs d a x m i => [packS 34#6 d a x m (BitVec.ofBool i) 10#5]
  | .vfnmaVs d a x m i => [packS 34#6 d a x m (BitVec.ofBool i) 11#5]
  | .vandVs d a x m i => [packS 34#6 d a x m (BitVec.ofBool i) 12#5]
  | .vorVs d a x m i => [packS 34#6 d a x m (BitVec.ofBool i) 13#5]
  | .vxorVs d a x m i => [packS 34#6 d a x m (BitVec.ofBool i) 14#5]
  | .vsllVs d a x m i => [packS 34#6 d a x m (BitVec.ofBool i) 16#5]
  | .vsrlVs d a x m i => [packS 34#6 d a x m (BitVec.ofBool i) 17#5]
  | .vsraVs d a x m i => [packS 34#6 d a x m (BitVec.ofBool i) 18#5]
  | .vmulhVs d a x m i => [packS 34#6 d a x m (BitVec.ofBool i) 19#5]
  | .vsaddVs d a x m i => [packS 34#6 d a x m (BitVec.ofBool i) 20#5]
  | .vssubVs d a x m i => [packS 34#6 d a x m (BitVec.ofBool i) 21#5]
  | .vmergeVs d a x m i => [packS 34#6 d a x m (BitVec.ofBool i) 25#5]
  | .vcpsVs d a x m i => [packS 34#6 d a x m (BitVec.ofBool i) 26#5]
  | .vmodmulVs d a x m i => [packS 34#6 d a x m (BitVec.ofBool i) 28#5]
  | .vmodaddVs d a x m i => [packS 34#6 d a x m (BitVec.ofBool i) 29#5]
  | .vmodsubVs d a x m i => [packS 34#6 d a x m (BitVec.ofBool i) 30#5]
  | .vcmpeq d a b m => [packV 35#6 (0#3 ++ d) a b m 0#5]
  | .vcmpne d a b m => [packV 35#6 (0#3 ++ d) a b m 1#5]
  | .vcmplt d a b m => [packV 35#6 (0#3 ++ d) a b m 2#5]
  | .vcmple d a b m => [packV 35#6 (0#3 ++ d) a b m 3#5]
  | .vcmpun d a b m => [packV 35#6 (0#3 ++ d) a b m 4#5]
  | .mand d a b => [packV 35#6 (0#3 ++ d) (0#3 ++ a) (0#3 ++ b) 0#3 5#5]
  | .mor d a b => [packV 35#6 (0#3 ++ d) (0#3 ++ a) (0#3 ++ b) 0#3 6#5]
  | .mxor d a b => [packV 35#6 (0#3 ++ d) (0#3 ++ a) (0#3 ++ b) 0#3 7#5]
  | .mandn d a b => [packV 35#6 (0#3 ++ d) (0#3 ++ a) (0#3 ++ b) 0#3 8#5]
  | .mnot d a => [packV 35#6 (0#3 ++ d) (0#3 ++ a) 0#6 0#3 9#5]
  | .mpopc d a m => [packV 35#6 (0#1 ++ d) (0#3 ++ a) 0#6 m 10#5]
  | .mfirst d a m => [packV 35#6 (0#1 ++ d) (0#3 ++ a) 0#6 m 11#5]
  | .mset d a => [packV 35#6 (0#3 ++ d) (0#1 ++ a) 0#6 0#3 12#5]
  | .mfromv d a m => [packV 35#6 (0#3 ++ d) a 0#6 m 13#5]
  | .vredsum d a b m => [packV 36#6 d a b m 0#5]
  | .vredsumo d a b m => [packV 36#6 d a b m 1#5]
  | .vredmin d a b m => [packV 36#6 d a b m 2#5]
  | .vredmax d a b m => [packV 36#6 d a b m 3#5]
  | .vredand d a b m => [packV 36#6 d a b m 4#5]
  | .vredor d a b m => [packV 36#6 d a b m 5#5]
  | .vredxor d a b m => [packV 36#6 d a b m 6#5]
  | .vdot d a b m => [packV 36#6 d a b m 7#5]
  | .vxacc a b m => [packV 36#6 0#6 a b m 8#5]
  | .vxrnd d => [packV 36#6 d 0#6 0#6 0#3 9#5]
  | .vxrndClr d => [packV 36#6 d 0#6 1#6 0#3 9#5]
  | .vcvth d a t m => [packV 37#6 d a (0#1 ++ t.code) m 0#5]
  | .vcvtd d a t m => [packV 37#6 d a (0#1 ++ t.code) m 1#5]
  | .vcvtf4 d a t => [packV 37#6 d a (0#4 ++ t) 0#3 2#5]
  | .vcvti d a t m => [packV 37#6 d a (0#1 ++ t.code) m 3#5]
  | .vcvtf d a t m => [packV 37#6 d a (0#1 ++ t.code) m 4#5]
  | .vquant d a b => [packV 37#6 d a b 0#3 5#5]
  | .vdeq d a t m => [packV 37#6 d a (0#1 ++ t.code) m 6#5]
  | .vscale d a b m => [packV 37#6 d a b m 7#5]
  | .vpacks d a b m => [packV 37#6 d a b m 8#5]
  | .vbfpn d a t m => [packV 37#6 d a (0#1 ++ t.code) m 9#5]
  | .vgathr d a b m => [packV 38#6 d a b m 0#5]
  | .vslideup d a b m => [packV 38#6 d a (0#1 ++ b) m 1#5]
  | .vslidedn d a b m => [packV 38#6 d a (0#1 ++ b) m 2#5]
  | .vcompr d a m => [packV 38#6 d a 0#6 m 3#5]
  | .vexpnd d a m => [packV 38#6 d a 0#6 m 4#5]
  | .viota d b m => [packV 38#6 d 0#6 (0#3 ++ b) m 5#5]
  | .vid d m => [packV 38#6 d 0#6 0#6 m 6#5]
  | .vbcast d a b m => [packV 38#6 d a (0#1 ++ b) m 7#5]
  | .vextr d a b => [packV 38#6 (0#1 ++ d) a (0#1 ++ b) 0#3 8#5]
  | .vinsrt d a b => [packV 38#6 d (0#1 ++ a) (0#1 ++ b) 0#3 9#5]
  | .vrev d a m => [packV 38#6 d a 0#6 m 10#5]
  | .vzip d a b => [packV 38#6 d a b 0#3 11#5]
  | .vunzip d a h => [packV 38#6 d a (0#5 ++ BitVec.ofBool h) 0#3 12#5]
  | .vstrp d a b => [packV 38#6 d a (0#1 ++ b) 0#3 13#5]
  | .vconfd d a m => [packV 38#6 (0#3 ++ d) a 0#6 m 14#5]
  | .vld d x m => [packM 39#6 d x 0#6 m 0#3 0#3]
  | .vlds d x s m => [packM 39#6 d x (0#1 ++ s) m 0#3 1#3]
  | .vldseg d x m n => [packM 39#6 d x 0#6 m n 2#3]
  | .vldx d x b m o => [packM 39#6 d x b m (0#2 ++ BitVec.ofBool o) 3#3]
  | .vldff d x m => [packM 39#6 d x 0#6 m 0#3 4#3]
  | .vldw d x w m => [packM 39#6 d x w m 0#3 5#3]
  | .vgwin d x b m o => [packM 39#6 d x b m (0#2 ++ BitVec.ofBool o) 6#3]
  | .vldfe d x m c => [packM 39#6 d x 0#6 m (0#2 ++ BitVec.ofBool c) 7#3]
  | .vst v x m => [packM 40#6 v x 0#6 m 0#3 0#3]
  | .vsts v x s m => [packM 40#6 v x (0#1 ++ s) m 0#3 1#3]
  | .vstseg v x m n => [packM 40#6 v x 0#6 m n 2#3]
  | .vstx v x b m o => [packM 40#6 v x b m (0#2 ++ BitVec.ofBool o) 3#3]
  | .vstxo v x b m o => [packM 40#6 v x b m (0#2 ++ BitVec.ofBool o) 4#3]
  | .vstfe v x m => [packM 40#6 v x 0#6 m 0#3 5#3]
  | .vstwm v x w m => [packM 40#6 v x w m 0#3 6#3]
  | .upd d a b m => [packV 41#6 (0#1 ++ d) a b m 0#5]
  | .upda d a b m => [packV 41#6 (0#1 ++ d) a b m 1#5]
  | .uwin d a => [packV 41#6 (0#1 ++ d) (0#1 ++ a) 0#6 0#3 2#5]
  | .uwinRel d => [packV 41#6 (0#1 ++ d) 0#6 1#6 0#3 2#5]
  | .uacc a b m => [packV 41#6 0#6 a b m 3#5]
  | .umerge  => [packV 41#6 0#6 0#6 0#6 0#3 4#5]
  | .uflush d => [packV 41#6 (0#1 ++ d) 0#6 0#6 0#3 5#5]
  | .uregion d a => [packV 41#6 (0#1 ++ d) (0#1 ++ a) 0#6 0#3 6#5]
  | .uregionRel d a => [packV 41#6 (0#1 ++ d) (0#1 ++ a) 1#6 0#3 6#5]
  | .uquery d a => [packV 41#6 (0#1 ++ d) (0#1 ++ a) 0#6 0#3 7#5]
  | .gcsleep d a b m => [packV 42#6 (0#3 ++ d) a b m 0#5]
  | .vdrain  => [packV 42#6 0#6 0#6 0#6 0#3 1#5]
  | .sload a n => [packR 48#6 0#5 a 0#5 0#5 (0#2 ++ n)]
  | .sarm d a b n => [packR 48#6 d a b 1#5 (0#2 ++ n)]
  | .sport a b => [packR 48#6 0#5 a b 2#5 0#6]
  | .twload a b n => [packR 48#6 0#5 a b 3#5 (0#2 ++ n)]
  | .sgrow a g => [packR 48#6 0#5 a 0#5 4#5 (g.code ++ 0#4)]
  | .modcfg a => [packR 48#6 0#5 a 0#5 5#5 0#6]
  | .modchk d a c b => [packR 48#6 d a 0#5 6#5 (BitVec.ofBool c ++ BitVec.ofBool b ++ 0#4)]
  | .sstat d a => [packR 48#6 d a 0#5 7#5 0#6]
  | .sabort d a => [packR 48#6 d a 0#5 8#5 0#6]
  | .sfree  => [packR 48#6 0#5 0#5 0#5 9#5 0#6]
  | .mgrp d a => [packR 49#6 d a 0#5 0#5 0#6]
  | .mgrpRel  => [packR 49#6 0#5 0#5 0#5 0#5 16#6]
  | .mwload a n => [packR 49#6 0#5 a 0#5 1#5 (0#2 ++ n)]
  | .mma a b c n => [packR 49#6 0#5 a b 2#5 (0#1 ++ BitVec.ofBool c ++ n)]
  | .maccz c n => [packR 49#6 0#5 0#5 0#5 3#5 (0#1 ++ BitVec.ofBool c ++ n)]
  | .maccst a b c n => [packR 49#6 0#5 a b 4#5 (0#1 ++ BitVec.ofBool c ++ n)]
  | .maccld a b c n => [packR 49#6 0#5 a b 5#5 (0#1 ++ BitVec.ofBool c ++ n)]
  | .maload d a b k f n => [packR 49#6 d a b 6#5 (BitVec.ofBool k ++ BitVec.ofBool f ++ n)]
  | .mstat d => [packR 49#6 d 0#5 0#5 7#5 0#6]
  | .gload a n => [packR 50#6 0#5 a 0#5 0#5 (0#2 ++ n)]
  | .grun d a b n => [packR 50#6 d a b 1#5 (0#2 ++ n)]
  | .gstat d => [packR 50#6 d 0#5 0#5 2#5 0#6]
  | .gfree  => [packR 50#6 0#5 0#5 0#5 3#5 0#6]
  | .rtcfg d a => [packR 51#6 d a 0#5 0#5 0#6]
  | .rtcfgRel d a => [packR 51#6 d a 0#5 0#5 16#6]
  | .rtupd d a b => [packR 51#6 d a b 1#5 0#6]
  | .route d a b n => [packR 51#6 d a b 2#5 (0#2 ++ n)]
  | .recv d => [packR 51#6 d 0#5 0#5 3#5 0#6]
  | .recvNb d => [packR 51#6 d 0#5 0#5 3#5 16#6]
  | .rret a b n => [packR 51#6 0#5 a b 4#5 (0#2 ++ n)]
  | .rretErr b n => [packR 51#6 0#5 0#5 b 4#5 (1#2 ++ n)]
  | .rstat d a => [packR 51#6 d a 0#5 5#5 0#6]
  | .rstatLate d => [packR 51#6 d 0#5 0#5 5#5 16#6]
  | .rhot d a => [packR 51#6 d a 0#5 6#5 0#6]
  | .rscfg a b => [packR 51#6 0#5 a b 7#5 0#6]
  | .rscfgInbox a b => [packR 51#6 0#5 a b 7#5 16#6]
  | .ccomm d a => [packR 52#6 d a 0#5 0#5 0#6]
  | .cfree d a => [packR 52#6 d a 0#5 1#5 0#6]
  | .cbind d a b => [packR 52#6 d a b 2#5 0#6]
  | .cunbind d a => [packR 52#6 d a 0#5 3#5 0#6]
  | .cstart d a b n => [packR 52#6 d a b 4#5 (0#2 ++ n)]
  | .csend a b n => [packR 52#6 0#5 a b 5#5 (0#2 ++ n)]
  | .cfetch a b n => [packR 52#6 0#5 a b 6#5 (0#2 ++ n)]
  | .cstat d a => [packR 52#6 d a 0#5 7#5 0#6]
  | .ccancel d a => [packR 52#6 d a 0#5 8#5 0#6]
  | .xcopy d a b n => [packR 53#6 d a b 0#5 (0#2 ++ n)]
  | .xcopyt d a b e n => [packR 53#6 d a b 1#5 (e.code ++ n)]
  | .xdecode d a b n => [packR 53#6 d a b 2#5 (0#2 ++ n)]
  | .xexport d a b n => [packR 53#6 d a b 3#5 (0#2 ++ n)]
  | .xfill d a b n => [packR 53#6 d a b 4#5 (0#2 ++ n)]
  | .xhost d a b n => [packR 53#6 d a b 5#5 (0#2 ++ n)]
  | .xhostToh d a b n => [packR 53#6 d a b 5#5 (1#2 ++ n)]
  | .xrootWrite _ => []
  | .fcsrAccess _ => []
  | .tstatWrite _ => []
  | .rframeWrite _ => []
  | .vectorExecute _ _ => []
  | .walkRefill _ _ => []
  | .slotBoundary _ => []
  | .admission _ _ => []
  | .eviction _ => []
  | .consumerEviction _ => []
  | .resumption _ => []
  | .retirement _ => []
  | .waittlWake _ => []
  | .sleepWake _ => []
  | .sleepTimeout _ => []
  | .barrierWake _ => []
  | .acwaitWake _ => []
  | .gcsleepWake _ => []
  | .qdrainRelease _ => []
  | .vldwRelease _ => []
  | .consumingLoadWake _ => []
  | .recvWake _ => []
  | .vstwmComplete _ => []
  | .copyComplete _ _ _ => []
  | .sloadInstall _ => []
  | .twloadApply _ => []
  | .modcfgApply _ => []
  | .nodeFire _ _ _ _ => []
  | .inputPortFeRead _ _ _ _ _ => []
  | .sectionRunComplete _ _ _ => []
  | .matrixGroupStart _ => []
  | .matrixOpComplete _ _ _ => []
  | .mgrpReleaseDone _ => []
  | .gloadInstall _ => []
  | .graphRunComplete _ _ _ _ => []
  | .fabricRelease _ => []
  | .graphRelease _ => []
  | .pressAccept _ _ _ _ => []
  | .eagerApply _ _ => []
  | .updComplete _ _ _ => []
  | .uflushComplete _ _ _ => []
  | .regionReleaseApply _ => []
  | .routePlacement _ _ _ => []
  | .routeWaitDelivery _ _ _ => []
  | .returnApply _ _ _ => []
  | .routeTimeout _ _ => []
  | .routeComplete _ _ => []
  | .communicatorJoin _ _ => []
  | .chunkSend _ => []
  | .chunkArrival _ _ => []
  | .tileLand _ _ _ _ => []
  | .cstartComplete _ _ _ => []
  | .streamPieceDeliver _ _ => []
  | .cfreeWithdraw _ => []
  | .cunbindClose _ => []
  | .thermalThrottle => []
  | .workPacing _ => []
  | .thermalShutdown => []
  | .packageReset _ _ _ => []
  | .ownerRelease => []
  | .patrolScrub => []
  | .flitReplay _ => []
  | .laneLoss _ => []
  | .troiqueMessage _ => []
  | .messageFail _ _ => []
  | .ethernetFrameDrop _ => []
  | .rdmaWrite _ _ _ => []
  | .rdmaRead _ _ _ => []
  | .launchCommand _ _ _ => []
  | .cancel _ _ => []
  | .query _ => []
  | .mapwin _ _ _ _ _ _ _ => []
  | .unmapwin _ _ => []
  | .region _ _ _ _ _ _ _ => []
  | .unregion _ _ => []
  | .modeget _ => []
  | .modeset _ _ => []
  | .attest _ _ => []
  | .fwupdate _ _ _ _ _ => []
  | .post _ _ _ _ => []
  | .ack _ _ => []
  | .completeResend => []
  | .illegalInstruction _ => []
  | .instructionFetchFault _ _ => []
  | .verifierCiphertext _ _ _ => []
  | .unknownOpcode _ _ => []

/-- The last word of an instruction: the word that TVAL receives (17 Table 17-4). Zero for an event. -/
def encodeLast (i : Instr) : IWord := ((encode i).getLast?).getD 0#32

/-- The instruction this decoder reads from an instruction of `nbits` bits with value `w`, bits above `nbits` zero: at most two
words, the first at the lowest address (09 R113, R122). -/
noncomputable def decodeTableWord (nbits w : Nat) : Option Instr :=
  match decode (bytesOfWord (BitVec.ofNat 32 (w % 2 ^ nbits)) ++ bytesOfWord (BitVec.ofNat 32 (w % 2 ^ nbits / 2 ^ 32))) with
  | .ok (i, _) => some i
  | .error _ => none

end Sys2Proof
end

