-- ==== Sys2Proof/Machine/Num.lean ====
section
/-! DEFINITION. Number formats, exact arithmetic and rounding (03 R19 to R45). Every operation computes an exact value and rounds
it once (R25). -/
namespace Sys2Proof.Machine

/-- Flags in the order of FCSR.FL: bit 0 NV, 1 DZ, 2 OF, 3 UF, 4 NX, 5 SAT, 6 MOV, 7 BGS (03 Table 3-8). -/
abbrev Flags := BitVec 8
def flNone : Flags := 0
def flNV : Flags := 1
def flDZ : Flags := 2
def flOF : Flags := 4
def flUF : Flags := 8
def flNX : Flags := 16
def flSAT : Flags := 32
def flMOV : Flags := 64
def flBGS : Flags := 128

/-- The floating-point formats (03 Table 3-1). -/
inductive Fp where
  | fp64 | fp32 | bf16 | fp16 | e4m3 | e5m2
  deriving DecidableEq, Repr

/-- Bits of a format (03 Table 3-1). -/
def Fp.width : Fp → Nat
  | .fp64 => 64 | .fp32 => 32 | .bf16 => 16 | .fp16 => 16 | .e4m3 => 8 | .e5m2 => 8
/-- Exponent bits (03 Table 3-1). -/
def Fp.ebits : Fp → Nat
  | .fp64 => 11 | .fp32 => 8 | .bf16 => 8 | .fp16 => 5 | .e4m3 => 4 | .e5m2 => 5
/-- Mantissa bits (03 Table 3-1). -/
def Fp.mbits : Fp → Nat
  | .fp64 => 52 | .fp32 => 23 | .bf16 => 7 | .fp16 => 10 | .e4m3 => 3 | .e5m2 => 2
/-- Exponent bias (03 Table 3-1). -/
def Fp.bias : Fp → Int
  | .fp64 => 1023 | .fp32 => 127 | .bf16 => 127 | .fp16 => 15 | .e4m3 => 7 | .e5m2 => 15
/-- The canonical NaN (03 Table 3-1). -/
def Fp.canonicalNan : Fp → Nat
  | .fp64 => 0x7FF8000000000000 | .fp32 => 0x7FC00000 | .bf16 => 0x7FC0 | .fp16 => 0x7E00 | .e4m3 => 0x7F | .e5m2 => 0x7E
/-- The power of two that the smallest subnormal is (03 Table 3-1). -/
def Fp.minExp (f : Fp) : Int := 1 - f.bias - f.mbits
/-- The largest finite value as mantissa and exponent (03 Table 3-1). -/
def Fp.maxFinite (f : Fp) : Nat × Int :=
  match f with
  | .e4m3 => (14, 5)
  | _ => (2 ^ (f.mbits + 1) - 1, 2 ^ f.ebits - 2 - f.bias - f.mbits)
/-- The pattern of the largest finite value, without sign (03 Table 3-1). -/
def Fp.maxPattern (f : Fp) : Nat :=
  match f with
  | .e4m3 => 0x7E
  | _ => (2 ^ f.ebits - 1) * 2 ^ f.mbits - 1
/-- The pattern of infinity, without sign; E4M3 has none (03 R21). -/
def Fp.infPattern (f : Fp) : Nat := (2 ^ f.ebits - 1) * 2 ^ f.mbits

/-- A floating-point operand's value: a NaN, an infinity, or (-1)^neg × m × 2^e (03 R20, R21). -/
inductive FVal where
  | nan (signalling : Bool)
  | inf (neg : Bool)
  | fin (neg : Bool) (m : Nat) (e : Int)
  deriving DecidableEq, Repr

/-- The value of a pattern of format f (03 R20, R21). -/
def Fp.value (f : Fp) (x : Nat) : FVal :=
  let m := x % 2 ^ f.mbits
  let e := x / 2 ^ f.mbits % 2 ^ f.ebits
  let neg := x / 2 ^ (f.width - 1) % 2 == 1
  if e == 2 ^ f.ebits - 1 && f != .e4m3 then
    if m == 0 then .inf neg else .nan (decide (m < 2 ^ (f.mbits - 1)))
  else if f == .e4m3 && x % 128 == 0x7F then .nan false
  else if e == 0 then .fin neg m f.minExp
  else .fin neg (m + 2 ^ f.mbits) (f.minExp + e - 1)

/-- An exact magnitude that rounding receives: (m + d) × 2^e with d = 0, or 0 < d < 1 when `sticky`. Quotients and square roots
carry enough bits of m that a sticky part decides every rounding. -/
structure Ex where
  neg : Bool
  m : Nat
  e : Int
  sticky : Bool := false
  deriving DecidableEq, Repr

/-- What `round` of 09 R133 takes: an exact real, an infinity, a quiet NaN or a signalling NaN. -/
inductive RV where
  | qnan
  | snan
  | inf (neg : Bool)
  | num (x : Ex)
  deriving DecidableEq, Repr

/-- An operand as an exact value to be rounded (03 R41). -/
def FVal.toRV : FVal → RV
  | .nan true => .snan
  | .nan false => .qnan
  | .inf n => .inf n
  | .fin n m e => .num ⟨n, m, e, false⟩

/-- Whether rounding away from the truncated magnitude happens, from the mode, the sign, the parity of the truncated
magnitude, and how the discarded part compares with one half (03 Table 3-4). -/
def roundUp (rm : RMode) (neg odd : Bool) (cmpHalf : Ordering) (inexact : Bool) : Bool :=
  match rm with
  | .rne => cmpHalf == .gt || (cmpHalf == .eq && odd)
  | .rmm => cmpHalf != .lt
  | .rup => inexact && !neg
  | .rdn => inexact && neg
  | .rtz => false
  | .dyn => false

/-- The magnitude of x in units of 2^q, rounded in mode rm, and whether it is inexact (03 R25, R27). -/
def Ex.quantise (x : Ex) (q : Int) (rm : RMode) : Nat × Bool :=
  if q ≤ x.e then
    let n := x.m * 2 ^ (x.e - q).toNat
    (if roundUp rm x.neg (n % 2 == 1) .lt x.sticky then n + 1 else n, x.sticky)
  else
    let s := (q - x.e).toNat
    let n := x.m / 2 ^ s
    let r := x.m % 2 ^ s
    let half := 2 ^ (s - 1)
    let inexact := r != 0 || x.sticky
    let c := if r < half then .lt else if r == half then (if x.sticky then .gt else .eq) else Ordering.gt
    (if roundUp rm x.neg (n % 2 == 1) c inexact then n + 1 else n, inexact)

/-- Whether m1 × 2^e1 < m2 × 2^e2. -/
def dyadicLt (m1 : Nat) (e1 : Int) (m2 : Nat) (e2 : Int) : Bool :=
  if e1 ≤ e2 then decide (m1 < m2 * 2 ^ (e2 - e1).toNat) else decide (m1 * 2 ^ (e1 - e2).toNat < m2)

/-- A sign bit in front of a pattern of format f. -/
def Fp.signed (f : Fp) (neg : Bool) (x : Nat) : Nat := if neg then x + 2 ^ (f.width - 1) else x

/-- An overflow by the rounding mode: infinity, or the largest finite number (03 R27). -/
def Fp.ieeeOverflow (f : Fp) (neg : Bool) (rm : RMode) : Nat × Flags :=
  (f.signed neg (if rm = .rtz then f.maxPattern
    else if rm = .rdn then (if neg then f.infPattern else f.maxPattern)
    else if rm = .rup then (if neg then f.maxPattern else f.infPattern)
    else f.infPattern), flOF ||| flNX)
/-- The result of an overflow (03 Table 3-5). -/
def Fp.overflow (f : Fp) (neg : Bool) (rm : RMode) (sat : Bool) : Nat × Flags :=
  if (f = .e4m3 ∨ f = .e5m2) ∧ sat = true then (f.signed neg f.maxPattern, flSAT ||| flNX)
  else if f = .e4m3 then (f.canonicalNan, flOF ||| flNX)
  else f.ieeeOverflow neg rm

/-- An exact number rounded once to format f (03 R25 to R29). -/
def Fp.roundEx (f : Fp) (rm : RMode) (sat : Bool) (x : Ex) : Nat × Flags :=
  if x.m == 0 && !x.sticky then (f.signed x.neg 0, flNone)
  else
    let qU := x.e + x.m.log2 - f.mbits
    let u := x.quantise qU rm
    if dyadicLt f.maxFinite.1 f.maxFinite.2 u.1 qU then f.overflow x.neg rm sat
    else
      let q := max qU f.minExp
      let r := x.quantise q rm
      let tiny := u.1 != 0 && dyadicLt u.1 qU (2 ^ f.mbits) f.minExp
      let fl := (if r.2 then flNX else flNone) ||| (if tiny && r.2 then flUF else flNone)
      let p := 2 ^ f.mbits
      let mag := if r.1 < p then r.1 else
        if r.1 == 2 * p then ((q - f.minExp).toNat + 2) * p else ((q - f.minExp).toNat + 1) * p + (r.1 - p)
      (f.signed x.neg mag, fl)

/-- `round` of 09 R133 to a floating-point type, SAT being FCSR.SAT (03 R22, R25 to R29, R41). -/
def Fp.round (f : Fp) (rm : RMode) (sat : Bool) (v : RV) : Nat × Flags :=
  match v with
  | .qnan => (f.canonicalNan, flNone)
  | .snan => (f.canonicalNan, flNV)
  | .inf neg =>
    match f with
    | .e4m3 => if sat then (f.signed neg f.maxPattern, flSAT) else (f.canonicalNan, flNV)
    | _ => (f.signed neg f.infPattern, flNone)
  | .num x => f.roundEx rm sat x

/-- Whether a value is a signalling NaN. -/
def FVal.isSnan : FVal → Bool
  | .nan s => s
  | _ => false
/-- Whether a value is a NaN. -/
def FVal.isNan : FVal → Bool
  | .nan _ => true
  | _ => false
/-- A value with its sign inverted (exact). -/
def FVal.negate : FVal → FVal
  | .nan s => .nan s
  | .inf n => .inf !n
  | .fin n m e => .fin (!n) m e

/-- A signed dyadic number n × 2^e. -/
structure Dy where
  n : Int
  e : Int
  deriving DecidableEq, Repr

/-- The sum of two dyadics, exact. -/
def Dy.add (a b : Dy) : Dy :=
  if a.e ≤ b.e then ⟨a.n + b.n * 2 ^ (b.e - a.e).toNat, a.e⟩ else ⟨a.n * 2 ^ (a.e - b.e).toNat + b.n, b.e⟩
/-- The product of two dyadics, exact. -/
def Dy.mul (a b : Dy) : Dy := ⟨a.n * b.n, a.e + b.e⟩
/-- The magnitude. -/
def Dy.abs (a : Dy) : Dy := ⟨a.n.natAbs, a.e⟩
/-- Whether a ≤ b. -/
def Dy.le (a b : Dy) : Bool :=
  if a.e ≤ b.e then decide (a.n ≤ b.n * 2 ^ (b.e - a.e).toNat) else decide (a.n * 2 ^ (a.e - b.e).toNat ≤ b.n)
/-- A finite value as a dyadic; others as zero. -/
def FVal.dy : FVal → Dy
  | .fin n m e => ⟨if n then -(m : Int) else m, e⟩
  | _ => ⟨0, 0⟩
/-- A dyadic as an exact number, a zero taking the given sign. -/
def Dy.toEx (a : Dy) (zeroNeg : Bool) : Ex := ⟨if a.n == 0 then zeroNeg else decide (a.n < 0), a.n.natAbs, a.e, false⟩
/-- A dyadic as a value. -/
def Dy.toFVal (a : Dy) : FVal := .fin (decide (a.n < 0)) a.n.natAbs a.e

/-- NV where any operand signals (03 R40). -/
def nvOf (xs : List FVal) : Flags := if xs.any FVal.isSnan then flNV else flNone

/-- The sign of an exact zero sum of numbers of unlike sign, or that is no sum of zeros (03 R40, R39). -/
def zeroSign (rm : RMode) : Bool := rm == .rdn

/-- x + y, exact, with the flags of its operands (03 R40). -/
def fpAdd (rm : RMode) (x y : FVal) : RV × Flags :=
  match x, y with
  | .nan _, _ => (.qnan, nvOf [x, y])
  | _, .nan _ => (.qnan, nvOf [x, y])
  | .inf a, .inf b => if a == b then (.inf a, flNone) else (.qnan, flNV)
  | .inf a, .fin _ _ _ => (.inf a, flNone)
  | .fin _ _ _, .inf b => (.inf b, flNone)
  | .fin a ma _, .fin b mb _ =>
    (.num ((x.dy.add y.dy).toEx (if ma == 0 && mb == 0 && a == b then a else zeroSign rm)), flNone)

/-- x × y, exact (03 R40). -/
def fpMul (x y : FVal) : RV × Flags :=
  match x, y with
  | .nan _, _ => (.qnan, nvOf [x, y])
  | _, .nan _ => (.qnan, nvOf [x, y])
  | .inf a, .inf b => (.inf (a != b), flNone)
  | .inf a, .fin b m _ => if m == 0 then (.qnan, flNV) else (.inf (a != b), flNone)
  | .fin a m _, .inf b => if m == 0 then (.qnan, flNV) else (.inf (a != b), flNone)
  | .fin a ma ea, .fin b mb eb => (.num ⟨a != b, ma * mb, ea + eb, false⟩, flNone)

/-- x / y to more bits than any format holds, with a sticky remainder (03 R40). -/
def fpDiv (x y : FVal) : RV × Flags :=
  match x, y with
  | .nan _, _ => (.qnan, nvOf [x, y])
  | _, .nan _ => (.qnan, nvOf [x, y])
  | .inf _, .inf _ => (.qnan, flNV)
  | .inf a, .fin b _ _ => (.inf (a != b), flNone)
  | .fin a _ _, .inf b => (.num ⟨a != b, 0, 0, false⟩, flNone)
  | .fin a ma ea, .fin b mb eb =>
    if mb == 0 then (if ma == 0 then (.qnan, flNV) else (.inf (a != b), flDZ))
    else
      let k := mb.log2 + 70
      (.num ⟨a != b, ma * 2 ^ k / mb, ea - eb - k, ma * 2 ^ k % mb != 0⟩, flNone)

/-- The integer square root by binary digits: r grows by 2^k wherever its square stays at or below n. -/
def isqrtAux (n : Nat) : Nat → Nat → Nat
  | 0, r => r
  | k + 1, r => isqrtAux n k (if (r + 2 ^ k) * (r + 2 ^ k) ≤ n then r + 2 ^ k else r)
/-- The integer square root. -/
def isqrt (n : Nat) : Nat := isqrtAux n (n.log2 / 2 + 1) 0

/-- √x to more bits than any format holds, with a sticky remainder (03 R40). -/
def fpSqrt (x : FVal) : RV × Flags :=
  match x with
  | .nan _ => (.qnan, nvOf [x])
  | .inf true => (.qnan, flNV)
  | .inf false => (.inf false, flNone)
  | .fin neg m e =>
    if m == 0 then (.num ⟨neg, 0, 0, false⟩, flNone)
    else if neg then (.qnan, flNV)
    else
      let k := 140 + (e % 2).toNat
      let n := m * 2 ^ k
      let r := isqrt n
      (.num ⟨false, r, (e - k) / 2, r * r != n⟩, flNone)

/-- x × y + z with the product exact (03 R40: 0 × ∞ sets NV whatever z is). -/
def fpFma (rm : RMode) (x y z : FVal) : RV × Flags :=
  let p := fpMul x y
  match p.1 with
  | .num e =>
    let q : FVal := .fin e.neg e.m e.e
    let r := fpAdd rm q z
    (r.1, r.2)
  | .inf n =>
    let r := fpAdd rm (.inf n) z
    (r.1, r.2)
  | _ => (.qnan, p.2 ||| nvOf [x, y, z])

/-- Order of two values that are not NaN, -0 below +0 when `zeros` (03 R40). -/
def FVal.lt (zeros : Bool) (x y : FVal) : Bool :=
  match x, y with
  | .inf a, .inf b => a && !b
  | .inf a, _ => a
  | _, .inf b => !b
  | .fin a ma _, .fin b mb _ =>
    if ma == 0 && mb == 0 then zeros && a && !b
    else !(y.dy.le x.dy)
  | _, _ => false

/-- Equality of two values that are not NaN: zeros are equal whatever their signs. -/
def FVal.eqv (x y : FVal) : Bool :=
  match x, y with
  | .inf a, .inf b => a == b
  | .fin _ _ _, .fin _ _ _ => x.dy.le y.dy && y.dy.le x.dy
  | _, _ => false

/-- Which operand minimumNumber (or maximumNumber) returns: `some false` the first, `some true` the second, none the
canonical NaN, with NV for a signalling operand (03 R40). -/
def minMaxPick (isMax : Bool) (x y : FVal) : Option Bool × Flags :=
  let fl := nvOf [x, y]
  if x.isNan && y.isNan then (none, fl)
  else if x.isNan then (some true, fl)
  else if y.isNan then (some false, fl)
  else (some (if isMax then x.lt true y else y.lt true x), fl)

/-- FEQ, FLT, FLE and their vector forms: 0 equal, 1 less, 2 less or equal, with NV (03 R40). -/
def fpCompare (op : Nat) (x y : FVal) : Bool × Flags :=
  let fl := if op == 0 then nvOf [x, y] else if x.isNan || y.isNan then flNV else flNone
  if x.isNan || y.isNan then (false, fl)
  else (match op with
    | 0 => x.eqv y
    | 1 => x.lt false y
    | _ => x.lt false y || x.eqv y, fl)

/-- The class code of 11 R146. -/
def Fp.classify (f : Fp) (x : Nat) : Nat :=
  let sign := x / 2 ^ (f.width - 1) % 2 * 8
  match f.value x with
  | .nan true => 5 + sign
  | .nan false => 4 + sign
  | .inf _ => 3 + sign
  | .fin _ m e => (if m == 0 then 0 else if e == f.minExp && m < 2 ^ f.mbits then 1 else 2) + sign

/-- Bounds of an integer of w bits. -/
def intMin (signed : Bool) (w : Nat) : Int := if signed then -(2 ^ (w - 1) : Nat) else 0
def intMax (signed : Bool) (w : Nat) : Int := if signed then (2 ^ (w - 1) : Nat) - 1 else (2 ^ w : Nat) - 1

/-- An integer clamped to a destination range, SAT where it changes (03 R34). -/
def clampInt (signed : Bool) (w : Nat) (v : Int) : Int × Flags :=
  if v < intMin signed w then (intMin signed w, flSAT)
  else if intMax signed w < v then (intMax signed w, flSAT)
  else (v, flNone)

/-- A real rounded to an integer of w bits (03 Table 3-6). -/
def rvToInt (signed : Bool) (w : Nat) (rm : RMode) (v : RV) : Int × Flags :=
  match v with
  | .qnan => (0, flNV)
  | .snan => (0, flNV)
  | .inf neg => (if neg then intMin signed w else intMax signed w, flSAT ||| flNX)
  | .num x =>
    let r := x.quantise 0 rm
    let i : Int := if x.neg then -(r.1 : Int) else r.1
    let c := clampInt signed w i
    (c.1, c.2 ||| (if r.2 || c.2 != flNone then flNX else flNone))

/-- An integer as an exact number. -/
def exOfInt (v : Int) : Ex := ⟨decide (v < 0), v.natAbs, 0, false⟩

/-- The two's complement pattern of an integer in w bits. -/
def intPattern (w : Nat) (v : Int) : Nat := (v % (2 ^ w : Nat)).toNat
/-- The integer of a w-bit pattern, signed or unsigned. -/
def patternInt (signed : Bool) (w x : Nat) : Int :=
  if signed && x % 2 ^ w ≥ 2 ^ (w - 1) then ((x % 2 ^ w : Nat) : Int) - (2 ^ w : Nat) else ((x % 2 ^ w : Nat) : Int)

/-- Q4 magnitudes by index and the integer codes of type 00, in halves (03 Table 3-3). -/
def q4Half (ty code : Nat) : Int :=
  let idx := code % 8
  let mag : Nat := match ty with
    | 1 => (match idx with | 0 => 0 | 1 => 1 | 2 => 2 | 3 => 3 | 4 => 4 | 5 => 6 | 6 => 8 | _ => 12)
    | 2 => if idx == 0 then 0 else 2 ^ idx
    | _ => (match idx with | 0 => 0 | 1 => 2 | 2 => 4 | 3 => 6 | 4 => 8 | 5 => 12 | 6 => 16 | _ => 24)
  if ty == 0 then 2 * patternInt true 4 code else if code ≥ 8 then -(mag : Int) else mag

/-- The value of a Q4 element from its scale byte and code (03 R23, R24). -/
def q4Value (scale code : Nat) : FVal :=
  if scale % 64 == 63 then .nan false
  else
    let h := q4Half (scale / 64 % 4) code
    .fin (if h == 0 then decide (scale / 64 % 4 ≠ 0 ∧ code ≥ 8) else decide (h < 0)) h.natAbs (((scale % 64 : Nat) : Int) - 33)

/-- The value of a B16 mantissa under a block exponent (03 R30). -/
def b16Value (e m : Nat) : FVal :=
  if e == 255 then .nan false
  else if e == 0 then .fin false 0 0
  else
    let i := patternInt true 16 m
    .fin (decide (i < 0)) i.natAbs ((e : Int) - 141)

/-- The codes of a Q4 type that are not negative, in ascending value, as (half-units, code) (03 Table 3-3). -/
def q4Codes (ty : Nat) : List (Nat × Nat) := (List.range 8).map fun c => ((q4Half ty c).natAbs, c)

/-- The code of type ty for the number x, already in code units: the neighbours are the type's values (03 R27, R24), with the flags NX,
UF where a non-zero element becomes zero, and SAT where it is beyond the largest code of its sign (03 R32). -/
def q4Round (ty : Nat) (rm : RMode) (x : Ex) : Nat × Flags :=
  if x.m == 0 then (if ty ≠ 0 && x.neg then 8 else 0, flNone)
  else
    let codeOf (h : Nat) (c : Nat) : Nat :=
      if ty == 0 then (if x.neg then (16 - h / 2) % 16 else h / 2) else if x.neg then c + 8 else c
    let codes := if ty == 0 && x.neg then q4Codes ty ++ [(16, 8)] else q4Codes ty
    let top := codes.getLastD (0, 0)
    -- compare magnitude with a half-unit value h: m*2^e vs h*2^-1
    let le (h : Nat) : Bool := !dyadicLt x.m x.e h (-1)   -- h ≤ x
    if dyadicLt top.1 (-1) x.m x.e then
      (codeOf top.1 top.2, flSAT ||| flNX)
    else
      let below := (codes.filter fun p => le p.1).getLastD (0, 0)
      if !(dyadicLt below.1 (-1) x.m x.e) then (codeOf below.1 below.2, flNone)
      else
        let above := (codes.find? fun p => !le p.1).getD top
        -- midpoint in quarter units: (below + above) * 2^-2
        let mid := below.1 + above.1
        let c : Ordering := if dyadicLt x.m x.e mid (-2) then .lt else if dyadicLt mid (-2) x.m x.e then .gt else .eq
        let odd := codeOf below.1 below.2 % 2 == 1
        let up := roundUp rm x.neg odd c true
        let r := if up then above else below
        let code := codeOf r.1 r.2
        (code, flNX ||| (if r.1 == 0 then flUF else flNone))

/-- Largest positive code value of a type in half-units: M⁺ (03 R32). -/
def q4MaxHalf (ty : Nat) : Nat := match ty with | 0 => 14 | 1 => 12 | 2 => 128 | _ => 24

/-- Conversion of a block of values to Q4 of type ty: its scale byte and the code and flags of every element (03 R32). -/
def q4Block (ty : Nat) (rm : RMode) (xs : List FVal) : Nat × List (Nat × Flags) :=
  let bad (v : FVal) : Bool := match v with | .fin _ _ _ => false | _ => true
  if xs.any bad then (ty * 64 + 63, xs.map fun v => (0, if bad v then flNV else flNone))
  else
    let mags := xs.map fun v => v.dy.abs
    let a := mags.foldl (fun b x => if b.le x then x else b) ⟨0, 0⟩
    if a.n == 0 then (ty * 64, xs.map fun v => (match v with | .fin true _ _ => if ty == 0 then 0 else 8 | _ => 0, flNone))
    else
      let e := ((List.range 63).find? fun e => a.le ⟨q4MaxHalf ty, (e : Int) - 33⟩).getD 62
      (ty * 64 + e, xs.map fun v => q4Round ty rm (v.dy.toEx (match v with | .fin n _ _ => n | _ => false) |> fun x =>
        { x with e := x.e - ((e : Int) - 32) }))

/-- Conversion of a block of values to B16: its exponent and the mantissa and flags of every element (03 R31, R45). -/
def b16Block (rm : RMode) (xs : List FVal) : Nat × List (Nat × Flags) :=
  let bad (v : FVal) : Bool := match v with | .fin _ _ _ => false | _ => true
  if xs.any bad then (255, xs.map fun v => (0, if bad v then flNV else flNone))
  else if xs.all (fun v => v.dy.n == 0) then (0, xs.map fun _ => (0, flNone))
  else
    let ex (v : FVal) : Ex := v.dy.toEx (match v with | .fin n _ _ => n | _ => false)
    let q (E : Nat) (v : FVal) : Nat × Bool := (ex v).quantise ((E : Int) - 141) rm
    let e := (((List.range 254).map (· + 1)).find? fun E => xs.all fun v => (q E v).1 < 2 ^ 14).getD 254
    (e, xs.map fun v =>
      let r := q e v
      let neg := (ex v).neg
      if r.1 ≥ 2 ^ 14 then (intPattern 16 (if neg then -16383 else 16383), flSAT ||| flNX)
      else (intPattern 16 (if neg then -(r.1 : Int) else r.1),
        (if r.2 then flNX else flNone) ||| (if r.1 == 0 && (ex v).m != 0 then flUF else flNone)))

/-- A free candidate for a sum in unspecified order, kept only where it satisfies the bound of 03 R36; otherwise the sum rounded
to nearest even. `f` is the accumulation format (FP32 or FP64), `exact` the sum of the k products and `sumAbs` of their magnitudes.
The candidate's flags are those of R28: NX where it is not the exact sum, UF where it is also tiny (for a zero candidate, where the
exact sum is). DESIGN CHOICE (log 27): R36 does not say whether overflow is judged on the exact sum or on a partial sum of some order;
here the exact sum's rounding decides. -/
def sumWithin (f : Fp) (free : Nat) (exact sumAbs : Dy) (k : Nat) (zeroNeg : Bool) : Nat × Flags :=
  let r := f.roundEx .rne true (exact.toEx zeroNeg)
  let cand := (Config.freeWord free).toNat % 2 ^ f.width
  let u : Int := match f with | .fp64 => -53 | _ => -24
  let eta : Int := match f with | .fp64 => -1022 | _ => -126
  let bound : Dy := Dy.add (Dy.mul ⟨(k + 1 : Nat), u⟩ sumAbs) ⟨(k : Nat), eta⟩
  match f.value cand with
  | .fin _ _ _ =>
    let d := ((f.value cand).dy.add ⟨-exact.n, exact.e⟩)
    let size := if (f.value cand).dy.n == 0 then exact else (f.value cand).dy
    if d.abs.le bound && r.2 &&& flOF == 0 then
      (cand, if d.n == 0 then flNone else if dyadicLt size.n.natAbs size.e 1 eta then flNX ||| flUF else flNX)
    else r
  | _ => r

/-- The sum of values in unspecified order (03 R36): NaN operands, opposite infinities (which set NV beside a NaN as well), overflow and
the bounded sum, whose k is the number of terms given. DESIGN CHOICE (log 27): R36 gives k for the products alone, and the terms here
include the value an accumulation starts from (VDOT's vd[0], MMA's accumulator element), which the rule leaves open. -/
def sumFree (f : Fp) (free : Nat) (terms : List (RV × Flags)) : Nat × Flags :=
  let fl := terms.foldl (fun a t => a ||| t.2) flNone
  let isNan (t : RV × Flags) : Bool := match t.1 with | .qnan => true | .snan => true | _ => false
  let infPos := terms.any fun t => match t.1 with | .inf false => true | _ => false
  let infNeg := terms.any fun t => match t.1 with | .inf true => true | _ => false
  if infPos && infNeg then (f.canonicalNan, fl ||| flNV)
  else if terms.any isNan then (f.canonicalNan, fl)
  else if infPos then (f.signed false f.infPattern, fl)
  else if infNeg then (f.signed true f.infPattern, fl)
  else
    let dy (t : RV × Flags) : Dy := match t.1 with | .num x => ⟨if x.neg then -(x.m : Int) else x.m, x.e⟩ | _ => ⟨0, 0⟩
    let s := terms.foldl (fun a t => a.add (dy t)) ⟨0, 0⟩
    let sa := terms.foldl (fun a t => a.add (dy t).abs) ⟨0, 0⟩
    let zn := terms.all fun t => match t.1 with | .num x => x.neg | _ => false
    let r := sumWithin f free s sa terms.length zn
    (r.1, fl ||| r.2)

end Sys2Proof.Machine
end

