-- ==== Sys2Proof/Machine/State.lean ====
section
/-! DEFINITION. The state of the HK7 package, as plain data, and the state after package reset. Where the spec gives no form
to a piece of state (the engine region of a context, 17 R266), the fields here are the model's. -/
namespace Sys2Proof.Machine

/-- Plane states (05 Table 5-1). -/
inductive PlaneState where
  | free | runnable | asleep | halted
  deriving DecidableEq, Repr

/-- Privilege levels (17 R246). -/
inductive Level where
  | u | s
  deriving DecidableEq, Repr

/-- The state field of XAC (03 R37). -/
inductive XacState where
  | fin | pinf | ninf | nan
  deriving DecidableEq, Repr

/-- An F register with its format tag (09 R106). -/
structure FRegVal where
  bits : Word
  fmt : FFmt
  deriving DecidableEq, Repr

/-- A vector register: data, side field, element tag (09 R107, R110). -/
structure VRegVal where
  data : BitVec 4096
  side : BitVec 256
  tag : Tag
  deriving DecidableEq, Repr

/-- A timeline counter: completed value, issue number, and the runs of later operations already complete, each a first number and
a count, ascending and apart (07 R99). -/
structure Timeline where
  value : Nat
  issue : Nat
  early : List (Nat × Nat)
  deriving DecidableEq, Repr

/-- An entry of a vector queue, and a resume entry of a trap frame (05 R46, 13 R180 to R190, 17 Table 17-6). -/
structure VEntry where
  w : IWord
  pfx : Option (BitVec 26)
  qpos : BitVec 16
  lg : BitVec 2
  tag : Tag
  vl : Nat
  rm : BitVec 3
  sat : Bool
  xa : Word
  xb : Word
  prog : Nat
  /-- tags of the groups va, vb and vd when an instruction stopped part-way began (17 R255, R259) -/
  stags : Option (Tag × Tag × Tag)
  /-- flags the instruction has raised so far that were not set before it (17 R255, 03 R43) -/
  fl : BitVec 8
  /-- all the flags it has raised so far (17 Table 17-2, FPEN) -/
  raised : BitVec 8
  /-- level and root table with which its accesses are translated: those of the strand when it committed, or when it was re-enqueued
  (07 R73) -/
  lv : Level
  root : Nat
  deriving DecidableEq, Repr

/-- An accumulation window of a plane (23 R346): the descriptor of Table 23-6, one list of N element patterns for each copy, the
count of indices out of range, and its poisoned granules (27 R399). -/
structure Window where
  base : Word
  n : Nat
  logc : Nat
  tag : Tag
  op : Nat
  copies : List (List Nat)
  oor : Nat
  bad : List Nat
  deriving DecidableEq, Repr

/-- A collective stream of a plane (25 R372 to R375). -/
structure Stream where
  comm : Nat
  /-- which stream of the communicator: the n-th CBIND of every member opens the same -/
  ord : Nat
  /-- first register of the bound group; none for a memory stream -/
  vreg : Option Nat
  lg : Nat
  contrib : Bool
  consume : Bool
  pattern : Nat
  root : Nat
  piece : Nat
  npiece : Nat
  tag : Tag
  /-- pieces contributed, and pieces taken by a consuming read or CFETCH, so far -/
  sent : Nat
  taken : Nat
  /-- pieces delivered and not yet consumed -/
  arrived : List (List Nat)
  /-- pieces delivered so far -/
  delivered : Nat
  /-- pieces contributed that have not left the plane, and the bytes of the stream's data that have left -/
  out : List (List Nat)
  gone : Nat
  /-- consuming reads return zero pieces: mismatched, cancelled or aborted -/
  zero : Bool
  /-- closed by CCANCEL while vector instructions were queued: it goes when the queue is empty (25 R377) -/
  shut : Bool
  deriving DecidableEq, Repr

/-- The HK7's own copy of an inbox slot header, with the route it belongs to: the router's cohort, plane, counter and number
(23 R353, Table 23-10). -/
structure SlotHdr where
  weight : Nat
  id : Nat
  row : Nat
  choice : Nat
  entry : Nat
  router : PlaneId
  /-- the number of the router's cohort, and the order of submission that tells it from a later cohort of that number -/
  rcoh : Nat
  rord : Nat
  n : TReg
  seq : Nat
  rbytes : Nat
  nout : Nat
  rettag : Nat
  version : Nat
  deriving DecidableEq, Repr

/-- A slot of an inbox (23 R353 to R355): free, delivered, or handed out by RECV. -/
inductive Slot where
  | free
  | delivered (h : SlotHdr)
  | handed (h : SlotHdr)
  deriving DecidableEq, Repr

/-- The inbox of a plane (23 R352): the offset of its ring in the local window, bytes of a slot, the slots, head and tail. -/
structure Inbox where
  base : Nat
  slotBytes : Nat
  slots : List Slot
  head : Nat
  tail : Nat
  deriving DecidableEq, Repr

/-- What an unretired waiting instruction waits for (11 R152). -/
inductive Wait where
  | waittl (n : TReg) (v : Nat)
  | gbar (e : Option Nat) (gen : Bool)
  | gwait (e : Nat) (gen : Bool)
  | acwait (d : XReg) (addr thr : Word)
  | sleep (d : XReg) (mask : Word) (deadline : Option Nat)
  | qdrain (q : BitVec 5)
  | recv (d : XReg)
  /-- a UREGION.REL of a region (23 R338) -/
  | regrel (d : XReg) (r : Nat)
  /-- a MODCFG that has read its descriptor: modulus and roots (19 R304) -/
  | modcfg (q : Nat) (roots : List Nat)
  | sfree
  | mgrpRel
  | gfree
  | cfree (d : XReg) (comm : Nat)
  | cunbind (d : XReg) (k : Nat)
  /-- an access to FCSR, FEX0 or FEX1: where the old value goes, the register, the value written -/
  | fcsr (d : Option XReg) (c : CReg) (v : Option Word)
  deriving DecidableEq, Repr

/-- Whether a strand in this wait is ASLEEP: SLEEP, GWAIT, a GBAR wait, WAITTL and ACWAIT; in the others it is stalled (05 Table 5-1). -/
def Wait.sleeps : Wait → Bool
  | .waittl _ _ | .gbar _ _ | .gwait _ _ | .acwait _ _ _ | .sleep _ _ _ => true
  | _ => false

/-- A stream of a plane's address generators that holds a translation of its own: the scalar load-store port, or the vector memory
instruction at a queue position (07 R77). -/
inductive AddrStream where
  | scalar
  | vector (qpos : BitVec 16)
  deriving DecidableEq, Repr

/-- A translation held by a stream of a plane (07 R77): the 64 KiB frame of a virtual address and what its walk found. -/
structure Held where
  stream : AddrStream
  vframe : Nat
  span : Nat
  pframe : Nat
  tiled : Bool
  r : Bool
  w : Bool
  x : Bool
  u : Bool
  /-- the root that its walk began at -/
  root : Nat
  deriving DecidableEq, Repr

/-- An inductive stop of the machine itself. -/
inductive Fault where
  /-- The package is held in reset (01 R17, 27 R393) and no PACKAGE_RESET comes. Raised by `step` alone. Safe: no agent of a package
  held in reset acts. -/
  | heldInReset
  deriving DecidableEq, Repr

/-- Refusals. -/
inductive Refusal where
  /-- An instruction that has no meaning yet, raised by `exec` alone. Safe: it claims nothing. -/
  | notModelled (mnemonic : String)
  deriving DecidableEq, Repr

/-- A store of a plane whose granules can be poisoned (27 Table 27-5): its window, a buffer of its matrix binding, the coefficients of
a node of its bound stream image. -/
inductive CoreStore where
  | window
  | accumulator (a1 : Bool) (row : Nat)
  | coefficient (node : Nat)
  deriving DecidableEq, Repr

/-- What moves next (log 2). -/
inductive Input where
  /-- the strand of a plane issues its next instruction, or continues its wait -/
  | strand (p : PlaneId)
  /-- an event or a command takes place -/
  | event (i : Instr)
  /-- clk pass (01 R15) -/
  | clk (n : Nat)
  /-- whether vector units lag behind the strands from now on (log 5) -/
  | lag (b : Bool)
  /-- an uncorrectable soft error strikes the line or granule of a physical address (27 R400) -/
  | softError (pa : Nat)
  /-- an uncorrectable soft error strikes a granule of a store of plane p (27 R399, R400) -/
  | storeError (p : PlaneId) (st : CoreStore) (granule : Nat)
  /-- a check corrects an error at a physical address, and logs it (27 R400) -/
  | corrected (pa : Nat)
  /-- the entries that the LDQ, SDQ, BRQ and EQ of plane p hold while its access unit runs ahead (05 R47) -/
  | queues (p : PlaneId) (ldq sdq brq eq : Nat)
  /-- the host writes bytes of its own memory (log 12) -/
  | hostStore (a : Nat) (bs : List Byte)
  deriving DecidableEq, Repr

/-- Parameters of a launch record that the machine keeps (05 Table 5-3). -/
structure LaunchRec where
  level : Nat
  slevel : Bool
  align : Bool
  nstrand : Nat
  weight : Nat
  entry : Word
  xroot : Word
  savearea : Word
  quota : Nat
  coreset : BitVec 128
  args : List Word
  /-- member ranks of each group descriptor, in descriptor order -/
  groups : List (BitVec 512)
  /-- watermark entries: number, PRODUCE, RESET -/
  wms : List (Nat × Bool × Bool)
  deriving DecidableEq, Repr

/-- Who launched (05 R64, 11 R166, R167; 27 R388). -/
inductive Launcher where
  /-- a LAUNCH by a strand of cohort coh, with the completion word's physical address -/
  | strand (coh : Nat) (word : Option Nat)
  /-- a session of the host -/
  | host (session : Nat)
  deriving DecidableEq, Repr

/-- States of a cohort that exists, or of a launch that waits (05 R52, R54, R61). -/
inductive CohortState where
  | waiting | resident | evicted
  deriving DecidableEq, Repr

/-- A cohort, from the moment its launch returned OK to its retirement or withdrawal (05 R54). -/
structure Cohort where
  num : Nat
  st : CohortState
  rcd : LaunchRec
  launcher : Launcher
  /-- order of submission, which no other launch shares, and of first admission once admitted -/
  order : Nat
  admitted : Nat
  /-- planes and partition bases by rank, once admitted -/
  planes : List PlaneId
  bases : List Nat
  /-- group table entries in descriptor order, once admitted -/
  entries : List Nat
  /-- event bits held for each rank while its strand is not resident (11 R164) -/
  posts : List Word
  /-- the parked contexts of its strands by rank, while evicted (17 R266) -/
  saved : List Nat
  /-- the outcome and cause with which it will retire, once it is aborted, cancelled or withdrawn (17 R260, 11 R169, 27 R387) -/
  ended : Option (Nat × Nat)
  deriving DecidableEq, Repr

/-- A group table entry (05 R53). `owner` is the owning cohort; none when free. -/
structure GroupEntry where
  owner : Option Nat
  members : List PlaneId
  count : Nat
  arrived : List PlaneId
  gen : Bool
  deriving DecidableEq, Repr

/-- A watermark with its completion tracker (05 Table 5-8, 15 R231). -/
structure Watermark where
  gen : Nat
  mark : Nat
  /-- completed ranges above MARK, each a first index and an end, ascending -/
  ranges : List (Nat × Nat)
  deriving DecidableEq, Repr

/-- A region of the Press (23 R335, R337): the declaring cohort, its ROOT, the descriptor, and the physical address of every 64 KiB
frame of the extent, from the frame of BASE on. -/
structure Region where
  coh : Nat
  root : Nat
  base : Nat
  len : Nat
  tag : Tag
  op : Nat
  eager : Bool
  frames : List Nat
  deriving DecidableEq, Repr

/-- A value pending for a key, with the stream that brought it (plane, counter, sequence number) and the numbers that its plane had
waited for when it was emitted (23 R341, R342). -/
structure PendVal where
  val : Nat
  plane : PlaneId
  n : TReg
  seq : Nat
  waited : List Nat
  deriving DecidableEq, Repr

/-- A key with accepted values still to be applied: region, physical address, values in order of acceptance (23 R341). -/
structure PendKey where
  reg : Nat
  pa : Nat
  vals : List PendVal
  deriving DecidableEq, Repr

/-- An update pair emitted: region, physical address, value (23 R339). -/
structure Pair where
  reg : Nat
  pa : Nat
  val : Nat
  /-- the numbers that the emitting plane had waited for, counter by counter (23 R342, ANY) -/
  waited : List Nat
  deriving DecidableEq, Repr

/-- A translation that an operation checked at issue and holds: the 64 KiB frame of a virtual address, its physical frame, whether it is
TILED, the bytes of its page, and the root it was walked from (15 R237, 11 R174); `stale` where an XINV removed it while the operation lay
in a context that CTXSV had saved, so that it is walked afresh. -/
structure XFrame where
  vframe : Nat
  pframe : Nat
  tiled : Bool
  span : Nat
  root : Nat
  stale : Bool := false
  deriving DecidableEq, Repr

/-- The work of a copy-engine operation (15 R238 to R245). -/
inductive CopyJob where
  | copy (dst src len : Nat)
  | transpose (dst src e rows cols ss ds : Nat)
  | fill (dst : Nat) (pat : Word) (len : Nat)
  /-- the tensor at a header address with its extent and the fields and frequencies read at issue -/
  | decode (dst hdr stat n raw extent dataoff datalen crc : Nat) (check : Bool) (freq : List Nat)
  | exportTo (dst src total : Nat)
  /-- between device memory and host memory at a host address -/
  | toHost (host dev len : Nat)
  | fromHost (host dev len : Nat)
  deriving DecidableEq, Repr

/-- A device window (27 R381). -/
structure Win where
  num : Nat
  root : Nat
  base : Nat
  len : Nat
  r : Bool
  w : Bool
  key : Nat
  deriving DecidableEq, Repr

/-- A host region (27 R383). -/
structure HostRegion where
  num : Nat
  key : Nat
  base : Nat
  len : Nat
  toh : Bool
  fromh : Bool
  deriving DecidableEq, Repr

/-- An id of a routing table (23 R349, R351): its replica set, version, hit count, and HOT latch. -/
structure RouteId where
  eps : List PlaneId
  ver : Nat
  hits : Nat
  hot : Bool
  deriving DecidableEq, Repr

/-- A routing table (23 R349), with a serial number that no other table has had. -/
structure RTable where
  gen : Nat
  coh : Nat
  root : Nat
  thresh : Nat
  stRank : Nat
  stCoh : Nat
  evbit : Nat
  ids : List RouteId
  deriving DecidableEq, Repr

/-- States of a riddling-table entry that is not FREE (23 Table 23-12). -/
inductive RouteState where
  | routing | waiting | released
  deriving DecidableEq, Repr

/-- A choice of a route that is outstanding: row, choice, weight (23 R357). -/
structure Outst where
  row : Nat
  choice : Nat
  weight : Nat
  deriving DecidableEq, Repr

/-- A riddling-table entry in use, and the route operation that holds it (23 R356 to R361). -/
structure RouteEnt where
  core : CoreId
  e : Nat
  plane : PlaneId
  coh : Nat
  /-- the order of submission of the cohort -/
  ord : Nat
  n : TReg
  seq : Nat
  rows : Nat
  src : Nat
  spitch : Int
  choiceAt : Nat
  out : Nat
  stat : Nat
  opitch : Nat
  rbytes : Nat
  nout : Nat
  /-- the number and the serial number of the table captured (23 R351) -/
  table : Nat
  tgen : Nat
  k : Nat
  kt : Nat
  rettag : Nat
  policy : Nat
  tmo : Nat
  /-- clk counted before `start`, and the clk since which the timer runs; none while the router is evicted -/
  elapsed : Nat
  start : Option Nat
  /-- the replica sets and versions captured, by id -/
  sets : List (List PlaneId × Nat)
  xl : List XFrame
  st : RouteState
  cleared : Bool
  row : Nat
  choice : Nat
  /-- spares of the row that NEXT has used -/
  used : List Nat
  status : List Nat
  outst : List Outst
  done : Nat
  drops : Nat
  timedOut : Bool
  /-- the last choice delivered has its slot with an evicted expert, and holds the route at its row (23 R360) -/
  holding : Bool
  deriving DecidableEq, Repr

/-- A delivery whose slot is allocated in the inbox of an evicted strand, to be written when its plane is restored: cohort, plane, slot,
header and row (23 R353, R360). -/
structure AwayRow where
  coh : Nat
  plane : PlaneId
  slot : Nat
  hdr : SlotHdr
  row : List Byte
  deriving DecidableEq, Repr

/-- A section record of a stream program image (19 Table 19-3). -/
structure SecRec where
  logn : Nat
  kind : Nat
  grow : Nat
  check : Bool
  chka : Nat
  chkb : Nat
  deriving DecidableEq, Repr

/-- A node record with its coefficient bytes and the poisoned granules of its coefficients (19 Table 19-4, R275, 27 R399). -/
structure NodeRec where
  stn : Nat
  span : Nat
  sec : Nat
  mode : Nat
  op : Nat
  logs : Nat
  repl : Nat
  cshift : Nat
  clog : Nat
  cbase : Nat
  clen : Nat
  coef : List Byte
  bad : List Nat
  deriving DecidableEq, Repr

/-- A channel record: FROM and TO as encoded (19 Table 19-5). -/
structure ChanRec where
  src : Nat
  dst : Nat
  toin : Nat
  perm : Nat
  rot : Nat
  deriving DecidableEq, Repr

/-- A port-slot record (19 Table 19-6). -/
structure SlotRec where
  out : Bool
  tag : Tag
  sec : Nat
  deriving DecidableEq, Repr

/-- A stream program image (19 R273). -/
structure StreamImage where
  secs : List SecRec
  nodes : List NodeRec
  chans : List ChanRec
  slots : List SlotRec
  deriving DecidableEq, Repr

/-- A port descriptor (19 Table 19-8). -/
structure PortDesc where
  base : Nat
  tstride : Int
  pstride : Nat
  fe : Bool
  clr : Bool
  halves : Bool
  h0off : Bool
  h1off : Bool
  ebase : Nat
  etstride : Int
  base2 : Nat
  ebase2 : Nat
  deriving DecidableEq, Repr

/-- What the addressed image keeps for a section: growth mode, check record (19 R297), flags and status of the last run
(19 Table 19-11). -/
structure SecState where
  grow : Nat
  valid : Bool
  count : Nat
  first : Nat
  bound : Nat
  fl : BitVec 8
  last : Nat
  deriving DecidableEq, Repr

/-- A frame inside the fabric: invalid, a zero frame, mantissas under a frame exponent (real sections keep a zero imaginary part), or
residues (19 R272, R283). -/
inductive FabFrame where
  | bad
  | zero
  | blk (f : Nat) (m : List (Int × Int))
  | res (r : List Nat)
  deriving DecidableEq, Repr

/-- A section run armed and not completed (19 R291, R301): what it took at arming, the translations it holds, and its progress. -/
structure SecRun where
  sec : Nat
  /-- serial number of the image it was armed on -/
  gen : Nat
  kind : Nat
  first : Nat
  count : Nat
  descs : List (Option PortDesc)
  grow : Nat
  q : Nat
  roots : List Nat
  xl : List XFrame
  /-- tiles read by each input slot, tiles written by each output slot -/
  done : List Nat
  /-- granules that FE input ports have read of the tile they are at: slot, index, data -/
  got : List (Nat × Nat × List Byte)
  /-- the frame on each channel -/
  chans : List (Option FabFrame)
  /-- L1, Linf, and whether an element was reported, of each frame read on a slot and tile (19 R296) -/
  norms : List (Nat × Nat × Nat × Nat × Bool)
  fl : BitVec 8
  /-- how many of its tiles the run still is to take through -/
  limit : Nat
  status : Nat
  deriving DecidableEq, Repr

/-- The stream fabric of a plane (19 R271, R299): the serial number of the image of the most recent SLOAD, that image with its
section states and port descriptors, and the image that is bound to stations. -/
structure Fabric where
  gen : Nat
  image : Option StreamImage
  secs : List SecState
  descs : List (Option PortDesc)
  bound : Option (Nat × StreamImage)
  deriving DecidableEq, Repr

/-- A matrix binding (21 R311 to R315): its group, position, slots (weights column by column, a Q4 weight as 16 × scale byte + code),
buffers of FP32 patterns by row, and count of group operations. -/
structure Binding where
  tag : Tag
  solo : Bool
  entry : Nat
  rm1 : Nat
  cm1 : Nat
  i : Nat
  j : Nat
  slots : List (List (List Nat))
  acc0 : List (List Nat)
  acc1 : List (List Nat)
  ord : Nat
  /-- poisoned granules of the buffers: buffer 1 or 0, row, granule of the row (27 R399) -/
  bad : List (Bool × Nat × Nat)
  deriving DecidableEq, Repr

/-- A matrix operation (21 R319, R322 to R327). -/
inductive MatJob where
  | mwload (base : Nat) (npitch : Int) (sbase : Nat) (spitch : Int) (first npanel ncols klen : Nat)
  | mma (a1 : Bool) (kcount first mrows : Nat) (tile : Option Nat)
  | maccz (a1 : Bool)
  | maccst (a1 : Bool) (dst rows : Nat) (tag : Tag) (pitch : Nat) (rm : RMode) (sat : Bool)
  | maccld (a1 : Bool) (src rows : Nat) (tag : Tag) (pitch : Nat)
  | maload (col : Bool) (src : Nat) (pitch : Int) (ssrc : Nat) (spitch : Int) (dst npanel klen granted : Nat)
  deriving DecidableEq, Repr

/-- A matrix operation issued and not completed: the plane's translations, the ordinal of a group operation, and the status and flags
once its work is done. -/
structure MatOp where
  job : MatJob
  xl : List XFrame
  ord : Nat
  st : Option Nat
  fl : BitVec 8
  deriving DecidableEq, Repr

/-- A node of an adder graph; sources as encoded (21 Table 21-12). -/
structure GNode where
  srca : Nat
  srcb : Nat
  sha : Nat
  shb : Nat
  nega : Bool
  negb : Bool
  deriving DecidableEq, Repr

/-- An adder graph: bytes of an input element, inputs, nodes, and outputs with NEG (21 R329). -/
structure Graph where
  isize : Nat
  nin : Nat
  nodes : List GNode
  outs : List (Nat × Bool)
  deriving DecidableEq, Repr

/-- A graph run: its graph, extents, vectors done, and whether it met an error (21 R332). -/
structure GraphRun where
  graph : Graph
  src : Nat
  dst : Nat
  count : Nat
  xl : List XFrame
  done : Nat
  bad : Bool
  deriving DecidableEq, Repr

/-- A CSTART: its communicator and ordinal, its descriptor (25 Table 25-4) with the bytes of DST, the tiles landed, the frames held. -/
structure CollStart where
  comm : Nat
  ord : Nat
  pat : Nat
  root : Nat
  src : Nat
  dst : Nat
  count : Nat
  tile : Nat
  acnt : Nat
  cnt : Nat
  srcBytes : Nat
  dstBytes : Nat
  landed : List Nat
  xl : List XFrame
  deriving DecidableEq, Repr

/-- What an asynchronous operation is to do (07 R99). -/
inductive OpKind where
  /-- a LAUNCH that completes when the cohort of a submission order retires (11 R166) -/
  | launch (order : Nat)
  /-- a UPD or UPDA: the region a UPD names, the pairs emitted and not accepted, and whether the instruction has completed
  (23 R340) -/
  | upd (reg : Option Nat) (pairs : List Pair) (done : Bool)
  /-- a UFLUSH of a region: whether the vector unit has performed it, and the plane's own update operations it waits for, each a
  counter and a number (23 R344) -/
  | uflush (reg : Nat) (started : Bool) (own : List (TReg × Nat))
  /-- a copy-engine operation with the translations it holds (15 R236, R237) -/
  | copy (job : CopyJob) (xl : List XFrame)
  /-- a ROUTE, whose state is its riddling-table entry (23 R356) -/
  | route
  /-- an RRET: the slot's header, the result row's address, and the frames held; err for RRET.ERR (23 R355) -/
  | rret (h : SlotHdr) (row : Nat) (err : Bool) (xl : List XFrame)
  /-- an SLOAD: the serial number of its image, and the image (19 R299) -/
  | sload (gen : Nat) (img : StreamImage)
  /-- a TWLOAD: the image, the node, the bytes (19 R302) -/
  | twload (gen node : Nat) (bs : List Byte)
  /-- a section run (19 R291) -/
  | run (r : SecRun)
  /-- a matrix operation (21 R319) -/
  | mat (m : MatOp)
  /-- a GLOAD: the graph and the stations reserved for it (21 R331) -/
  | gload (g : Graph) (stns : List Nat)
  /-- a graph run (21 R332) -/
  | grun (r : GraphRun)
  /-- a CSTART (25 R370) -/
  | cstart (c : CollStart)
  /-- a CSEND of stream k from an address (25 R374) -/
  | csend (k va : Nat) (xl : List XFrame)
  /-- a CFETCH of stream k to an address (25 R374) -/
  | cfetch (k va : Nat) (xl : List XFrame)
  deriving DecidableEq, Repr

/-- An asynchronous operation issued and not completed: its plane, counter and sequence number (07 R99). -/
structure AOp where
  plane : PlaneId
  n : TReg
  seq : Nat
  kind : OpKind
  deriving DecidableEq, Repr

/-- A local member of a communicator: its plane and cohort, how many CSTARTs and CBINDs it has issued, the status of its last operation,
and whether it is a member now (25 R365, R370, R372, R376). -/
structure CommMember where
  plane : PlaneId
  coh : Nat
  issued : Nat
  bound : Nat
  last : Nat
  inn : Bool
  deriving DecidableEq, Repr

/-- The operations of one ordinal (25 R370): the status that ends them all, where one does; pattern, root and count by rank of those that
have been issued; the bytes of SRC that have been read, by rank; chunks sent; and the planes whose operation has completed. -/
structure CollJob where
  ord : Nat
  status : Option Nat
  recs : List (Nat × List Nat)
  got : List (Nat × List Byte)
  chunks : Nat
  done : List PlaneId
  deriving DecidableEq, Repr

/-- A stream of a communicator (25 R372): its status, pattern, root, piece and npiece by rank of those that have bound it, and the pieces
received, by rank. -/
structure CommStream where
  ord : Nat
  status : Option Nat
  recs : List (Nat × List Nat)
  got : List (Nat × List (List Nat))
  deriving DecidableEq, Repr

/-- The part of a communicator on this package (25 R362 to R366). -/
structure CommPart where
  num : Nat
  entry : Nat
  /-- the descriptor but for SLOT -/
  raw : List Byte
  vc : Nat
  prio : Nat
  weight : Nat
  chunk : Nat
  nanskip : Bool
  cntblk : Bool
  op : Nat
  tag : Tag
  key : Nat
  pkgs : List Nat
  mode : Bool
  die : Nat
  planes : List PlaneId
  members : List CommMember
  joined : List Nat
  jobs : List CollJob
  streams : List CommStream
  deriving DecidableEq, Repr

/-- What a communicator queue holds: the chunks left of the operations of an ordinal, or the chunk of stream k of a plane that ends at
the latest at an offset of the stream's data (25 R367). -/
inductive QItem where
  | op (comm ord : Nat)
  | stream (comm : Nat) (p : PlaneId) (k hi : Nat)
  deriving DecidableEq, Repr

/-- A collective engine: its queues in order of readiness, and the arbiter's previous choice set and credits by virtual channel
(25 R367). -/
structure CollEngine where
  queue : List QItem
  prev : List Nat
  cred : List Int
  deriving DecidableEq, Repr

/-- A plane, with the strand it holds (05 R46 to R49, 09 R105). -/
structure Plane where
  st : PlaneState
  coh : Nat
  rank : Nat
  pc : Word
  level : Level
  x : Vector Word 32
  f : Vector FRegVal 16
  v : Vector VRegVal 64
  m : Vector (BitVec 8192) 8
  t : Vector Timeline 16
  xac : BitVec 4352
  xacSt : XacState
  vl : Nat
  lg : BitVec 2
  tag : Tag
  qnext : BitVec 16
  vq : List VEntry
  fcsr : Word
  fex0 : Word
  fex1 : Word
  grps : Word
  prio : Word
  tvec : Word
  tcause : Word
  tpc : Word
  tval : Word
  tstat : Word
  sel : BitVec 8
  resume : List VEntry
  xroot : Word
  quota : Word
  events : Word
  wait : Option Wait
  held : List Held
  tags : Vector Word 256
  /-- modulus q and root table in force (19 R294); the Montgomery constants are functions of q -/
  modulus : Nat
  roots : List Nat
  fab : Fabric
  /-- the matrix binding, and the status of the last matrix operation, once one has completed (21 R313, R328) -/
  mx : Option Binding
  mxLast : Option Nat
  /-- the adder graph with its stations, and the status of the last graph run (21 R331, R333) -/
  graph : Option (Graph × List Nat)
  grLast : Nat
  /-- the plane is ASLEEP in the GCSLEEP at the head of its queue (15 R234) -/
  gcs : Bool
  /-- what the first evaluation after a write found to differ, while the plane sleeps so: the bits of Md (15 R234) -/
  gcsSeen : Option (BitVec 8192)
  /-- entries in the LDQ, SDQ, BRQ and EQ (05 R47) -/
  dq : List Nat
  /-- the largest number that a WAITTL on each counter has waited for (07 R99) -/
  waited : Vector Nat 16
  window : Option Window
  streams : Vector (Option Stream) 16
  /-- route policy 0 DROP, 1 NEXT, 2 WAIT, and timeout (23 R352) -/
  policy : Nat
  tmo : Nat
  inbox : Option Inbox
  late : Word
  deriving DecidableEq, Repr

/-- What the engine and fabric region of a save area stands for (17 R266): the plane as it was, its operations, and riddling-table
entries of a CTXSV. -/
structure EngCtx where
  pl : Plane
  ops : List AOp
  routes : List RouteEnt
  deriving DecidableEq, Repr

/-- What the package has sent: a response (the request's SEQ, status, data), a COMPLETE event, the answers to RDMA, the reply to a
Troique message, and a report at the management port (27 R382, R386, R388, R390, 01 R17). A message of a session is encrypted under the key
given, with the nonce of its direction and SEQ (27 R384). -/
inductive Sent where
  | resp (session seq : Nat) (key : List Byte) (req status : Nat) (data : List Nat)
  | complete (session seq : Nat) (key : List Byte) (word : Nat)
  | rdmaAck
  | rdmaData (bs : List Byte)
  | rdmaNak
  | reply (bs : List Byte)
  | management (code : Nat)
  deriving DecidableEq, Repr

/-- A session of the host (27 R385, R394): its level, whether its keys are derived, the nonce, the ephemeral encapsulation key of its
report, the keys of the messages from and to the host, the highest SEQ accepted, the SEQ values accepted within 63 of it, the responses
cached by SEQ, and the SEQ of the last message to it. -/
structure Session where
  num : Nat
  sup : Bool
  live : Bool
  nonce : List Byte
  eph : List Byte
  keyIn : List Byte
  keyOut : List Byte
  high : Nat
  seen : List Nat
  cached : List (Nat × Sent)
  out : Nat
  deriving DecidableEq, Repr

/-- A COMPLETE event that no ACK has covered: when it was sent first and last, in clk (27 R388). -/
structure Complete where
  session : Nat
  seq : Nat
  word : Nat
  first : Nat
  last : Nat
  deriving DecidableEq, Repr

/-- A core's sequencer (05 R58, R59): the plane index that holds the slot, the slots left in the frame, the clk at which the
slot began, and the SLOTLEN of the frame (27 Table 27-6). -/
structure CoreSeq where
  running : Option (Fin 4)
  frame : List (Fin 4)
  slotStart : Nat
  len : Nat
  deriving DecidableEq, Repr

/-- The package. -/
structure State where
  inputs : List Input
  cur : PlaneId
  vlag : Bool
  free : Nat
  cycle : Nat
  planes : Vector Plane 512
  cores : Vector CoreSeq 128
  mem : List Host.Cell
  full : List Nat
  zsClear : List Nat
  poison : List Nat
  groups : Vector GroupEntry 256
  cohorts : List Cohort
  nextOrder : Nat
  /-- contexts that save areas refer to, by index (17 R266) -/
  parked : List EngCtx
  /-- numbers of cohorts that have retired, each with the session that launched it (27 R386) -/
  retired : List (Nat × Option Nat)
  /-- cohorts that an eviction decided on has still to evict (05 R60) -/
  doomed : List Nat
  /-- planes that GCSLEEP has put to sleep (15 R234) -/
  watching : List PlaneId
  /-- lines written, by number, that those planes have still to look at (15 R234) -/
  wrote : List Nat
  wms : Vector Watermark 64
  slotLen : Nat
  pkg : Nat
  domain : List Nat
  /-- packages that no message reaches now (27 R392) -/
  failing : List Nat
  leeSize : Nat
  regions : Vector (Option Region) 256
  pend : List PendKey
  ops : List AOp
  tables : Vector (Option RTable) 64
  /-- serial number of the next routing table -/
  nextTable : Nat
  routes : List RouteEnt
  /-- deliveries that wait for an evicted expert (23 R360) -/
  awayRows : List AwayRow
  comms : List CommPart
  engines : Vector CollEngine 2
  wins : List Win
  /-- remote keys that windows have had since the last owner release, and before it (27 R397) -/
  issuedKeys : List Nat
  oldKeys : List Nat
  hostRegions : List HostRegion
  /-- bytes of host memory, by host address (log 12) -/
  hostMem : List Host.Cell
  sessions : List Session
  nextSession : Nat
  /-- digest of the owner key, once registered (27 R395) -/
  owner : Option (List Byte)
  sent : List Sent
  completes : List Complete
  /-- the error code with which the package is held in reset (01 R17, 27 R393) -/
  held : Option Nat
  flashRoot : List Byte
  flashMgmt : List Byte
  fused : Nat
  /-- the images that the boot after the last package reset measured (27 Table 27-4) -/
  measRoot : List Byte
  measMgmt : List Byte
  /-- error log: what, and where or when (01 R17, 27 R400) -/
  errors : List (Nat × Nat)
  /-- telemetry: command messages dropped, and frames dropped at each port (27 R380, R385) -/
  dropped : Nat
  frames : List Nat
  /-- clk in MHz, the power limit in W and the ceiling in MHz (01 R16, 27 Table 27-6) -/
  freq : Nat
  limit : Nat
  ceiling : Nat
  scrubHours : Nat
  strong : Bool
  /-- lanes of each Troique link (27 R390) -/
  lanes : List Nat
  deriving DecidableEq, Repr

/-- A plane after package reset: FREE, every register clear (27 R398), FCSR and the modulus at the values their tables give (03 Table
3-8, 19 R294). -/
def Plane.reset : Plane where
  st := .free
  coh := 0
  rank := 0
  pc := 0
  level := .u
  x := Vector.replicate 32 0
  f := Vector.replicate 16 ⟨0, .f64⟩
  v := Vector.replicate 64 ⟨0, 0, .none⟩
  m := Vector.replicate 8 0
  t := Vector.replicate 16 ⟨0, 0, []⟩
  xac := 0
  xacSt := .fin
  vl := 0
  lg := 0
  tag := .none
  qnext := 0
  vq := []
  fcsr := 0x0000000001000000
  fex0 := 0
  fex1 := 0
  grps := 0
  prio := 0
  tvec := 0
  tcause := 0
  tpc := 0
  tval := 0
  tstat := 0
  sel := 0
  resume := []
  xroot := 0
  quota := 0
  events := 0
  wait := none
  held := []
  tags := Vector.replicate 256 0
  modulus := 0x7FFFFFFF
  roots := []
  fab := ⟨0, none, [], [], none⟩
  mx := none
  mxLast := none
  graph := none
  grLast := 0
  gcs := false
  gcsSeen := none
  dq := [0, 0, 0, 0]
  waited := Vector.replicate 16 0
  window := none
  streams := Vector.replicate 16 none
  policy := 0
  tmo := 0x1000000
  inbox := none
  late := 0

/-- The package after reset: memory zero, every scratchpad granule EMPTY (27 R398), every plane FREE. -/
def State.reset : State where
  inputs := []
  cur := 0
  vlag := false
  free := 0
  cycle := 0
  planes := Vector.replicate 512 Plane.reset
  cores := Vector.replicate 128 ⟨none, [], 0, 512⟩
  mem := []
  full := []
  zsClear := []
  poison := []
  groups := Vector.replicate 256 ⟨none, [], 0, [], false⟩
  cohorts := []
  nextOrder := 0
  parked := []
  retired := []
  doomed := []
  watching := []
  wrote := []
  wms := Vector.replicate 64 ⟨0, 0, []⟩
  slotLen := 512
  pkg := 0
  domain := [0]
  failing := []
  leeSize := 0x40000000
  regions := Vector.replicate 256 none
  pend := []
  ops := []
  tables := Vector.replicate 64 none
  nextTable := 0
  routes := []
  awayRows := []
  comms := []
  engines := Vector.replicate 2 ⟨[], [], List.replicate 8 0⟩
  wins := []
  issuedKeys := []
  oldKeys := []
  hostRegions := []
  hostMem := []
  sessions := []
  nextSession := 1
  owner := none
  sent := []
  completes := []
  held := none
  flashRoot := []
  flashMgmt := []
  fused := 0
  measRoot := []
  measMgmt := []
  errors := []
  dropped := 0
  frames := [0, 0]
  freq := 2100
  limit := 1600
  ceiling := 2100
  scrubHours := 24
  strong := false
  lanes := List.replicate 12 8

end Sys2Proof.Machine
end

