-- ==== Sys2Proof/Machine/Mem.lean ====
section
/-! DEFINITION. Memory: canonical cells, the physical map, page-table walks, frame forms, saved partitions, pending Press pairs, and
the accesses every agent makes (07 R70 to R104, 23 R341 to R343). -/
namespace Sys2Proof.Machine

/-! ### Cells -/

/-- The byte at an address: what an unlisted address reads as is zero (27 R398, log 1). -/
def Memory.get (cs : List Host.Cell) (a : Nat) : Byte :=
  match cs with
  | [] => 0
  | (b, v) :: rest => if b == a then v else if a < b then 0 else Memory.get rest a

/-- The cells with the byte at `a` set to `v`; zero unlists the address. -/
def Memory.set (cs : List Host.Cell) (a : Nat) (v : Byte) : List Host.Cell :=
  match cs with
  | [] => if v == 0 then [] else [(a, v)]
  | (b, w) :: rest =>
    if a < b then (if v == 0 then (b, w) :: rest else (a, v) :: (b, w) :: rest)
    else if a == b then (if v == 0 then rest else (a, v) :: rest)
    else (b, w) :: Memory.set rest a v

/-- The canonical form: addresses strictly rising and no zero byte listed, every address at or above `lo`. -/
def Memory.wfFrom (lo : Nat) : List Host.Cell → Bool
  | [] => true
  | (a, v) :: rest => decide (lo ≤ a) && v != 0 && Memory.wfFrom (a + 1) rest

/-- The canonical form of memory (log 1). -/
def Memory.wf (cs : List Host.Cell) : Bool := Memory.wfFrom 0 cs

/-- Insertion into a strictly rising list of numbers. -/
def SortedNat.insert (xs : List Nat) (a : Nat) : List Nat :=
  match xs with
  | [] => [a]
  | b :: rest => if a < b then a :: b :: rest else if a == b then b :: rest else b :: SortedNat.insert rest a
/-- Removal from a list of numbers. -/
def SortedNat.erase (xs : List Nat) (a : Nat) : List Nat := xs.filter (· != a)

/-- The little-endian value of bytes (00 R3). -/
def leNat : List Byte → Nat
  | [] => 0
  | b :: rest => b.toNat + 256 * leNat rest
/-- The n low bytes of a number, little-endian (00 R3). -/
def leBytes : Nat → Nat → List Byte
  | 0, _ => []
  | n + 1, v => BitVec.ofNat 8 (v % 256) :: leBytes n (v / 256)

/-! ### Planes, partitions and the physical map -/

/-- Plane p. -/
def State.plane (s : State) (p : PlaneId) : Plane := s.planes.get p
/-- The state with plane p replaced. -/
def State.setPlane (s : State) (p : PlaneId) (v : Plane) : State := { s with planes := s.planes.set p v }
/-- The state with plane p changed by f. -/
def State.modPlane (s : State) (p : PlaneId) (f : Plane → Plane) : State := s.setPlane p (f (s.plane p))

/-- The core of a plane (01 R7). -/
def coreOf (p : PlaneId) : CoreId := ⟨p.val / 4, by omega⟩
/-- The plane of a core at an index (01 Table 1-1). -/
def planeOf (c : CoreId) (i : Fin 4) : PlaneId := ⟨4 * c.val + i.val, by omega⟩

/-- SIZE of QUOTA, in 64 KiB units (07 Table 7-6). -/
def Plane.qsize (pl : Plane) : Nat := (pl.quota.extractLsb' 0 6).toNat
/-- BASE of QUOTA, in 64 KiB units (07 Table 7-6). -/
def Plane.qbase (pl : Plane) : Nat := (pl.quota.extractLsb' 32 6).toNat

/-- Local physical address of the scratchpads (07 Table 7-1). -/
def spadBase : Nat := 0x010000000000
/-- Local physical address of core c's scratchpad (07 Table 7-1). -/
def coreSpad (c : Nat) : Nat := spadBase + c * 0x200000
/-- Bytes of a package in physical addresses (07 R71). -/
def pkgSpan : Nat := 2 ^ 42

/-- Areas of the local physical address map (07 Table 7-1). -/
inductive Area where
  | hbm | spad | formHbm | formTier | tier | nothing
  deriving DecidableEq, Repr

/-- The area of a local physical address (07 Table 7-1). -/
def areaOf (a : Nat) : Area :=
  if a < 0x008000000000 then .hbm
  else if 0x010000000000 ≤ a && a < 0x010010000000 then .spad
  else if 0x014000000000 ≤ a && a < 0x014000200000 then .formHbm
  else if 0x014000200000 ≤ a && a < 0x014000A00000 then .formTier
  else if 0x020000000000 ≤ a && a < 0x040000000000 then .tier
  else .nothing

/-- First local address of the lees of the package: 8 × LEESIZE below the end of HBM (23 R341). -/
def State.leesBase (s : State) : Nat := 0x008000000000 - 8 * s.leeSize

/-- The byte stored at a physical address. -/
def State.byte (s : State) (pa : Nat) : Byte := Memory.get s.mem pa

/-- The 8 bytes stored at a physical address. -/
def State.dword (s : State) (pa : Nat) : Nat := leNat ((List.range 8).map fun i => s.byte (pa + i))

/-- The form of the 64 KiB frame of a physical address: RAW 0, RANS 1, TILED 2; a form-map pattern of 11 reads as RAW, and all
but HBM and the second tier is RAW (07 R78). -/
def State.formOf (s : State) (pa : Nat) : Nat :=
  let pk := pa / pkgSpan * pkgSpan
  let a := pa % pkgSpan
  let f (map frame : Nat) : Nat :=
    let v := (s.byte (pk + map + frame / 4)).toNat / 4 ^ (frame % 4) % 4
    if v == 3 then 0 else v
  match areaOf a with
  | .hbm => f 0x014000000000 (a / 65536)
  | .tier => f 0x014000200000 ((a - 0x020000000000) / 65536)
  | _ => 0

/-- The stack of an HBM physical address (07 R72). -/
def stackOf (a : Nat) : Nat := Nat.xor (Nat.xor (a / 4096 % 8) (a / 32768 % 8)) (a / 262144 % 8)

/-! ### Translation -/

/-- The agent that accesses memory: the plane whose window and quota it uses, its level, its root table (09 R133), and the stream of the
plane whose held translation it may use; none where it walks afresh (07 R77). -/
structure Agent where
  plane : PlaneId
  level : Level
  root : Nat
  stream : Option AddrStream := none
  deriving DecidableEq, Repr

/-- Access kinds (07 R76). -/
inductive Acc where
  | read | write | rmw | fetch
  deriving DecidableEq, Repr

/-- How an access that is not performed ends: a translation fault with its address, an uncorrectable error with its address, a failed
remote write, which aborts the cohort (17 R249, 27 R392), or a wait behind an older vector instruction of the strand (17 R253). -/
inductive MemErr where
  | xlate (k : XlateKind) (va : Word)
  | memerr (va : Word)
  | remoteWrite
  | behind
  deriving DecidableEq, Repr

/-- Why a walk ends without a frame: a kind of 07 Table 7-5, or a table entry that is poisoned or that no message reaches (27 R392,
R400). -/
inductive WalkErr where
  | kind (k : XlateKind)
  | unreadable
  deriving DecidableEq, Repr

/-- What an access at va raises where its walk ends so (07 R76, 17 R261). -/
def WalkErr.raise (e : WalkErr) (va : Word) : MemErr :=
  match e with
  | .kind k => .xlate k va
  | .unreadable => .memerr va

/-- ROOT of XROOT as a physical address (07 Table 7-2). -/
def rootOf (xroot : Word) : Nat := (xroot.toNat / 4096 % 2 ^ 36) * 4096

/-- What a walk ends in: the physical frame base of 64 KiB and the leaf's form and permissions. -/
structure Leaf where
  frame : Nat
  span : Nat
  form : Nat
  r : Bool
  w : Bool
  x : Bool
  u : Bool
  deriving DecidableEq, Repr

/-- Whether a physical address maps something: a local area, the lees apart, or another package of the domain (07 R71, 23 R341).
A scratchpad byte needs a partition besides (07 R72, `State.partition`). -/
def State.mapped (s : State) (pa : Nat) : Bool :=
  if pa / pkgSpan == s.pkg then
    match areaOf (pa % pkgSpan) with
    | .nothing => false
    | .hbm => decide (pa % pkgSpan < s.leesBase)
    | _ => true
  else s.domain.contains (pa / pkgSpan) && areaOf (pa % pkgSpan) != .nothing

/-- Index of a table at a level (07 Table 7-3). -/
def walkIndex (level va : Nat) : Nat :=
  match level with
  | 4 => va / 2 ^ 48 % 512
  | 3 => va / 2 ^ 39 % 512
  | 2 => va / 2 ^ 30 % 512
  | 1 => va / 2 ^ 21 % 512
  | _ => va / 2 ^ 16 % 32

/-- Bytes that a leaf at a level maps (07 R74). -/
def leafSpan (level : Nat) : Nat :=
  match level with
  | 2 => 2 ^ 30
  | 1 => 2 ^ 21
  | _ => 2 ^ 16

/-! ### Poison, and packages that no message reaches -/

/-- The first address of the unit that poison covers: a granule of scratchpad, a 64-byte line elsewhere (27 R400). -/
def poisonUnit (pa : Nat) : Nat := if areaOf (pa % pkgSpan) == .spad then pa / 16 * 16 else pa / 64 * 64
/-- Bytes of that unit. -/
def poisonSpan (pa : Nat) : Nat := if areaOf (pa % pkgSpan) == .spad then 16 else 64
/-- Whether a read of the byte at a physical address cannot deliver it: poison, or a message that fails (27 R392, R400). -/
def State.unreadable (s : State) (pa : Nat) : Bool :=
  s.poison.contains (poisonUnit pa) || (pa / pkgSpan != s.pkg && s.failing.contains (pa / pkgSpan))

/-! ### Partitions -/

/-- The resident plane of a core whose partition covers a 64 KiB unit of its scratchpad (07 R72, R403). -/
def State.residentAt (s : State) (c : CoreId) (unit : Nat) : Option PlaneId :=
  ([0, 1, 2, 3] : List (Fin 4)).findSome? fun i =>
    let p := planeOf c i
    let pl := s.plane p
    if pl.st != .free && decide (pl.qbase ≤ unit ∧ unit < pl.qbase + pl.qsize) then some p else none

/-- The saved partition that covers a 64 KiB unit of a core's scratchpad: its cohort, rank and unit within the partition (07 R83).
DESIGN CHOICE (log 56): where two evicted partitions cover it, the cohort submitted first. -/
def State.evictedAt (s : State) (c : CoreId) (unit : Nat) : Option (Cohort × Nat × Nat) :=
  s.cohorts.findSome? fun k =>
    if k.st == .evicted then
      (List.range k.planes.length).findSome? fun r =>
        match k.planes[r]?, k.bases[r]? with
        | some p, some b =>
          if coreOf p == c && decide (b ≤ unit ∧ unit < b + k.rcd.quota) then some (k, r, unit - b) else none
        | _, _ => none
    else none

/-- Whether a physical address is in a scratchpad of this package. -/
def State.inSpad (s : State) (pa : Nat) : Bool := pa / pkgSpan == s.pkg && areaOf (pa % pkgSpan) == .spad
/-- The core of a scratchpad address of this package. -/
def spadCore (pa : Nat) : CoreId := ⟨(pa % pkgSpan - spadBase) / 0x200000 % 128, Nat.mod_lt _ (by decide)⟩
/-- The 64 KiB unit of a scratchpad address within its core's scratchpad. -/
def spadUnit (pa : Nat) : Nat := (pa % pkgSpan - spadBase) % 0x200000 / 65536

/-! ### Walks -/

/-- The walk from the table at a level, `n` levels at most, of the 57-bit address va; `at_` says where the bytes of a table's frame are
(07 R72, R74 to R76). DESIGN CHOICE (log 71): an entry with V = 0 is NOTPRESENT whatever its reserved bits hold. -/
def State.walkBy (s : State) (at_ : Nat → Except WalkErr Nat) (va : Nat) : (n level table : Nat) → Except WalkErr Leaf
  | 0, _, _ => .error (.kind .notpresent)
  | n + 1, level, table =>
    let pa := table + 8 * walkIndex level va
    match at_ pa with
    | .error e => .error e
    | .ok q =>
      if s.formOf pa != 0 then .error (.kind .reserved)
      else if s.unreadable q then .error .unreadable
      else
        let e := s.dword q
        let bit (i : Nat) : Bool := e / 2 ^ i % 2 == 1
        let form := e / 64 % 4
        let addr := e / 256 % 2 ^ 40 * 256
        if !bit 0 then .error (.kind .notpresent)
        else if e / 2 ^ 48 != 0 || (bit 3 && !bit 2) || form == 3 then .error (.kind .reserved)
        else if bit 1 then
          if level ≥ 3 || addr % leafSpan level != 0 then .error (.kind .reserved)
          else .ok ⟨addr + va % leafSpan level / 65536 * 65536, leafSpan level, form, bit 2, bit 3, bit 4, bit 5⟩
        else if level == 0 || form != 0 || addr % (if level == 1 then 256 else 4096) != 0 then .error (.kind .reserved)
        else s.walkBy at_ va n (level - 1) addr

/-- Where the byte of a table is while its scratchpad partition, if it is in one, is resident: NOTARGET elsewhere (07 R71, R72). -/
def State.tableInPlace (s : State) (pa : Nat) : Except WalkErr Nat :=
  if !s.mapped pa || (s.inSpad pa && (s.residentAt (spadCore pa) (spadUnit pa)).isNone) then .error (.kind .notarget) else .ok pa

/-- The physical frame of a virtual frame of a root at S level, without regard to permissions: how the machine finds a save area
(17 R268). -/
def State.saveFrame (s : State) (root va : Nat) : Except WalkErr Nat :=
  if va / 2 ^ 57 != 0 then .error (.kind .noncanon)
  else match s.walkBy s.tableInPlace va 5 4 root with
  | .ok l => match s.tableInPlace l.frame with
    | .ok b => .ok b
    | .error e => .error e
  | .error k => .error k

/-- Bytes of one strand's save area (17 R264). -/
def areaSpan : Nat := 0x400000

/-- The saved image of a partition's unit: the physical frame of its bytes and that of its full/empty and zero-summary bits (17 R264). -/
def State.savedUnit (s : State) (k : Cohort) (r u : Nat) : Except WalkErr (Nat × Nat) :=
  let root := rootOf k.rcd.xroot
  let area := k.rcd.savearea.toNat + r * areaSpan
  match s.saveFrame root (area + 0x100000 + u * 65536), s.saveFrame root (area + 0x300000) with
  | .ok b, .ok f => .ok (b, f)
  | _, _ => .error (.kind .notarget)

/-- Where the byte of a table is: in place, or in the save area of an evicted partition (07 R71, R72, R83). -/
def State.tableAt (s : State) (pa : Nat) : Except WalkErr Nat :=
  match s.tableInPlace pa with
  | .ok q => .ok q
  | .error e =>
    if !s.inSpad pa then .error e
    else match s.evictedAt (spadCore pa) (spadUnit pa) with
      | none => .error e
      | some (k, r, u) => match s.savedUnit k r u with
        | .ok x => .ok (x.1 + pa % 65536)
        | .error e => .error e

/-- The walk from the table at a level, `n` levels at most, of the 57-bit address va (07 R74 to R76). -/
def State.walk (s : State) (va n level table : Nat) : Except WalkErr Leaf := s.walkBy s.tableAt va n level table

/-- Where the bytes of a frame are: plain memory, a scratchpad in place, or the saved image of an evicted partition with the physical
addresses of its full/empty and zero-summary bits (07 R83). -/
inductive FrameKind where
  | plain
  | spad
  | saved (fe zs : Nat)
  deriving DecidableEq, Repr

/-- A translated 64 KiB frame: where its bytes are. -/
structure Frame where
  base : Nat
  tiled : Bool
  kind : FrameKind
  /-- the core whose scratchpad it is, where it is one -/
  core : Nat := 0
  /-- the physical frame that the translation names, wherever its bytes are now (07 R83, R403) -/
  phys : Nat := 0
  deriving DecidableEq, Repr

/-- The frame that a physical frame base names: NOTARGET where it maps nothing or no partition holds it (07 R71, R72, R83, R403). -/
def State.frameAt (s : State) (base : Nat) (tiled : Bool) : Except WalkErr Frame :=
  if !s.mapped base then .error (.kind .notarget)
  else if s.inSpad base then
    let c := spadCore base
    match s.residentAt c (spadUnit base) with
    | some _ => .ok ⟨base, false, .spad, c.val, base⟩
    | none =>
      match s.evictedAt c (spadUnit base) with
      | none => .error (.kind .notarget)
      | some (k, r, u) => match s.savedUnit k r u with
        | .ok x => .ok ⟨x.1, false, .saved (x.2 + u * 512) (x.2 + 0x4000 + u * 32), c.val, base⟩
        | .error e => .error e
  else .ok ⟨base, tiled, if areaOf (base % pkgSpan) == .spad then .spad else .plain, base / 0x200000, base⟩

/-- Whether a leaf permits an access (07 R76). -/
def Leaf.permits (l : Leaf) (lv : Level) (acc : Acc) : Bool :=
  (lv == .s || l.u) &&
  match acc with
  | .read => l.r
  | .write => l.w
  | .rmw => l.r && l.w
  | .fetch => l.x

/-- The frame that a leaf names, in the order of faults of 07 R76 after the walk's own. `fe` asks for scratchpad (kind FEAREA); the frame
that the walk of a held translation reached, `isHeld`, is not checked against the form map again (07 R77 to R79). -/
def State.leafFrame (s : State) (lv : Level) (l : Leaf) (acc : Acc) (fe isHeld : Bool) : Except WalkErr Frame :=
  match s.frameAt l.frame (l.form == 2) with
  | .error k => .error k
  | .ok f =>
    if !isHeld && s.formOf l.frame != l.form then .error (.kind .form)
    else if fe && f.kind == .plain then .error (.kind .fearea)
    else if !l.permits lv acc then .error (.kind .perm)
    else .ok f

/-- The frame of an address of the translated space under a root, walked afresh (07 R76). -/
def State.frameUnder (s : State) (root : Nat) (lv : Level) (va : Nat) (acc : Acc) (fe : Bool) : Except WalkErr Frame :=
  if va / 2 ^ 57 != 0 then .error (.kind .noncanon)
  else match s.walk va 5 4 root with
    | .error k => .error k
    | .ok l => s.leafFrame lv l acc fe false

/-- Whether a held translation is of the page of an address. -/
def Held.covers (h : Held) (va : Nat) : Bool := va / h.span == h.vframe * 65536 / h.span
/-- The leaf that a held translation gives for an address of its page. -/
def Held.leaf (h : Held) (va : Nat) : Leaf :=
  ⟨h.pframe - h.vframe * 65536 % h.span + va % h.span / 65536 * 65536, h.span, if h.tiled then 2 else 0, h.r, h.w, h.x, h.u⟩

/-- The translation that the stream of an agent holds for an address (07 R77). -/
def State.heldFor (s : State) (ag : Agent) (va : Nat) : Option Held :=
  match ag.stream with
  | none => none
  | some k => (s.plane ag.plane).held.find? fun h => h.stream == k && h.root == ag.root && h.covers va

/-- The stream of an agent after its access to n bytes at an address of the translated space: it gives up the translation of a page that it
has left (07 R77). -/
def State.leavePage (s : State) (ag : Agent) (va n : Nat) : State :=
  match ag.stream with
  | none => s
  | some k =>
    if (s.plane ag.plane).held.isEmpty || n == 0 || va / 2 ^ 63 == 1 then s
    else s.modPlane ag.plane fun p => { p with
      held := p.held.filter fun h => h.stream != k || (h.covers va && h.covers (va + (n - 1))) }

/-- The frame of a virtual address for an agent: of the local window, or of the translated space (07 R70, R76). -/
def State.frameOf (s : State) (ag : Agent) (va : Nat) (acc : Acc) (fe : Bool) : Except WalkErr Frame :=
  let pl := s.plane ag.plane
  if va / 2 ^ 63 == 1 then
    let off := va % 2 ^ 63
    if off ≥ 2 ^ 21 then .error (.kind .noncanon)
    else if off ≥ pl.qsize * 65536 then .error (.kind .quota)
    else
      let base := s.pkg * pkgSpan + coreSpad (ag.plane.val / 4) + pl.qbase * 65536 + off / 65536 * 65536
      .ok ⟨base, false, .spad, ag.plane.val / 4, base⟩
  else match s.heldFor ag va with
    | some h => if va / 2 ^ 57 != 0 then .error (.kind .noncanon) else s.leafFrame ag.level (h.leaf va) acc fe (h.vframe == va / 65536)
    | none => s.frameUnder ag.root ag.level va acc fe

/-- Bytes of the page of an address of the translated space under a root; 0 in the local window. -/
def State.spanOf (s : State) (root va : Nat) : Nat :=
  if va / 2 ^ 57 != 0 then 0
  else match s.walk va 5 4 root with
    | .ok l => l.span
    | .error _ => 0

/-- The physical offset of a logical offset within a 64 KiB frame of a TILED page (07 R80). -/
def tiledOffset (o : Nat) : Nat :=
  let q := o % 4096 / 16
  o / 4096 * 4096 + 16 * (q % 4 * 64 + q / 4) + o % 16

/-- A byte's place: its physical address and the kind of its frame, with its offset in the frame. -/
structure Place where
  pa : Nat
  off : Nat
  kind : FrameKind
  core : Nat := 0
  deriving DecidableEq, Repr

/-- The place of byte `va` in a frame. -/
def Frame.place (f : Frame) (va : Nat) : Place :=
  ⟨f.base + (if f.tiled then tiledOffset (va % 65536) else va % 65536), va % 65536, f.kind, f.core⟩

/-- The places of n bytes from va, addresses modulo 2^64, one translation a frame; the fault of the lowest faulting address. -/
def State.places (s : State) (ag : Agent) (acc : Acc) (fe : Bool) :
    (n va : Nat) → Option (Nat × Frame) → Except MemErr (List Place)
  | 0, _, _ => .ok []
  | n + 1, va, last =>
    let fr : Except WalkErr Frame :=
      match last with
      | some (vf, f) => if vf == va / 65536 then .ok f else s.frameOf ag va acc fe
      | none => s.frameOf ag va acc fe
    match fr with
    | .error k => .error (k.raise (BitVec.ofNat 64 va))
    | .ok f =>
      match s.places ag acc fe n ((va + 1) % 2 ^ 64) (some (va / 65536, f)) with
      | .error e => .error e
      | .ok ps => .ok (f.place va :: ps)

/-! ### Full/empty and zero-summary bits, poison -/

/-- Whether the granule of a place is FULL (07 R86); false outside scratchpad. -/
def State.feGet (s : State) (pl : Place) : Bool :=
  match pl.kind with
  | .plain => false
  | .spad => s.full.contains (pl.pa / 16)
  | .saved fe _ => (s.byte (fe + pl.off / 128)).toNat / 2 ^ (pl.off / 16 % 8) % 2 == 1

/-- A bit of a byte set or cleared. -/
def bitSet (b : Byte) (i : Nat) (v : Bool) : Byte :=
  if (b.toNat / 2 ^ i % 2 == 1) == v then b else b ^^^ BitVec.ofNat 8 (2 ^ i)

/-- The numbers of the lines that n bytes from a physical address on lie in. -/
def linesOf (pa n : Nat) : List Nat := if n == 0 then [] else (List.range ((pa + (n - 1)) / 64 + 1 - pa / 64)).map (pa / 64 + ·)

/-- The lines of n bytes from a physical address on, noted as written where a strand sleeps in GCSLEEP (15 R234). -/
def State.noteWrite (s : State) (pa n : Nat) : State :=
  { s with wrote := if s.watching.isEmpty then s.wrote else (linesOf pa n).foldl SortedNat.insert s.wrote }

/-- A byte of memory written at its physical address. -/
def State.setByte (s : State) (pa : Nat) (b : Byte) : State := { s.noteWrite pa 1 with mem := Memory.set s.mem pa b }

/-- The granule of a place set FULL or EMPTY (07 R86). -/
def State.feSet (s : State) (pl : Place) (v : Bool) : State :=
  match pl.kind with
  | .plain => s
  | .spad => { s with full := if v then SortedNat.insert s.full (pl.pa / 16) else SortedNat.erase s.full (pl.pa / 16) }
  | .saved fe _ =>
    let a := fe + pl.off / 128
    s.setByte a (bitSet (s.byte a) (pl.off / 16 % 8) v)

/-- The zero-summary bit of the 256-byte block of a place (07 R88); false outside scratchpad. -/
def State.zsGet (s : State) (pl : Place) : Bool :=
  match pl.kind with
  | .plain => false
  | .spad => !s.zsClear.contains (pl.pa / 256)
  | .saved _ zs => (s.byte (zs + pl.off / 2048)).toNat / 2 ^ (pl.off / 256 % 8) % 2 == 1

/-- The zero-summary bit of a place set or cleared (07 R88). -/
def State.zsSet (s : State) (pl : Place) (v : Bool) : State :=
  match pl.kind with
  | .plain => s
  | .spad => { s with zsClear := if v then SortedNat.erase s.zsClear (pl.pa / 256) else SortedNat.insert s.zsClear (pl.pa / 256) }
  | .saved _ zs =>
    let a := zs + pl.off / 2048
    s.setByte a (bitSet (s.byte a) (pl.off / 256 % 8) v)

/-- A byte written: a non-zero byte clears its block's zero-summary bit in the same step (07 R88). -/
def State.putByte (s : State) (pl : Place) (b : Byte) : State :=
  let s := s.setByte pl.pa b
  if b != 0 && pl.kind != .plain then s.zsSet pl false else s

/-! ### Pending pairs of the Press -/

/-- The width in bytes of an element tag; 0 for NONE and Q4 (09 Table 9-3). -/
def tagBytes : Tag → Nat
  | .none => 0 | .q4 => 0
  | .s8 => 1 | .z8 => 1 | .e4m3 => 1 | .e5m2 => 1
  | .s16 => 2 | .z16 => 2 | .bf16 => 2 | .fp16 => 2 | .b16 => 2
  | .s32 => 4 | .z32 => 4 | .fp32 => 4 | .m32 => 4
  | .s64 => 8 | .z64 => 8 | .fp64 => 8

/-- Whether an integer tag is signed. -/
def tagSigned : Tag → Bool
  | .s8 => true | .s16 => true | .s32 => true | .s64 => true
  | _ => false

/-- The floating-point format of a tag (09 Table 9-3). -/
def tagFp? : Tag → Option Fp
  | .fp64 => some .fp64 | .fp32 => some .fp32 | .bf16 => some .bf16 | .fp16 => some .fp16
  | .e4m3 => some .e4m3 | .e5m2 => some .e5m2
  | _ => none

/-- The minimum or maximum of floating-point values as 23 R342 has it: a signalling NaN counts as quiet. -/
def fpMinMaxQuiet (f : Fp) (isMax : Bool) (a b : Nat) : Nat :=
  match (minMaxPick isMax (f.value a) (f.value b)).1 with
  | none => f.canonicalNan
  | some false => a
  | some true => b

/-- The pending values that ANY may keep: not one whose acceptance its plane had waited for before it emitted another pending
value (23 R342). -/
def anyCandidates (us : List PendVal) : List PendVal :=
  us.filter fun b => !(us.any fun a => a.plane == b.plane && decide (b.seq ≤ (a.waited[b.n.toNat]?).getD 0))

/-- The combination of a stored value with pending values under an operator (23 Table 23-2, R342). -/
def combine (free op : Nat) (t : Tag) (v : Nat) (ps : List PendVal) : Nat :=
  let us := ps.map (·.val)
  let w := 8 * (tagBytes t)
  let int (f : Int → Int → Int) : Nat := us.foldl (fun a u => intPattern w (f (patternInt (tagSigned t) w a) (patternInt (tagSigned t) w u))) v
  match op with
  | 0 =>
    match t with
    | .fp32 => (sumFree .fp32 free ((v :: us).map fun x => ((Fp.fp32.value x).toRV, flNone))).1
    | .fp64 => (sumFree .fp64 free ((v :: us).map fun x => ((Fp.fp64.value x).toRV, flNone))).1
    | .bf16 =>
      let r := (sumFree .fp32 free ((v :: us).map fun x => ((Fp.bf16.value x).toRV, flNone))).1
      (Fp.bf16.round .rne false (Fp.fp32.value r).toRV).1
    | _ => int (· + ·)
  | 1 => match tagFp? t with
    | some f => us.foldl (fun a u => fpMinMaxQuiet f false a u) v
    | none => int min
  | 2 => match tagFp? t with
    | some f => us.foldl (fun a u => fpMinMaxQuiet f true a u) v
    | none => int max
  | 3 => us.foldl (fun a u => Nat.land a u) v
  | 4 => us.foldl (fun a u => Nat.lor a u) v
  | 5 => us.foldl (fun a u => Nat.xor a u) v
  | _ =>
    let cs := anyCandidates ps
    match cs with
    | [] => v
    | [c] => c.val
    | _ => ((cs[Config.freeNat free % cs.length]?).map (·.val)).getD v

/-- Bytes of consecutive physical addresses. -/
def State.physBytes (s : State) (pa n : Nat) : List Byte := (List.range n).map fun i => s.byte (pa + i)
/-- Bytes written at consecutive physical addresses of plain memory. -/
def State.physWrite (s : State) (pa : Nat) (bs : List Byte) : State :=
  { s.noteWrite pa bs.length with
    mem := (bs.foldl (fun (a : Nat × List Host.Cell) b => (a.1 + 1, Memory.set a.2 a.1 b)) (pa, s.mem)).2 }

/-- One pending key applied: one untorn write of the combination (23 R342). -/
def State.applyKey (s : State) (k : PendKey) : State :=
  match s.regions[k.reg]? with
  | some (some g) =>
    let n := tagBytes g.tag
    let v := combine s.free g.op g.tag (leNat (s.physBytes k.pa n)) k.vals
    { s.physWrite k.pa (leBytes n v) with free := s.free + 1 }
  | _ => s

/-- Every pending key that satisfies a test applied, in order, and dropped from the bins. -/
def State.applyKeys (s : State) (sel : PendKey → Bool) : State :=
  if s.pend.any sel then
    (s.pend.filter sel).foldl (fun s k => s.applyKey k) { s with pend := s.pend.filter fun k => !sel k }
  else s

/-- Before an agent reads or writes lines, their pending pairs are applied (07 R104, 23 R343). -/
def State.pressTouch (s : State) (ps : List Place) : State :=
  s.applyKeys fun k => ps.any fun p => p.pa / 64 == k.pa / 64

/-- A bin of the Press: a region and a 4 KiB physical block (23 R341). -/
abbrev PressBin := Nat × Nat
/-- The bin of a key (23 R341). -/
def PendKey.bin (k : PendKey) : PressBin := (k.reg, k.pa / 4096)
/-- Pending keys of a bin. -/
def State.binKeys (s : State) (b : PressBin) : Nat := (s.pend.filter fun k => k.bin == b).length

/-- More than 256 pending keys of a bin are applied at once (23 R341). -/
def State.spill (s : State) (reg pa : Nat) : State :=
  if 256 < s.binKeys (reg, pa / 4096) then s.applyKeys fun k => k.bin == (reg, pa / 4096) else s

/-- Bytes of lees that the pending pairs of a stack take: 16 each (23 R341). -/
def State.leesUsed (s : State) (stack : Nat) : Nat :=
  16 * (s.pend.filter fun k => stackOf (k.pa % pkgSpan) == stack).length

/-- The largest bin of a stack, the one begun first of equals (23 R341). -/
def State.largestBin (s : State) (stack : Nat) : Option PressBin :=
  (s.pend.filter fun k => stackOf (k.pa % pkgSpan) == stack).foldl (fun b k => match b with
    | none => some k.bin
    | some c => if s.binKeys c < s.binKeys k.bin then some k.bin else some c) none

/-- The largest bins of a stack applied, at most n, until its lees have space (23 R341). -/
def State.applyLargest (s : State) (stack : Nat) : Nat → State
  | 0 => s
  | n + 1 =>
    if s.leesUsed stack < s.leeSize then s
    else match s.largestBin stack with
      | none => s
      | some b => (s.applyKeys fun k => k.bin == b).applyLargest stack n

/-- Room in the lees of a stack for one more pair (23 R341). -/
def State.makeRoom (s : State) (stack : Nat) : State := s.applyLargest stack s.pend.length

/-- A pair accepted: combined with the pending values of its key (23 R341). -/
def State.acceptPair (s : State) (p : PlaneId) (n : TReg) (seq : Nat) (x : Pair) : State :=
  let s := s.makeRoom (stackOf (x.pa % pkgSpan))
  let v : PendVal := ⟨x.val, p, n, seq, x.waited⟩
  let hit (k : PendKey) : Bool := k.reg == x.reg && k.pa == x.pa
  let pend := if s.pend.any hit then s.pend.map fun k => if hit k then { k with vals := k.vals ++ [v] } else k
    else s.pend ++ [⟨x.reg, x.pa, [v]⟩]
  ({ s with pend := pend } : State).spill x.reg x.pa

/-- The pairs that an operation has emitted and the Press has not accepted. -/
def OpKind.pairs : OpKind → List Pair
  | .upd _ ps _ => ps
  | _ => []
/-- The operation without its emitted pairs. -/
def OpKind.emptied : OpKind → OpKind
  | .upd r _ d => .upd r [] d
  | k => k

/-- The pairs that operations of planes of a kind have emitted stay in the lees while those planes are stopped (17 Table 17-7). -/
def State.acceptOf (s : State) (sel : PlaneId → Bool) : State :=
  let s' := s.ops.foldl (fun s o => if sel o.plane then o.kind.pairs.foldl (fun s x => s.acceptPair o.plane o.n o.seq x) s else s) s
  { s' with ops := s'.ops.map fun o => if sel o.plane then { o with kind := o.kind.emptied } else o }

/-! ### Accesses -/

/-- Whether a place is in another package. -/
def State.remote (s : State) (p : Place) : Bool := p.pa / pkgSpan != s.pkg

/-- The bytes at places that were translated, poison and failed remote messages found (27 R392, R400). `va` is the first address. -/
def State.readPlaces (s : State) (va : Nat) (ps : List Place) : Except Word (List Byte) :=
  match (List.range ps.length).find? fun i =>
    match ps[i]? with
    | some p => s.unreadable p.pa
    | none => false
  with
  | some i => .error (BitVec.ofNat 64 ((va + i) % 2 ^ 64))
  | none => .ok (ps.map fun p => s.byte p.pa)

/-- Whether a write to these places meets a failed remote message (27 R392). -/
def State.writeFails (s : State) (ps : List Place) : Bool :=
  ps.any fun p => s.remote p && s.failing.contains (p.pa / pkgSpan)

/-- Poison cleared where the places cover a whole line or granule (27 R400). -/
def State.clearPoison (s : State) (ps : List Place) : State :=
  if s.poison.isEmpty then s
  else { s with poison := s.poison.filter fun u =>
    !((List.range (poisonSpan u)).all fun i => ps.any fun p => p.pa == u + i) }

/-- Bytes written at places (07 R88, 27 R400). -/
def State.writePlaces (s : State) (ps : List Place) (bs : List Byte) : State :=
  ((ps.zip bs).foldl (fun s x => s.putByte x.1 x.2) s).clearPoison ps

/-- Blocks of 256 bytes that a single write of zeros covers whole take a zero-summary bit of 1 (07 R88). -/
def State.zeroBlocks (s : State) (ps : List Place) (bs : List Byte) : State :=
  (ps.zip bs).foldl (fun s x =>
    if x.1.kind != .plain && x.1.off % 256 == 0 &&
        (List.range 256).all (fun i => (ps.zip bs).any fun y => y.1.pa == x.1.pa + i && y.2 == 0)
    then s.zsSet x.1 true else s) s

/-- mem_read of 09 R133: n bytes at va for an agent, little-endian, with the state after pending pairs were applied. -/
def State.read (s : State) (ag : Agent) (va : Word) (n : Nat) (acc : Acc) : Except MemErr (Nat × State) :=
  match s.places ag acc false n va.toNat none with
  | .error e => .error e
  | .ok ps =>
    let s := (s.leavePage ag va.toNat n).pressTouch ps
    match s.readPlaces va.toNat ps with
    | .error a => .error (.memerr a)
    | .ok bs => .ok (leNat bs, s)

/-- mem_write of 09 R133: the n low bytes of d at va for an agent. -/
def State.write (s : State) (ag : Agent) (va : Word) (n d : Nat) (acc : Acc) : Except MemErr State :=
  match s.places ag acc false n va.toNat none with
  | .error e => .error e
  | .ok ps =>
    if s.writeFails ps then .error .remoteWrite
    else .ok (((s.leavePage ag va.toNat n).pressTouch ps).writePlaces ps (leBytes n d))

end Sys2Proof.Machine
end

