-- ==== Sys2Proof/Machine/Ops.lean ====
section
/-! DEFINITION. Registers of the issuing plane, timeline counters, traps and the return from them, aborts, releases and waits:
the operations that meanings share (09 R105 to R112, 11 R134, 17 R246 to R261). -/
namespace Sys2Proof.Machine

/-- What a meaning answers. -/
abbrev Out := Host.Outcome State Fault Refusal

/-! ### Registers of the issuing plane -/

/-- The issuing plane. -/
def State.me (s : State) : Plane := s.plane s.cur
/-- The state with the issuing plane changed by f. -/
def State.modMe (s : State) (f : Plane → Plane) : State := s.modPlane s.cur f

/-- Xr; X0 reads zero (11 R134). -/
def Plane.getX (p : Plane) (r : XReg) : Word := if r = 0 then 0 else p.x.get r.toFin
/-- Xr written; a write to X0 is discarded (11 R134). -/
def Plane.setX (p : Plane) (r : XReg) (v : Word) : Plane := if r = 0 then p else { p with x := p.x.set r.toFin v }
/-- Xr of the issuing plane. -/
def State.getX (s : State) (r : XReg) : Word := s.me.getX r
/-- Xr of the issuing plane written. -/
def State.setX (s : State) (r : XReg) (v : Word) : State := s.modMe fun p => p.setX r v
/-- Fr. -/
def State.getF (s : State) (r : FReg) : FRegVal := s.me.f.get r.toFin
/-- Fr written with a pattern and the tag of its format (09 R106). -/
def State.setF (s : State) (r : FReg) (f : FFmt) (v : Word) : State := s.modMe fun p => { p with f := p.f.set r.toFin ⟨v, f⟩ }

/-- The state of a plane whose strand waits for nothing: ASLEEP while a GCSLEEP of its queue sleeps (05 Table 5-1). -/
def Plane.awake (p : Plane) : PlaneState := if p.gcs then .asleep else .runnable
/-- The pc past an instruction of `len` bytes, nothing waited for any more. -/
def Plane.advance (p : Plane) (len : Nat) : Plane := { p with pc := p.pc + BitVec.ofNat 64 len, wait := none, st := p.awake }
/-- The issuing strand retires an instruction of `len` bytes. -/
def State.advance (s : State) (len : Nat) : State := s.modMe fun p => p.advance len
/-- An instruction that writes v to Xd retires. -/
def State.retX (s : State) (d : XReg) (v : Word) (len : Nat) : State := (s.setX d v).advance len
/-- The issuing strand continues at t. -/
def State.jump (s : State) (t : Word) : State := s.modMe fun p => { p with pc := t, wait := none, st := p.awake }

/-- The strand of a plane as an agent of memory, by its scalar load-store port (09 R133, 07 R77). -/
def State.agent (s : State) (p : PlaneId) : Agent := ⟨p, (s.plane p).level, rootOf (s.plane p).xroot, some .scalar⟩
/-- The issuing strand as an agent of memory. -/
def State.myAgent (s : State) : Agent := s.agent s.cur
/-- The issuing strand as the agent of a queued vector instruction: by the instruction's own stream, at the level and under the ROOT of
its commit (07 R73, R77). -/
def VEntry.agent (e : VEntry) (s : State) : Agent := ⟨s.cur, e.lv, e.root, some (.vector e.qpos)⟩

/-! ### Cohorts -/

/-- The cohort or waiting launch of a number (05 R54). -/
def State.cohort? (s : State) (num : Nat) : Option Cohort := s.cohorts.find? fun k => k.num == num
/-- The cohort of that number changed. -/
def State.modCohort (s : State) (num : Nat) (f : Cohort → Cohort) : State :=
  { s with cohorts := s.cohorts.map fun k => if k.num == num then f k else k }

/-- The parked contexts of an evicted cohort with its planes and bases. -/
def State.parkedOf (s : State) (k : Cohort) : List (PlaneId × Nat × EngCtx) :=
  (k.planes.zip (k.bases.zip k.saved)).filterMap fun x => (s.parked[x.2.2]?).map fun e => (x.1, x.2.1, e)
/-- The parked contexts of all evicted cohorts that have not ended, with their planes. -/
def State.suspended (s : State) : List (PlaneId × EngCtx) :=
  (s.cohorts.filter fun k => k.st == .evicted && k.ended.isNone).flatMap fun k => (s.parkedOf k).map fun x => (x.1, x.2.2)

/-- Whether an operation is a LAUNCH, which runs on when its cohort ends (11 R168). -/
def OpKind.isLaunch : OpKind → Bool
  | .launch _ => true
  | _ => false

/-- The cohort that a launch was made by. -/
def Launcher.by? : Launcher → Option Nat
  | .strand c _ => some c
  | .host _ => none

/-- The numbers of the cohorts and waiting launches that come of those listed, to a depth (11 R169). -/
def launchedBy (cs : List Cohort) : Nat → List Nat → List Nat
  | 0, ns => ns
  | n + 1, ns =>
    let more := (cs.filter fun k => (match k.launcher.by? with | some c => ns.contains c | none => false) && !ns.contains k.num).map (·.num)
    if more.isEmpty then ns else launchedBy cs n (ns ++ more)

/-! ### Timeline counters -/

/-- The counter with its value raised over operations already complete (07 R99). -/
def Timeline.settle (t : Timeline) : Timeline :=
  match t.early with
  | (lo, n) :: rest => if lo == t.value + 1 then { t with value := t.value + n, early := rest } else t
  | [] => t

/-- Insertion of a run into ascending runs, joined with the runs it touches. -/
def insertRun (runs : List (Nat × Nat)) (lo n : Nat) : List (Nat × Nat) :=
  match runs with
  | [] => [(lo, n)]
  | (l, m) :: rest =>
    if lo + n < l then (lo, n) :: (l, m) :: rest
    else if lo + n == l then (lo, n + m) :: rest
    else if l + m == lo then insertRun rest l (m + n)
    else (l, m) :: insertRun rest lo n

/-- Operations seq to seq + n - 1 have completed (07 R99). -/
def Timeline.complete (t : Timeline) (seq n : Nat) : Timeline := Timeline.settle { t with early := insertRun t.early seq n }

/-- Counter n of plane p. -/
def State.timeline (s : State) (p : PlaneId) (n : TReg) : Timeline := (s.plane p).t.get n.toFin
/-- Counter n of plane p changed. -/
def State.modTimeline (s : State) (p : PlaneId) (n : TReg) (f : Timeline → Timeline) : State :=
  s.modPlane p fun pl => { pl with t := pl.t.set n.toFin (f (pl.t.get n.toFin)) }

/-- The largest issue number (07 R99). -/
def maxIssue : Nat := 2 ^ 64 - 1

/-- Whether counter n of the issuing plane can take k more operations (07 R99). -/
def State.canIssue (s : State) (n : TReg) (k : Nat) : Bool := decide ((s.timeline s.cur n).issue + k ≤ maxIssue)

/-- An asynchronous operation takes the next sequence number on counter n of the issuing plane (07 R99). -/
def State.issueOp (s : State) (n : TReg) (kind : OpKind) : State :=
  let seq := (s.timeline s.cur n).issue + 1
  let s := s.modTimeline s.cur n fun t => { t with issue := seq }
  { s with ops := s.ops ++ [⟨s.cur, n, seq, kind⟩] }

/-- The operation of a plane, counter and number. -/
def State.op? (s : State) (p : PlaneId) (n : TReg) (seq : Nat) : Option AOp :=
  s.ops.find? fun o => o.plane == p && o.n == n && o.seq == seq

/-- An operation completes: it leaves the list and is counted (07 R99). -/
def State.completeOp (s : State) (p : PlaneId) (n : TReg) (seq : Nat) : State :=
  let s := { s with ops := s.ops.filter fun o => !(o.plane == p && o.n == n && o.seq == seq) }
  s.modTimeline p n fun t => t.complete seq 1

/-- An operation changed in place. -/
def State.modOp (s : State) (p : PlaneId) (n : TReg) (seq : Nat) (f : OpKind → OpKind) : State :=
  { s with ops := s.ops.map fun o => if o.plane == p && o.n == n && o.seq == seq then { o with kind := f o.kind } else o }

/-! ### The report of a cohort's end -/

/-- The completion word of a cohort (11 R167). -/
def Cohort.word (k : Cohort) : Nat :=
  let e := k.ended.getD (0, 0)
  e.1 + (if e.1 == 1 then e.2 % 65536 * 65536 else 0) + k.num * 2 ^ 32

/-- The completion word written at the physical location found at submission (11 R167). -/
def State.writeWord (s : State) (pa v : Nat) : State :=
  match s.frameAt (pa / 65536 * 65536) false with
  | .error _ => s
  | .ok f =>
    let ps := (List.range 8).map fun i => f.place (pa % 65536 + i)
    if s.writeFails ps then s else (s.pressTouch ps).writePlaces ps (leBytes 8 v)

/-- The next SEQ that a session sends under, with the session after it (27 Table 27-2). -/
def State.nextSeq (s : State) (num : Nat) : Nat × State :=
  match s.sessions.find? fun x => x.num == num with
  | none => (0, s)
  | some x => (x.out + 1, { s with sessions := s.sessions.map fun y => if y.num == num then { y with out := y.out + 1 } else y })

/-- The key of the messages to the host of a session (27 R394). -/
def State.keyTo (s : State) (num : Nat) : List Byte := match s.sessions.find? fun x => x.num == num with | some x => x.keyOut | none => []

/-- Completion is reported to the launcher: the completion word and the counter of a LAUNCH, the COMPLETE event of a host session (05 R64,
11 R166, R167, 27 R388). -/
def State.report (s : State) (k : Cohort) : State :=
  match k.launcher with
  | .strand _ word =>
    let s := match word with | some pa => s.writeWord pa k.word | none => s
    (s.ops.filter fun o => o.kind == .launch k.order).foldl (fun s o => s.completeOp o.plane o.n o.seq) s
  | .host session =>
    let r := s.nextSeq session
    if r.1 == 0 then s
    else { r.2 with
      sent := r.2.sent ++ [.complete session r.1 (s.keyTo session) k.word]
      completes := r.2.completes ++ [⟨session, r.1, k.word, s.cycle, s.cycle⟩] }

/-- The session that launched a cohort. -/
def Launcher.session? : Launcher → Option Nat
  | .host n => some n
  | .strand _ _ => none

/-- The number of a cohort or launch released: it exists no more, and QUERY and CANCEL know it retired (05 R54, R64). -/
def State.release (s : State) (k : Cohort) : State :=
  { s with
    cohorts := s.cohorts.filter fun c => c.num != k.num
    doomed := s.doomed.filter fun n => n != k.num
    retired := (k.num, k.launcher.session?) :: s.retired.filter fun x => x.1 != k.num }

/-- A launch that waited withdrawn from its level's queue: its number is released, and its launcher has the report (05 R54, 11 R169). -/
def State.withdrawLaunch (s : State) (k : Cohort) : State := (s.release k).report k

/-! ### Aborts and cancellation -/

/-- Whether an operation ends with its cohort at a boundary that it may have still to reach: a section run, at that of its tile (17 R260,
Table 17-7). -/
def OpKind.endsAtTile : OpKind → Bool
  | .run _ => true
  | _ => false

/-- A cohort is aborted or cancelled: it keeps the outcome and cause with which it will retire, and every cohort and launch that its
strands made ends with outcome 2, those that wait for admission being withdrawn at once. Their strands stop, their vector work and
asynchronous operations end at their pre-emption points, launches apart, with the pairs emitted left in the lees, and their
riddling-table entries are freed (17 R260, 11 R169, 23 R360). A section run goes on to the end of its tile (`State.stopEnded`). -/
def State.endCohort (s : State) (num outcome cause : Nat) : State :=
  let all := launchedBy s.cohorts s.cohorts.length [num]
  let note (k : Cohort) : Cohort :=
    if k.ended.isSome || !all.contains k.num then k else { k with ended := some (if k.num == num then (outcome, cause) else (2, 0)) }
  let held (p : Plane) : Bool := p.st != .free && all.contains p.coh
  let stop (p : Plane) : Plane := if held p then { p with st := .halted, vq := [], wait := none, gcs := false, gcsSeen := none } else p
  let s := s.acceptOf fun p => held (s.plane p)
  let s : State := { s with
    cohorts := s.cohorts.map note
    planes := s.planes.map stop
    ops := s.ops.filter fun o => !held (s.plane o.plane) || OpKind.isLaunch o.kind || o.kind.endsAtTile
    routes := s.routes.filter fun r => !all.contains r.coh }
  (s.cohorts.filter fun k => k.st == .waiting && k.ended.isSome).foldl State.withdrawLaunch s

/-! ### Traps -/

/-- Trap causes (17 Table 17-3). -/
def causeIllinsn : Nat := 0x01
def causePriv : Nat := 0x02
def causeIllop : Nat := 0x03
def causeXlate : Nat := 0x04
def causeFpe : Nat := 0x05
def causeSyscall : Nat := 0x06
def causeBreak : Nat := 0x07
def causeCapacity : Nat := 0x08
def causeMemerr : Nat := 0x09
def causeCtxfault : Nat := 0x0A

/-- Codes of translation fault kinds (07 Table 7-5). -/
def xlateCode : XlateKind → Nat
  | .notpresent => 0 | .perm => 1 | .form => 2 | .reserved => 3 | .noncanon => 4 | .quota => 5 | .notarget => 6 | .fearea => 7

/-- TCAUSE of a translation fault (17 Table 17-2). -/
def xlateCause (k : XlateKind) : Word := BitVec.ofNat 64 (causeXlate + 256 * xlateCode k)
/-- TCAUSE of a floating-point trap for the enabled flags raised (17 Table 17-2). -/
def fpeCause (fl : Flags) : Word := BitVec.ofNat 64 (causeFpe + 65536 * fl.toNat)

/-- A bit as a number. -/
def b2n (b : Bool) : Nat := if b then 1 else 0

/-- TSTAT at trap entry (17 Table 17-5, R246). DESIGN CHOICE (log 76): SVCP is 0 where VTRAP is 1 and there is no entry. -/
def entryTstat (lv : Level) (vtrap : Bool) (entries : List VEntry) (arrived : Option Bool) : Word :=
  BitVec.ofNat 64 (b2n vtrap + 2 * b2n (lv == .s) + 4 + 8 * b2n arrived.isSome + 16 * b2n (arrived == some true)
    + 256 * entries.length + 65536 * (match entries with | e :: _ => e.qpos.toNat | [] => 0))

/-- INH of TSTAT (17 Table 17-5). -/
def tstatInh (t : Word) : Bool := t.getLsbD 2

/-- The generation that the GBAR at `tpc` recorded, where it has arrived (11 R159). -/
def Plane.arrivedAt (p : Plane) (tpc : Word) : Option Bool :=
  match p.wait with
  | some (.gbar _ g) => if p.pc == tpc then some g else none
  | _ => none

/-- Trap entry of plane p, one step (17 R246, R260): the saved registers, status and level, then the handler, or the abort of
the cohort where there is none or one is running. The entries are the resume entries of a trap at a queue position (R252). -/
def State.takeTrap (s : State) (p : PlaneId) (cause tpc tval : Word) (vtrap : Bool) (entries : List VEntry) : State :=
  let pl := s.plane p
  let pl' : Plane := { pl with
    tpc := tpc, tcause := cause, tval := tval
    tstat := entryTstat pl.level vtrap entries (pl.arrivedAt tpc)
    sel := 0, resume := entries, level := .s, vq := [], wait := none, gcs := false, gcsSeen := none, st := .runnable }
  if pl.tvec = 0 || tstatInh pl.tstat then (s.setPlane p pl').endCohort pl.coh 1 (cause.toNat % 65536)
  else s.setPlane p { pl' with pc := pl.tvec }

/-- A precise trap of the issuing strand with a given TPC: it is not taken, and its instruction waits, while an older vector
instruction has not completed (17 R251). -/
def State.trapAt (s : State) (cause tpc tval : Word) : State :=
  if s.me.vq.isEmpty then s.takeTrap s.cur cause tpc tval false [] else s

/-- A precise trap at the issuing instruction (17 R249, R251). -/
def State.trap (s : State) (cause : Nat) (tval : Word) : State := s.trapAt (BitVec.ofNat 64 cause) s.me.pc tval
/-- The illegal-instruction trap with the word (09 Table 9-7). -/
def State.illInsn (s : State) (w : IWord) : State := s.trap causeIllinsn (w.zeroExtend 64)
/-- The privilege-violation trap with the word (09 Table 9-7). -/
def State.privTrap (s : State) (w : IWord) : State := s.trap causePriv (w.zeroExtend 64)
/-- The illegal-operand trap with the word (17 Table 17-4). -/
def State.illOp (s : State) (w : IWord) : State := s.trap causeIllop (w.zeroExtend 64)

/-- The trap of a failed access of the issuing strand (17 R269, R261, 27 R392). -/
def State.memTrap (s : State) (e : MemErr) : State :=
  match e with
  | .xlate k va => s.trapAt (xlateCause k) s.me.pc va
  | .memerr va => s.trapAt (BitVec.ofNat 64 causeMemerr) s.me.pc va
  | .remoteWrite => s.endCohort s.me.coh 1 causeMemerr
  | .behind => s

/-- A privileged instruction: its effect at S level, the privilege-violation trap at U level (09 Table 9-7). -/
def State.atS (s : State) (w : IWord) (f : State → State) : State := if s.me.level == .s then f s else s.privTrap w

/-- Entries of a plane's vector queue (05 R46). -/
def queueDepth : Nat := 64

/-- The queue takes resume entries at its next positions; their accesses are those of the strand as it now is (17 R258). -/
def enqueueAll (p : Plane) : List VEntry → Plane
  | [] => p
  | e :: es => enqueueAll { p with
      vq := p.vq ++ [{ e with qpos := p.qnext, lv := p.level, root := rootOf p.xroot }], qnext := p.qnext + 1 } es

/-- Return from a trap (17 R258): the level, the resume entries re-enqueued in queue order, the wait of a GBAR that arrived. It stalls
while the queue has no room for the entries (05 R46). -/
def State.returnFromTrap (s : State) : State :=
  if queueDepth < s.me.vq.length + s.me.resume.length then s
  else s.modMe fun p =>
    let t := p.tstat
    let arrived := t.getLsbD 3
    enqueueAll { p with
      level := if t.getLsbD 1 then .s else .u
      tstat := t &&& ~~~(0x7F0C#64)
      resume := [], pc := p.tpc, st := p.awake
      wait := if arrived then some (.gbar none (t.getLsbD 4)) else none } p.resume

/-! ### Run-ahead limits -/

/-- Major opcode of an entry's word. -/
def VEntry.major (e : VEntry) : Nat := (fldOp e.w).toNat

/-- Whether an entry accesses memory for the strand: vector loads and stores, UMERGE and GCSLEEP. The pairs of an update instruction are
its operation's (07 R92, 23 R339, R348, 15 R234). -/
def VEntry.accesses (e : VEntry) : Bool :=
  e.major == 0x27 || e.major == 0x28 || e.major == 0x2A || (e.major == 0x29 && fldVfn e.w == 4#5)

/-- A release waits until every older vector instruction of the strand that accesses memory has performed all its elements (17 R253,
07 R96). -/
def State.releaseReady (s : State) : Bool := s.me.vq.all fun e => !e.accesses

/-- Whether an instruction that must wait for the whole vector queue may proceed (11 R170, 13 R190). -/
def State.queueEmpty (s : State) : Bool := s.me.vq.isEmpty

end Sys2Proof.Machine
end

