-- ==== Sys2Proof/Machine/Flags.lean ====
section
/-! DEFINITION. FCSR, FEX0 and FEX1: rounding mode, saturation, sticky flags, enables, first exceptions, and the floating-point
trap that follows a scalar instruction (03 R42 to R45). -/
namespace Sys2Proof.Machine

/-- FCSR.RM (03 Table 3-8). -/
def Plane.rm (p : Plane) : BitVec 3 := p.fcsr.extractLsb' 0 3
/-- FCSR.SAT (03 Table 3-8). -/
def Plane.sat (p : Plane) : Bool := p.fcsr.getLsbD 24
/-- FCSR.EN (03 Table 3-8). -/
def Plane.en (p : Plane) : Flags := p.fcsr.extractLsb' 16 8

/-- FCSR.FL (03 Table 3-8). -/
def Plane.raised (p : Plane) : Flags := p.fcsr.extractLsb' 8 8
/-- Of the flags that an instruction raises, those not set before it: the others raise no trap (03 R43, log 16). -/
def Plane.fresh (p : Plane) (fl : Flags) : Flags := fl &&& ~~~p.raised

/-- The mode that a code of FCSR.RM selects: none for 0b101 to 0b111, which are no modes (03 R26). -/
def dynMode? (c : BitVec 3) : Option RMode :=
  match c.toNat with
  | 0 => some .rne | 1 => some .rmm | 2 => some .rup | 3 => some .rdn | 4 => some .rtz | _ => none

/-- Flags ORed into FCSR.FL (03 R43). -/
def Plane.orFlags (p : Plane) (fl : Flags) : Plane := { p with fcsr := p.fcsr ||| (fl.zeroExtend 64 <<< 8) }

/-- FCSR under a write: the reserved bits stay zero (03 Table 3-8, 00 R5). -/
def fcsrWrite (v : Word) : Word := v &&& 0x0000000001FFFF07#64

/-- The field of one flag in a first-exception register: VALID with the index, or zero (03 R44). -/
def fexField (i : Option Nat) : Nat := match i with | some k => 0x8000 + k % 0x8000 | none => 0
/-- The index in a first-exception field, where valid. -/
def fexIndex (w : Word) (lo : Nat) : Option Nat :=
  let f := w.toNat / 2 ^ lo % 65536
  if f ≥ 0x8000 then some (f % 0x8000) else none

/-- The lowest index at which each flag arose, by flag number 0 to 7 (03 R45). -/
abbrev First := Vector (Option Nat) 8

/-- No flag has arisen. -/
def First.empty : First := Vector.replicate 8 none
/-- Flags that arise at index i: a flag keeps its lower index (03 R45). -/
def First.note (f : First) (fl : Flags) (i : Nat) : First :=
  if fl = 0 then f else f.mapIdx fun k o => if fl.getLsbD k then (match o with | some j => some (min j i) | none => some i) else o
/-- The lowest indices of a part of an instruction behind those of the parts before it (03 R45). -/
def First.after (f g : First) : First := f.mapIdx fun k o => match o with | some j => some j | none => (g[k]?).join
/-- The flags that have arisen. -/
def First.flags (f : First) : Flags :=
  BitVec.ofNat 8 ((List.range 8).foldl (fun a k => a + (if (f[k]?).join.isSome then 2 ^ k else 0)) 0)
/-- FEX0 from the lowest indices (03 Table 3-9). -/
def First.fex0 (f : First) : Word :=
  BitVec.ofNat 64 (fexField f[0] + 2 ^ 16 * fexField f[1] + 2 ^ 32 * fexField f[2] + 2 ^ 48 * fexField f[3])
/-- FEX1 from the lowest indices (03 Table 3-9). -/
def First.fex1 (f : First) : Word :=
  BitVec.ofNat 64 (fexField f[4] + 2 ^ 16 * fexField f[5] + 2 ^ 32 * fexField f[6] + 2 ^ 48 * fexField f[7])
/-- The lowest indices that FEX0 and FEX1 hold: what a restarted instruction keeps (03 R45). -/
def Plane.first (p : Plane) : First :=
  #v[fexIndex p.fex0 0, fexIndex p.fex0 16, fexIndex p.fex0 32, fexIndex p.fex0 48,
     fexIndex p.fex1 0, fexIndex p.fex1 16, fexIndex p.fex1 32, fexIndex p.fex1 48]

/-- A scalar instruction that raised flags has retired, `s'` being its result: its flags join FCSR, and where one of them is
new and enabled a floating-point trap follows it with TPC at the next instruction, FPEN holding every enabled flag it raised (03 R43,
17 R251, Table 17-2). It waits for older vector instructions only where it traps. -/
def State.retFlags (s s' : State) (fl : Flags) (w : IWord) : State :=
  let en := s.me.en &&& fl
  let s' := s'.modMe fun p => p.orFlags fl
  if s.me.fresh en = 0 then s'
  else if s.me.vq.isEmpty then s'.takeTrap s'.cur (fpeCause en) s'.me.pc (w.zeroExtend 64) false []
  else s

end Sys2Proof.Machine
end

