-- ==== Sys2Proof/Machine/Operands.lean ====
section
/-! DEFINITION. Vector operands: tags and widths, group shapes, elements, masks, side fields and tags of groups, the scalar operand of a VS
instruction, and which bytes a queued vector memory instruction has still to access (09 R107 to R121, 13 R184 to R188, 15 R220). -/
namespace Sys2Proof.Machine

/-- The width of a tag in bits; 0 for NONE (09 Table 9-3). -/
def tagWidth : Tag → Nat
  | .none => 0 | .q4 => 4
  | .s8 => 8 | .z8 => 8 | .e4m3 => 8 | .e5m2 => 8
  | .s16 => 16 | .z16 => 16 | .bf16 => 16 | .fp16 => 16 | .b16 => 16
  | .s32 => 32 | .z32 => 32 | .fp32 => 32 | .m32 => 32
  | .s64 => 64 | .z64 => 64 | .fp64 => 64

/-- Elements per register of width w. -/
def elemsOf (w : Nat) : Nat := if w == 0 then 0 else 4096 / w
/-- vlmax of 09 R133. -/
def vlmax (t : Tag) (g : Nat) : Nat := g * elemsOf (tagWidth t)

/-- Tags F of 13 R195. -/
def tagIsF (t : Tag) : Bool := match t with | .fp64 => true | .fp32 => true | .fp16 => true | .bf16 => true | _ => false
/-- Tags F8 of 13 R195. -/
def tagIsF8 (t : Tag) : Bool := match t with | .e4m3 => true | .e5m2 => true | _ => false
/-- Tags S of 13 R195. -/
def tagIsS (t : Tag) : Bool := match t with | .s8 => true | .s16 => true | .s32 => true | .s64 => true | _ => false
/-- Tags Z of 13 R195. -/
def tagIsZ (t : Tag) : Bool := match t with | .z8 => true | .z16 => true | .z32 => true | .z64 => true | _ => false
/-- Integer tags. -/
def tagIsInt (t : Tag) : Bool := tagIsS t || tagIsZ t
/-- Tags QB of 13 R195. -/
def tagIsQB (t : Tag) : Bool := match t with | .q4 => true | .b16 => true | _ => false

/-- The registers of an operand of width w beside a reference operand of width wref at group size g (13 R184). -/
def groupSize (g w wref : Nat) : Nat := max 1 (g * w / wref)

/-- Register number r of the vector file. -/
def Plane.vreg (p : Plane) (r : Nat) : VRegVal := p.v.get ⟨r % 64, Nat.mod_lt _ (by decide)⟩
/-- Register number r of the vector file replaced. -/
def Plane.setVreg (p : Plane) (r : Nat) (v : VRegVal) : Plane := { p with v := p.v.set (r % 64) v (Nat.mod_lt _ (by decide)) }

/-- Element i of width w of the group that begins at register r (09 R107). -/
def Plane.elem (p : Plane) (r w i : Nat) : Nat :=
  ((p.vreg (r + i / elemsOf w)).data.toNat / 2 ^ (i % elemsOf w * w)) % 2 ^ w
/-- A field of bits of a number replaced. -/
def putBits (x lo w v : Nat) : Nat := x - x / 2 ^ lo % 2 ^ w * 2 ^ lo + v % 2 ^ w * 2 ^ lo
/-- Element i of width w of the group that begins at register r written (09 R107). -/
def Plane.setElem (p : Plane) (r w i v : Nat) : Plane :=
  let k := r + i / elemsOf w
  let old := p.vreg k
  p.setVreg k { old with data := BitVec.ofNat 4096 (putBits old.data.toNat (i % elemsOf w * w) w v) }
/-- Byte j of the side field of register r. -/
def Plane.sideByte (p : Plane) (r j : Nat) : Nat := (p.vreg r).side.toNat / 2 ^ (8 * j) % 256
/-- Byte j of the side field of register r written. -/
def Plane.setSide (p : Plane) (r j v : Nat) : Plane :=
  let old := p.vreg r
  p.setVreg r { old with side := BitVec.ofNat 256 (putBits old.side.toNat (8 * j) 8 v) }
/-- The side field of a register that carries a tag: 32 bytes under Q4, bytes 0 to 7 under B16, none under other tags (03 R23, R30,
09 R107). -/
def sideOf (t : Tag) (side : BitVec 256) : BitVec 256 :=
  match t with
  | .q4 => side
  | .b16 => side &&& 0xFFFFFFFFFFFFFFFF#256
  | _ => 0

/-- The tag of n registers from r written, with what it leaves of the side field (03 R30, 09 R107, R112). -/
def Plane.setTags (p : Plane) (r : Nat) (t : Tag) : Nat → Plane
  | 0 => p
  | n + 1 =>
    let old := (p.setTags r t n).vreg (r + n)
    (p.setTags r t n).setVreg (r + n) { old with tag := t, side := sideOf t old.side }
/-- The tag of the group of n registers from r: none where they differ (09 R112). -/
def Plane.groupTag (p : Plane) (r n : Nat) : Option Tag :=
  let t := (p.vreg r).tag
  if (List.range n).all fun j => (p.vreg (r + j)).tag == t then some t else none

/-- Mask register number m; M0 reads all true (09 R108). -/
def Plane.maskReg (p : Plane) (m : MReg) : BitVec 8192 := if m = 0 then BitVec.allOnes 8192 else p.m.get m.toFin
/-- Whether element i is on under mask m (09 R133). -/
def Plane.maskBit (p : Plane) (m : MReg) (i : Nat) : Bool := if m = 0 then true else (p.m.get m.toFin).getLsbD i
/-- A mask register written; M0 keeps reading all true. -/
def Plane.setMask (p : Plane) (m : MReg) (v : BitVec 8192) : Plane := if m = 0 then p else { p with m := p.m.set m.toFin v }
/-- Bit i of a mask value written. -/
def putMaskBit (x : BitVec 8192) (i : Nat) (b : Bool) : BitVec 8192 :=
  if x.getLsbD i == b then x else x ^^^ (BitVec.ofNat 8192 (2 ^ i))

/-- Indices lo to hi - 1. -/
def indices (lo hi : Nat) : List Nat := (List.range (hi - lo)).map (· + lo)

/-- The scalar operand of a VS instruction as 09 R121 gives it for a tag: a pattern of the tag for every element, or an exact
floating-point value for an immediate, with what MOV it raises. -/
structure ScalarOperand where
  pattern : Nat
  value : FVal
  /-- an immediate of a floating-point tag, which enters with its exact value -/
  isImm : Bool
  mov : Bool
  deriving DecidableEq, Repr

/-- An integer taken to M32 from a signed source (03 R34): the residue and whether MOV arises. -/
def intToM32 (q : Nat) (signed : Bool) (v : Int) : Nat × Bool :=
  ((v % (q : Int)).toNat, if signed then decide (v < -(((q : Int) - 1) / 2) ∨ ((q : Int) - 1) / 2 < v) else decide ((q : Int) ≤ v))

/-- The scalar operand of 09 R121 for element type t under modulus q. -/
def scalarOperand (t : Tag) (q : Nat) (i : Bool) (pfx : Option (BitVec 26)) (imm5 : BitVec 5) (xb : Word) : ScalarOperand :=
  let w := tagWidth t
  let immInt : Int := match pfx with
    | none => imm5.toInt
    | some k => (k ++ imm5).toInt
  if !i then
    let p := xb.toNat % 2 ^ w
    ⟨p, match tagFp? t with | some f => f.value p | none => .fin false 0 0, false, false⟩
  else match tagFp? t with
    | some _ =>
      let v : FVal := match pfx with
        | none => .fin (decide (immInt < 0)) immInt.natAbs 0
        | some k => Fp.fp32.value (k.toNat * 64)
      let neg := match pfx with | none => decide (immInt < 0) | some k => k.getLsbD 25
      ⟨if neg then 2 ^ (w - 1) else 0, v, true, false⟩
    | none =>
      if t == .m32 then
        let r := intToM32 q true immInt
        ⟨r.1, .fin false 0 0, true, r.2⟩
      else ⟨intPattern w immInt, .fin false 0 0, true, false⟩

/-! ### Bytes a queued vector memory instruction has still to access (17 R253) -/

/-- Fields of a queue entry's word. -/
def VEntry.vd (e : VEntry) : Nat := (fldVd e.w).toNat
def VEntry.va (e : VEntry) : Nat := (fldVa e.w).toNat
def VEntry.vb (e : VEntry) : Nat := (fldVb e.w).toNat
def VEntry.m3 (e : VEntry) : MReg := fldM e.w
def VEntry.fn5 (e : VEntry) : Nat := (fldVfn e.w).toNat
def VEntry.mm (e : VEntry) : MReg := fldSm e.w
def VEntry.mb (e : VEntry) : Nat := (fldMb e.w).toNat
def VEntry.mq (e : VEntry) : Nat := (fldMq e.w).toNat
def VEntry.fn3 (e : VEntry) : Nat := (fldMfn e.w).toNat
/-- G of an entry. -/
def VEntry.g (e : VEntry) : Nat := 2 ^ e.lg.toNat

/-- Tags of the groups va, vb (the index group of a vector memory instruction) and vd: those they had when the instruction began,
where it was stopped part-way (17 R255, R259). -/
def VEntry.tags (e : VEntry) (p : Plane) : Tag × Tag × Tag :=
  e.stags.getD ((p.vreg e.va).tag, (p.vreg (if e.w.extractLsb' 26 6 == 0x27#6 || e.w.extractLsb' 26 6 == 0x28#6 then e.mb else e.vb)).tag,
    (p.vreg e.vd).tag)

/-- idx(i) of 15 R220 as a byte offset: the index read signed for S tags, unsigned for Z, scaled by s unless .OFS. -/
def Plane.indexBytes (p : Plane) (t : Tag) (vb i s : Nat) (ofs : Bool) : Int :=
  let w := tagWidth t
  let v := patternInt (tagSigned t) w (p.elem vb w i)
  if ofs then v else v * (s : Nat)

/-- The memory field type of a segment load or store: the tag that group vd held, NONE standing for the current tag (15 R226). -/
def VEntry.fieldTag (e : VEntry) (p : Plane) : Tag :=
  if e.major == 0x27 then (if (e.tags p).2.2 == .none then e.tag else (e.tags p).2.2) else e.tag

/-- The first address and the byte count of element i of a vector memory entry (15 Table 15-1); Q4 and B16 by register superblocks
(15 Table 15-3), i being the element's index. -/
def VEntry.span (e : VEntry) (p : Plane) (i : Nat) : Nat × Nat :=
  let s := tagBytes e.tag
  let base (o : Int) : Nat := ((e.xa.toNat : Int) + o) % (2 ^ 64 : Nat) |>.toNat
  match e.fn3 with
  | 1 => (base ((i : Nat) * e.xb.toInt), s)
  | 2 =>
    let nf := e.mq + 1
    let mt := e.fieldTag p
    (base ((i * nf * tagBytes mt : Nat)), nf * tagBytes mt)
  | 3 => (base (p.indexBytes (e.tags p).2.1 e.mb i s (e.mq % 2 == 1)), s)
  | 4 => if e.major == 0x28 then (base (p.indexBytes (e.tags p).2.1 e.mb i s (e.mq % 2 == 1)), s) else (base ((i * s : Nat)), s)
  | 6 => if e.major == 0x27 then (base (p.indexBytes (e.tags p).2.1 e.mb i s (e.mq % 2 == 1)), s) else (base ((i * s : Nat)), s)
  | _ =>
    match e.tag with
    | .q4 => (base ((i / 1024 * 544 : Nat)), 544)
    | .b16 => (base ((i / 256 * 520 : Nat)), 520)
    | _ => (base ((i * s : Nat)), s)

/-- Whether a vector memory function uses an index group (15 Table 15-1). -/
def VEntry.indexed (e : VEntry) : Bool :=
  e.fn3 == 3 || (e.major == 0x27 && e.fn3 == 6) || (e.major == 0x28 && e.fn3 == 4)
/-- Fields of a record: nf of a segment function, else 1 (15 R226). -/
def VEntry.fields (e : VEntry) : Nat := if e.fn3 == 2 then e.mq + 1 else 1

/-- Whether two register groups share a register. -/
def groupsMeet (r n r' n' : Nat) : Bool := decide (r < r' + n' ∧ r' < r + n)

/-- The registers that an entry may write, as a first register and a count at least as large as the group. -/
def VEntry.writesRegs (e : VEntry) : Nat × Nat :=
  match e.major with
  | 0x21 | 0x22 | 0x24 | 0x25 | 0x26 => (e.vd, e.g)
  | 0x27 => (e.vd, e.fields * e.g)
  | _ => (e.vd, 0)
/-- The registers that fix the addresses of an entry: its index group, or the group whose tag is its field type (15 R220, R226). -/
def VEntry.addressRegs (e : VEntry) : Nat × Nat :=
  if e.major != 0x27 && e.major != 0x28 then (0, 0)
  else if e.indexed then (e.mb, e.g) else if e.major == 0x27 && e.fn3 == 2 then (e.vd, 1) else (0, 0)

/-- The accesses that an entry has still to make, each a first address and a byte count; `oldest` for the head of the queue, all others
counting every element as active. -/
def VEntry.spansLeft (e : VEntry) (p : Plane) (oldest : Bool) : List (Nat × Nat) :=
  if e.major == 0x29 then match p.window with
    | none => []
    | some w => (indices e.prog w.n).map fun k => ((w.base.toNat + k * tagBytes w.tag) % 2 ^ 64, tagBytes w.tag)
  else ((indices e.prog e.vl).filter fun i => !oldest || p.maskBit e.mm i).map fun i => e.span p i

/-- The places of those bytes of a span, a first address and a byte count, that translate: an access of which another part faults may still
touch them (17 R253). -/
def State.reached (s : State) (ag : Agent) (acc : Acc) (sp : Nat × Nat) : List Place :=
  let n := min sp.2 (65536 - sp.1 % 65536)
  let part (m va : Nat) : List Place := match s.places ag acc false m va none with
    | .ok ps => ps
    | .error _ => []
  part n sp.1 ++ part (sp.2 - n) ((sp.1 + n) % 2 ^ 64)

/-- Whether an entry behind others has still to access a byte at one of these places. Where an older entry may yet write the registers
that fix its addresses, it counts as touching every byte. -/
def State.entryTouches (s : State) (e : VEntry) (older : List VEntry) (ps : List Place) : Bool :=
  if !(e.major == 0x27 || e.major == 0x28 || (e.major == 0x29 && e.fn5 == 4)) then false
  else
    (older.any fun x => groupsMeet e.addressRegs.1 e.addressRegs.2 x.writesRegs.1 x.writesRegs.2) ||
    (e.spansLeft s.me older.isEmpty).any fun sp =>
      (s.reached (e.agent s) (if e.major == 0x27 then .read else .write) sp).any fun q => ps.any fun r => q.pa == r.pa

/-- Whether an entry acquires, so that no later access of its strand goes before it (07 R96, Table 7-9): VLDW, VLDFE, GCSLEEP, and what may
read the group of a CONSUME stream. -/
def VEntry.acquires (e : VEntry) (p : Plane) : Bool :=
  (e.major == 0x27 && (e.fn3 == 5 || e.fn3 == 7)) || e.major == 0x2A ||
    p.streams.toList.any fun o => match o with
      | some st => st.consume && (match st.vreg with
        | some r => [e.va, e.vb, e.vd].any fun x => groupsMeet r (2 ^ st.lg) x ((if e.major == 0x28 then e.fields else 1) * e.g)
        | none => false)
      | none => false

/-- Whether one of the entries from `es` on, behind those older, touches these places. -/
def State.queueTouches (s : State) (ps : List Place) : (es older : List VEntry) → Bool
  | [], _ => false
  | e :: es, older => s.entryTouches e older ps || s.queueTouches ps es (older ++ [e])

/-- A scalar access to these places waits while an older vector instruction has still to access one of their bytes, or has still to
acquire (17 R253, 07 R93, R96). -/
def State.vecConflict (s : State) (ag : Agent) (va : Word) (n : Nat) (acc : Acc) : Bool :=
  match s.me.vq with
  | [] => false
  | es =>
    match s.places ag acc false n va.toNat none with
    | .error _ => false
    | .ok ps => (es.any fun e => e.acquires s.me) || s.queueTouches ps es []

end Sys2Proof.Machine
end

