-- ==== Sys2Proof/Machine/Integer.lean ====
section
/-! DEFINITION. Integer instructions: majors 0x01 and 0x08, and the immediate majors 0x02 to 0x07 (11 R135 to R139). -/
namespace Sys2Proof.Machine

/-- The high 64 bits of the product of two integers (11 Table 11-1, MULH and MULHZ). -/
def mulHigh (x y : Int) : Word := BitVec.ofInt 64 (x * y / (2 ^ 64 : Nat))

/-- The signed quotient of w-bit integers, truncated toward zero; -1 for a zero divisor (11 R136, 13 R196). -/
def divS (x y : Int) : Int := if y == 0 then -1 else x.tdiv y
/-- The unsigned quotient; all ones for a zero divisor (11 R136, 13 R196). -/
def divZ (w : Nat) (x y : Nat) : Nat := if y == 0 then 2 ^ w - 1 else x / y
/-- The signed remainder, the sign of the dividend; the dividend for a zero divisor (11 R136). -/
def remS (x y : Int) : Int := if y == 0 then x else x.tmod y
/-- The unsigned remainder; the dividend for a zero divisor (11 R136). -/
def remZ (x y : Nat) : Nat := if y == 0 then x else x % y

/-- Number of ones among bits 0 to n - 1. -/
def onesBelow (x : Nat) : Nat → Nat
  | 0 => 0
  | n + 1 => onesBelow x n + x / 2 ^ n % 2
/-- Leading zeros of the w-bit pattern x (11 Table 11-1, 13 Table 13-4). -/
def leadingZeros (w x : Nat) : Nat := if x % 2 ^ w == 0 then w else w - 1 - (x % 2 ^ w).log2
/-- Trailing zeros of the pattern x, at most n. -/
def trailingZeros (x : Nat) : Nat → Nat
  | 0 => 0
  | n + 1 => if x % 2 == 1 then 0 else 1 + trailingZeros (x / 2) n

/-- A 64-bit truth value. -/
def bool64 (b : Bool) : Word := if b then 1 else 0

/-- An instruction that writes f of Xa and Xb to Xd retires (11 R135). -/
def aluRR (d a b : XReg) (f : Word → Word → Word) (s : State) : Out := .next (s.retX d (f (s.getX a) (s.getX b)) 4)
/-- An instruction that writes f of Xa to Xd retires (11 R135). -/
def aluR (d a : XReg) (f : Word → Word) (s : State) : Out := .next (s.retX d (f (s.getX a)) 4)

/-- ADD: Xd := Xa + Xb (11 Table 11-1). -/
def execAdd (d a b : XReg) (s : State) : Out := aluRR d a b (fun x y => x + y) s

/-- SUB: Xd := Xa - Xb (11 Table 11-1). -/
def execSub (d a b : XReg) (s : State) : Out := aluRR d a b (fun x y => x - y) s

/-- AND: Xd := Xa & Xb (11 Table 11-1). -/
def execAnd (d a b : XReg) (s : State) : Out := aluRR d a b (fun x y => x &&& y) s

/-- OR: Xd := Xa | Xb (11 Table 11-1). -/
def execOr (d a b : XReg) (s : State) : Out := aluRR d a b (fun x y => x ||| y) s

/-- XOR: Xd := Xa ^ Xb (11 Table 11-1). -/
def execXor (d a b : XReg) (s : State) : Out := aluRR d a b (fun x y => x ^^^ y) s

/-- ANDN: Xd := Xa & ~Xb (11 Table 11-1). -/
def execAndn (d a b : XReg) (s : State) : Out := aluRR d a b (fun x y => x &&& ~~~y) s

/-- ORN: Xd := Xa | ~Xb (11 Table 11-1). -/
def execOrn (d a b : XReg) (s : State) : Out := aluRR d a b (fun x y => x ||| ~~~y) s

/-- SLL: Xd := Xa << Xb[5:0] (11 Table 11-1). -/
def execSll (d a b : XReg) (s : State) : Out := aluRR d a b (fun x y => x <<< (y.toNat % 64)) s

/-- SRL: Xd := zext(Xa) >> Xb[5:0] (11 Table 11-1). -/
def execSrl (d a b : XReg) (s : State) : Out := aluRR d a b (fun x y => x >>> (y.toNat % 64)) s

/-- SRA: Xd := sext(Xa) >> Xb[5:0] (11 Table 11-1). -/
def execSra (d a b : XReg) (s : State) : Out := aluRR d a b (fun x y => x.sshiftRight (y.toNat % 64)) s

/-- ROR: Xd := Xa rotated right by Xb[5:0] (11 Table 11-1). -/
def execRor (d a b : XReg) (s : State) : Out := aluRR d a b (fun x y => x.rotateRight (y.toNat % 64)) s

/-- MUL: Xd := bits 63:0 of Xa × Xb (11 Table 11-1). -/
def execMul (d a b : XReg) (s : State) : Out := aluRR d a b (fun x y => x * y) s

/-- MULH: Xd := bits 127:64 of sext(Xa) × sext(Xb) (11 Table 11-1). -/
def execMulh (d a b : XReg) (s : State) : Out := aluRR d a b (fun x y => mulHigh x.toInt y.toInt) s

/-- MULHZ: Xd := bits 127:64 of zext(Xa) × zext(Xb) (11 Table 11-1). -/
def execMulhz (d a b : XReg) (s : State) : Out := aluRR d a b (fun x y => mulHigh x.toNat y.toNat) s

/-- DIV: Xd := the signed quotient (R136) (11 Table 11-1). -/
def execDiv (d a b : XReg) (s : State) : Out := aluRR d a b (fun x y => BitVec.ofInt 64 (divS x.toInt y.toInt)) s

/-- DIVZ: Xd := the unsigned quotient (R136) (11 Table 11-1). -/
def execDivz (d a b : XReg) (s : State) : Out := aluRR d a b (fun x y => BitVec.ofNat 64 (divZ 64 x.toNat y.toNat)) s

/-- REM: Xd := the signed remainder (R136) (11 Table 11-1). -/
def execRem (d a b : XReg) (s : State) : Out := aluRR d a b (fun x y => BitVec.ofInt 64 (remS x.toInt y.toInt)) s

/-- REMZ: Xd := the unsigned remainder (R136) (11 Table 11-1). -/
def execRemz (d a b : XReg) (s : State) : Out := aluRR d a b (fun x y => BitVec.ofNat 64 (remZ x.toNat y.toNat)) s

/-- MIN: Xd := the signed minimum (11 Table 11-1). -/
def execMin (d a b : XReg) (s : State) : Out := aluRR d a b (fun x y => if x.toInt ≤ y.toInt then x else y) s

/-- MAX: Xd := the signed maximum (11 Table 11-1). -/
def execMax (d a b : XReg) (s : State) : Out := aluRR d a b (fun x y => if x.toInt ≤ y.toInt then y else x) s

/-- MINZ: Xd := the unsigned minimum (11 Table 11-1). -/
def execMinz (d a b : XReg) (s : State) : Out := aluRR d a b (fun x y => if x.toNat ≤ y.toNat then x else y) s

/-- MAXZ: Xd := the unsigned maximum (11 Table 11-1). -/
def execMaxz (d a b : XReg) (s : State) : Out := aluRR d a b (fun x y => if x.toNat ≤ y.toNat then y else x) s

/-- SEQ: Xd := 1 if Xa = Xb (11 Table 11-1). -/
def execSeq (d a b : XReg) (s : State) : Out := aluRR d a b (fun x y => bool64 (x == y)) s

/-- SLT: Xd := 1 if sext(Xa) < sext(Xb) (11 Table 11-1). -/
def execSlt (d a b : XReg) (s : State) : Out := aluRR d a b (fun x y => bool64 (decide (x.toInt < y.toInt))) s

/-- SLTZ: Xd := 1 if zext(Xa) < zext(Xb) (11 Table 11-1). -/
def execSltz (d a b : XReg) (s : State) : Out := aluRR d a b (fun x y => bool64 (decide (x.toNat < y.toNat))) s

/-- CLZ: Xd := leading zeros of Xa (11 Table 11-1). -/
def execClz (d a : XReg) (s : State) : Out := aluR d a (fun x => BitVec.ofNat 64 (leadingZeros 64 x.toNat)) s

/-- CTZ: Xd := trailing zeros of Xa (11 Table 11-1). -/
def execCtz (d a : XReg) (s : State) : Out := aluR d a (fun x => BitVec.ofNat 64 (trailingZeros x.toNat 64)) s

/-- POPC: Xd := number of ones in Xa (11 Table 11-1). -/
def execPopc (d a : XReg) (s : State) : Out := aluR d a (fun x => BitVec.ofNat 64 (onesBelow x.toNat 64)) s

/-- SEXT: Xd := sext(Xa, w), the field holding w - 1 (11 Table 11-1). -/
def execSext (d a : XReg) (w : BitVec 6) (s : State) : Out :=
  aluR d a (fun x => BitVec.ofInt 64 (patternInt true (w.toNat + 1) x.toNat)) s

/-- ZEXT: Xd := zext(Xa, w), the field holding w - 1 (11 Table 11-1). -/
def execZext (d a : XReg) (w : BitVec 6) (s : State) : Out :=
  aluR d a (fun x => BitVec.ofNat 64 (x.toNat % 2 ^ (w.toNat + 1))) s

/-- BFX: Xd := zext(Xa >> pos, len), the field l holding len - 1 (11 R137). -/
def execBfx (d a : XReg) (l : BitVec 5) (p : BitVec 6) (s : State) : Out :=
  aluR d a (fun x => BitVec.ofNat 64 (x.toNat / 2 ^ p.toNat % 2 ^ (l.toNat + 1))) s

/-- BFI: Xd with bits pos+len-1:pos replaced by Xa[len-1:0]; Xd is a source (11 R137). -/
def execBfi (d a : XReg) (l : BitVec 5) (p : BitVec 6) (s : State) : Out :=
  .next (s.retX d (BitVec.ofNat 64 (putBits (s.getX d).toNat p.toNat (l.toNat + 1) (s.getX a).toNat)) 4)

/-- The immediate of an unprefixed I16 instruction: sext(imm16, 16) (09 R115). -/
def imm16 (i : BitVec 16) : Word := i.signExtend 64

/-- ADDI with immediate k, `len` bytes long: Xd := Xa + k (11 R138). -/
def opAddi (d a : XReg) (k : Word) (len : Nat) (s : State) : State := s.retX d ((fun x : Word => x + k) (s.getX a)) len
/-- ADDI (11 R138). -/
def execAddi (d a : XReg) (i : BitVec 16) (s : State) : Out := .next (opAddi d a (imm16 i) 4 s)

/-- ANDI with immediate k, `len` bytes long: Xd := Xa & k (11 R138). -/
def opAndi (d a : XReg) (k : Word) (len : Nat) (s : State) : State := s.retX d ((fun x : Word => x &&& k) (s.getX a)) len
/-- ANDI (11 R138). -/
def execAndi (d a : XReg) (i : BitVec 16) (s : State) : Out := .next (opAndi d a (imm16 i) 4 s)

/-- ORI with immediate k, `len` bytes long: Xd := Xa | k (11 R138). -/
def opOri (d a : XReg) (k : Word) (len : Nat) (s : State) : State := s.retX d ((fun x : Word => x ||| k) (s.getX a)) len
/-- ORI (11 R138). -/
def execOri (d a : XReg) (i : BitVec 16) (s : State) : Out := .next (opOri d a (imm16 i) 4 s)

/-- XORI with immediate k, `len` bytes long: Xd := Xa ^ k (11 R138). -/
def opXori (d a : XReg) (k : Word) (len : Nat) (s : State) : State := s.retX d ((fun x : Word => x ^^^ k) (s.getX a)) len
/-- XORI (11 R138). -/
def execXori (d a : XReg) (i : BitVec 16) (s : State) : Out := .next (opXori d a (imm16 i) 4 s)

/-- SLTI with immediate k, `len` bytes long: Xd := 1 if sext(Xa) < k, else 0 (11 R138). -/
def opSlti (d a : XReg) (k : Word) (len : Nat) (s : State) : State := s.retX d ((fun x : Word => bool64 (decide (x.toInt < k.toInt))) (s.getX a)) len
/-- SLTI (11 R138). -/
def execSlti (d a : XReg) (i : BitVec 16) (s : State) : Out := .next (opSlti d a (imm16 i) 4 s)

/-- LIH with immediate k, `len` bytes long: Xd := Xa + (k << 16) (11 R138). -/
def opLih (d a : XReg) (k : Word) (len : Nat) (s : State) : State := s.retX d ((fun x : Word => x + (k <<< 16)) (s.getX a)) len
/-- LIH (11 R138). -/
def execLih (d a : XReg) (i : BitVec 16) (s : State) : Out := .next (opLih d a (imm16 i) 4 s)

/-- SLLI: Xd := Xa << s (11 R139). -/
def execSlli (d a : XReg) (k : BitVec 6) (s : State) : Out := aluR d a (fun x => x <<< k.toNat) s

/-- SRLI: Xd := zext(Xa) >> s (11 R139). -/
def execSrli (d a : XReg) (k : BitVec 6) (s : State) : Out := aluR d a (fun x => x >>> k.toNat) s

/-- SRAI: Xd := sext(Xa) >> s (11 R139). -/
def execSrai (d a : XReg) (k : BitVec 6) (s : State) : Out := aluR d a (fun x => x.sshiftRight k.toNat) s

/-- RORI: Xd := Xa rotated right by s (11 R139). -/
def execRori (d a : XReg) (k : BitVec 6) (s : State) : Out := aluR d a (fun x => x.rotateRight k.toNat) s

end Sys2Proof.Machine
end

