-- ==== Sys2Proof/Machine/Memory.lean ====
section
/-! DEFINITION. Scalar loads, stores, branches and jumps (11 R140 to R143). -/
namespace Sys2Proof.Machine

/-- Bytes of a size (09 R115). -/
def sizeBytes (z : Size) : Nat := match z with | .b => 1 | .h => 2 | .w => 4 | .d => 8
/-- The displacement of an unprefixed load or store: sext(imm16 13:0) (09 R115). -/
def disp14 (e : BitVec 14) : Word := e.signExtend 64

/-- A read of n bytes at addr by the issuing strand, then k of the value; the strand waits for older vector accesses to the same
bytes (11 R140, 17 R253), and a failed read traps (17 R269). -/
def State.loading (s : State) (addr : Word) (n : Nat) (acc : Acc) (k : Nat → State → State) : State :=
  if s.vecConflict s.myAgent addr n acc then s
  else match s.read s.myAgent addr n acc with
    | .error e => s.memTrap e
    | .ok (v, s') => k v s'

/-- A write of n bytes at addr by the issuing strand, which then retires (11 R140, 17 R253, R269). -/
def State.storing (s : State) (addr : Word) (n d : Nat) (acc : Acc) (k : State → State) : State :=
  if s.vecConflict s.myAgent addr n acc then s
  else match s.write s.myAgent addr n d acc with
    | .error e => s.memTrap e
    | .ok s' => k s'

/-- LD with displacement e: Xd := sext of n bytes at Xa + e (11 R140). -/
def opLd (d a : XReg) (z : Size) (e : Word) (len : Nat) (s : State) : State :=
  s.loading (s.getX a + e) (sizeBytes z) .read fun v s => s.retX d (BitVec.ofInt 64 (patternInt true (8 * (sizeBytes z)) v)) len
/-- LDZ with displacement e: Xd := zext of n bytes at Xa + e (11 R140). -/
def opLdz (d a : XReg) (z : Size) (e : Word) (len : Nat) (s : State) : State :=
  s.loading (s.getX a + e) (sizeBytes z) .read fun v s => s.retX d (BitVec.ofNat 64 v) len
/-- ST with displacement e: the n low bytes of Xd go to Xa + e (11 R140). -/
def opSt (d a : XReg) (z : Size) (e : Word) (len : Nat) (s : State) : State :=
  s.storing (s.getX a + e) (sizeBytes z) (s.getX d).toNat .write fun s => s.advance len
/-- FLDW with displacement e: 4 bytes to Fd, tag FP32 (11 R141). -/
def opFldw (d : FReg) (a : XReg) (e : Word) (len : Nat) (s : State) : State :=
  s.loading (s.getX a + e) 4 .read fun v s => (s.setF d .f32 (BitVec.ofNat 64 v)).advance len
/-- FLDD with displacement e: 8 bytes to Fd, tag FP64 (11 R141). -/
def opFldd (d : FReg) (a : XReg) (e : Word) (len : Nat) (s : State) : State :=
  s.loading (s.getX a + e) 8 .read fun v s => (s.setF d .f64 (BitVec.ofNat 64 v)).advance len
/-- FSTW with displacement e: bits 31:0 of Fd, whatever its tag (11 R141). -/
def opFstw (d : FReg) (a : XReg) (e : Word) (len : Nat) (s : State) : State :=
  s.storing (s.getX a + e) 4 (s.getF d).bits.toNat .write fun s => s.advance len
/-- FSTD with displacement e: 64 bits of Fd, whatever its tag (11 R141). -/
def opFstd (d : FReg) (a : XReg) (e : Word) (len : Nat) (s : State) : State :=
  s.storing (s.getX a + e) 8 (s.getF d).bits.toNat .write fun s => s.advance len

/-- LD (11 R140). -/
def execLd (d a : XReg) (z : Size) (e : BitVec 14) (s : State) : Out := .next (opLd d a z (disp14 e) 4 s)

/-- LDZ (11 R140). -/
def execLdz (d a : XReg) (z : Size) (e : BitVec 14) (s : State) : Out := .next (opLdz d a z (disp14 e) 4 s)

/-- ST (11 R140). -/
def execSt (d a : XReg) (z : Size) (e : BitVec 14) (s : State) : Out := .next (opSt d a z (disp14 e) 4 s)

/-- FLDW (11 R141). -/
def execFldw (d : FReg) (a : XReg) (e : BitVec 14) (s : State) : Out := .next (opFldw d a (disp14 e) 4 s)

/-- FLDD (11 R141). -/
def execFldd (d : FReg) (a : XReg) (e : BitVec 14) (s : State) : Out := .next (opFldd d a (disp14 e) 4 s)

/-- FSTW (11 R141). -/
def execFstw (d : FReg) (a : XReg) (e : BitVec 14) (s : State) : Out := .next (opFstw d a (disp14 e) 4 s)

/-- FSTD (11 R141). -/
def execFstd (d : FReg) (a : XReg) (e : BitVec 14) (s : State) : Out := .next (opFstd d a (disp14 e) 4 s)

/-- A B16 branch: to PC + 4 × sext(disp16) where the condition holds, else the next word (09 R116, 11 R142). -/
def branch (c : Word → Word → Bool) (a b : XReg) (d : BitVec 16) (s : State) : Out :=
  .next (s.jump (if c (s.getX a) (s.getX b) then s.me.pc + d.signExtend 64 * 4 else s.me.pc + 4))

/-- BEQ: branch if Xa = Xb (11 R142). -/
def execBeq (a b : XReg) (d : BitVec 16) (s : State) : Out := branch (fun x y => x == y) a b d s

/-- BNE: branch if Xa ≠ Xb (11 R142). -/
def execBne (a b : XReg) (d : BitVec 16) (s : State) : Out := branch (fun x y => x != y) a b d s

/-- BLT: branch if sext(Xa) < sext(Xb) (11 R142). -/
def execBlt (a b : XReg) (d : BitVec 16) (s : State) : Out := branch (fun x y => decide (x.toInt < y.toInt)) a b d s

/-- BGE: branch if sext(Xa) ≥ sext(Xb) (11 R142). -/
def execBge (a b : XReg) (d : BitVec 16) (s : State) : Out := branch (fun x y => decide (y.toInt ≤ x.toInt)) a b d s

/-- BLO: branch if zext(Xa) < zext(Xb) (11 R142). -/
def execBlo (a b : XReg) (d : BitVec 16) (s : State) : Out := branch (fun x y => decide (x.toNat < y.toNat)) a b d s

/-- BHS: branch if zext(Xa) ≥ zext(Xb) (11 R142). -/
def execBhs (a b : XReg) (d : BitVec 16) (s : State) : Out := branch (fun x y => decide (y.toNat ≤ x.toNat)) a b d s

/-- JL: Xd := PC + 4, then PC + 4 × sext(disp21) (11 R143, 09 R116). -/
def execJl (d : XReg) (j : BitVec 21) (s : State) : Out :=
  .next ((s.setX d (s.me.pc + 4)).jump (s.me.pc + j.signExtend 64 * 4))

/-- JLR with immediate k: Xd := the address past the instruction, then Xa + k with bits 1:0 clear; the target is read first
(11 R143). -/
def opJlr (d a : XReg) (k : Word) (len : Nat) (s : State) : State :=
  (s.setX d (s.me.pc + BitVec.ofNat 64 len)).jump ((s.getX a + k) &&& ~~~3#64)
/-- JLR (11 R143). -/
def execJlr (d a : XReg) (i : BitVec 16) (s : State) : Out := .next (opJlr d a (imm16 i) 4 s)

end Sys2Proof.Machine
end

