-- ==== Sys2Proof/Machine/Atomic.lean ====
section
/-! DEFINITION. Atomics: major 0x16 (11 R148 to R151). In this machine every access is performed at its place in one order, so the order and
scope of an atomic add nothing but the wait of a release for older vector memory work (log 4, 17 R253). -/
namespace Sys2Proof.Machine

/-- Bytes of an atomic: 4 or 8 (09 R117). -/
def amoBytes (z : Bool) : Nat := if z then 8 else 4
/-- Whether an order releases (09 R117). -/
def releases (o : Order) : Bool := match o with | .rel => true | .ar => true | _ => false

/-- The alignment check of 11 R148, then the effect. -/
def aligned (addr : Word) (n : Nat) (s : State) (k : State) : State :=
  if addr.toNat % n != 0 then s.trap causeIllop addr else k

/-- An AMO of 11 R148: one read and write of n bytes at Xa. `f` gives the value written from the old value, none where nothing
is written; `signed` the extension of the result. -/
def amo (d a : XReg) (o : Order) (z signed : Bool) (f : Nat → Option Nat) (s : State) : State :=
  let n := amoBytes z
  let addr := s.getX a
  aligned addr n s <|
    if releases o && !s.releaseReady then s
    else s.loading addr n .rmw fun old s' =>
      let res := BitVec.ofInt 64 (patternInt signed (8 * n) old)
      match f old with
      | none => s'.retX d res 4
      | some v =>
        match s'.write s'.myAgent addr n v .rmw with
        | .error e => s.memTrap e
        | .ok s'' => s''.retX d res 4

/-- The low n bytes of Xr. -/
def State.lowX (s : State) (r : XReg) (z : Bool) : Nat := (s.getX r).toNat % 2 ^ (8 * amoBytes z)

/-- The value that function fn of major 0x16 writes over `old`, n bytes wide, from Xb and, for AMOCAS, Xd; none where it writes nothing
(11 Table 11-4, R149). -/
def amoNew (fn n old x cmp : Nat) : Option Nat :=
  let sgn (v : Nat) : Int := patternInt true (8 * n) v
  match fn with
  | 0 => some x
  | 1 => if old == cmp then some x else none
  | 2 => some ((old + x) % 2 ^ (8 * n))
  | 3 => some (Nat.land old x)
  | 4 => some (Nat.lor old x)
  | 5 => some (Nat.xor old x)
  | 6 => some (if sgn old ≤ sgn x then old else x)
  | 7 => some (if sgn old ≤ sgn x then x else old)
  | 8 => some (min old x)
  | _ => some (max old x)

/-- An AMO of function fn, whose Xb is b and whose Xd is read first (11 R148, R149). -/
def opAmo (fn : Nat) (d a b : XReg) (o : Order) (z : Bool) (s : State) : State :=
  amo d a o z (fn < 8) (fun old => amoNew fn (amoBytes z) old (s.lowX b z) (s.lowX d z)) s

/-- AMOSWAP: the location becomes Xb (11 Table 11-4). -/
def execAmoswap (d a b : XReg) (o : Order) (_ : Scope) (z : Bool) (s : State) : Out := .next (opAmo 0 d a b o z s)
/-- AMOCAS: Xb is written where the location equals Xd (11 R149). -/
def execAmocas (d a b : XReg) (o : Order) (_ : Scope) (z : Bool) (s : State) : Out := .next (opAmo 1 d a b o z s)
/-- AMOADD: old + Xb (11 Table 11-4). -/
def execAmoadd (d a b : XReg) (o : Order) (_ : Scope) (z : Bool) (s : State) : Out := .next (opAmo 2 d a b o z s)
/-- AMOAND: old & Xb (11 Table 11-4). -/
def execAmoand (d a b : XReg) (o : Order) (_ : Scope) (z : Bool) (s : State) : Out := .next (opAmo 3 d a b o z s)
/-- AMOOR: old | Xb (11 Table 11-4). -/
def execAmoor (d a b : XReg) (o : Order) (_ : Scope) (z : Bool) (s : State) : Out := .next (opAmo 4 d a b o z s)
/-- AMOXOR: old ^ Xb (11 Table 11-4). -/
def execAmoxor (d a b : XReg) (o : Order) (_ : Scope) (z : Bool) (s : State) : Out := .next (opAmo 5 d a b o z s)
/-- AMOMIN: the signed minimum (11 Table 11-4). -/
def execAmomin (d a b : XReg) (o : Order) (_ : Scope) (z : Bool) (s : State) : Out := .next (opAmo 6 d a b o z s)
/-- AMOMAX: the signed maximum (11 Table 11-4). -/
def execAmomax (d a b : XReg) (o : Order) (_ : Scope) (z : Bool) (s : State) : Out := .next (opAmo 7 d a b o z s)
/-- AMOMINZ: the unsigned minimum (11 Table 11-4). -/
def execAmominz (d a b : XReg) (o : Order) (_ : Scope) (z : Bool) (s : State) : Out := .next (opAmo 8 d a b o z s)
/-- AMOMAXZ: the unsigned maximum (11 Table 11-4). -/
def execAmomaxz (d a b : XReg) (o : Order) (_ : Scope) (z : Bool) (s : State) : Out := .next (opAmo 9 d a b o z s)

/-- LDACQ: Xd := sext of n bytes at Xa, as an acquire (11 R151). -/
def execLdacq (d a : XReg) (_ : Scope) (z : Bool) (s : State) : Out :=
  let n := amoBytes z
  .next (aligned (s.getX a) n s (s.loading (s.getX a) n .read fun v s => s.retX d (BitVec.ofInt 64 (patternInt true (8 * n) v)) 4))

/-- STREL: the low n bytes of Xb go to Xa, as a release (11 R151). -/
def execStrel (a b : XReg) (_ : Scope) (z : Bool) (s : State) : Out :=
  let n := amoBytes z
  .next (aligned (s.getX a) n s
    (if !s.releaseReady then s else s.storing (s.getX a) n (s.lowX b z) .write fun s => s.advance 4))

end Sys2Proof.Machine
end

