-- ==== Sys2Proof/Machine/Float.lean ====
section
/-! DEFINITION. Scalar floating point: major 0x15 (11 R144 to R147). -/
namespace Sys2Proof.Machine

/-- The format of a code (09 R106). -/
def fpOf (t : FFmt) : Fp := match t with | .f64 => .fp64 | .f32 => .fp32 | .f16 => .fp16 | .bf16 => .bf16

/-- Fr as a value of format t. -/
def State.fval (s : State) (r : FReg) (t : FFmt) : FVal := (fpOf t).value ((s.getF r).bits.toNat % 2 ^ (fpOf t).width)
/-- Whether Fr carries tag t (09 R106). -/
def State.fTagged (s : State) (r : FReg) (t : FFmt) : Bool := (s.getF r).fmt == t

/-- The mode of a rounding function: the mode field, or FCSR.RM for DYN; none where FCSR.RM is no mode (03 R26, 11 R147). -/
def State.roundMode? (s : State) (r : RMode) : Option RMode := match r with | .dyn => dynMode? s.me.rm | m => some m

/-- A function that rounds into Fd: the tag check at decode (09 R106), the mode check at issue (03 R26), then the result and its flags
(11 R144). `srcs` are the registers read as format t. -/
def fpRound (w : IWord) (d : FReg) (srcs : List (FReg × FFmt)) (t : FFmt) (r : RMode) (f : RMode → RV × Flags) (s : State) : State :=
  if !(srcs.all fun x => s.fTagged x.1 x.2) then s.illOp w
  else match s.roundMode? r with
    | none => s.illInsn w
    | some m =>
      let v := f m
      let q := (fpOf t).round m s.me.sat v.1
      s.retFlags ((s.setF d t (BitVec.ofNat 64 q.1)).advance 4) (v.2 ||| q.2) w

/-- A function that writes a pattern of format t to Fd without rounding (11 R144). -/
def fpPattern (w : IWord) (d : FReg) (srcs : List FReg) (t : FFmt) (v : Nat × Flags) (s : State) : State :=
  if !(srcs.all fun x => s.fTagged x t) then s.illOp w
  else s.retFlags ((s.setF d t (BitVec.ofNat 64 v.1)).advance 4) v.2 w

/-- A function that writes Xd from operands of format t (11 R144). -/
def fpToX (w : IWord) (d : XReg) (srcs : List FReg) (t : FFmt) (v : Word × Flags) (s : State) : State :=
  if !(srcs.all fun x => s.fTagged x t) then s.illOp w
  else s.retFlags (s.retX d v.1 4) v.2 w

/-- FADD: Fd := round(Fa + Fb) (11 Table 11-2). -/
def execFadd (d a b : FReg) (t : FFmt) (r : RMode) (s : State) : Out :=
  .next (fpRound (encodeLast (.fadd d a b t r)) d [(a, t), (b, t)] t r (fun m => fpAdd m (s.fval a t) (s.fval b t)) s)

/-- FSUB: Fd := round(Fa − Fb) (11 Table 11-2). -/
def execFsub (d a b : FReg) (t : FFmt) (r : RMode) (s : State) : Out :=
  .next (fpRound (encodeLast (.fsub d a b t r)) d [(a, t), (b, t)] t r (fun m => fpAdd m (s.fval a t) (s.fval b t).negate) s)

/-- FMUL: Fd := round(Fa × Fb) (11 Table 11-2). -/
def execFmul (d a b : FReg) (t : FFmt) (r : RMode) (s : State) : Out :=
  .next (fpRound (encodeLast (.fmul d a b t r)) d [(a, t), (b, t)] t r (fun _ => fpMul (s.fval a t) (s.fval b t)) s)

/-- FDIV: Fd := round(Fa / Fb) (11 Table 11-2). -/
def execFdiv (d a b : FReg) (t : FFmt) (r : RMode) (s : State) : Out :=
  .next (fpRound (encodeLast (.fdiv d a b t r)) d [(a, t), (b, t)] t r (fun _ => fpDiv (s.fval a t) (s.fval b t)) s)

/-- FSQRT: Fd := round(√Fa) (11 Table 11-2). -/
def execFsqrt (d a : FReg) (t : FFmt) (r : RMode) (s : State) : Out :=
  .next (fpRound (encodeLast (.fsqrt d a t r)) d [(a, t)] t r (fun _ => fpSqrt (s.fval a t)) s)

/-- FMA: Fd := round(Fa × Fb + Fd), Fd being read as the addend (11 Table 11-2). -/
def execFma (d a b : FReg) (t : FFmt) (r : RMode) (s : State) : Out :=
  .next (fpRound (encodeLast (.fma d a b t r)) d [(a, t), (b, t), (d, t)] t r
    (fun m => fpFma m (s.fval a t) (s.fval b t) (s.fval d t)) s)

/-- The pattern that FMIN or FMAX writes (03 R40). -/
def fpMinMax (f : Fp) (isMax : Bool) (x y : Nat) : Nat × Flags :=
  let p := minMaxPick isMax (f.value x) (f.value y)
  (match p.1 with | none => f.canonicalNan | some false => x | some true => y, p.2)

/-- The low bits of Fr that a format holds. -/
def State.fpat (s : State) (r : FReg) (t : FFmt) : Nat := (s.getF r).bits.toNat % 2 ^ (fpOf t).width

/-- FMIN: minimumNumber (11 Table 11-2). -/
def execFmin (d a b : FReg) (t : FFmt) (r : RMode) (s : State) : Out :=
  .next (fpPattern (encodeLast (.fmin d a b t r)) d [a, b] t (fpMinMax (fpOf t) false (s.fpat a t) (s.fpat b t)) s)

/-- FMAX: maximumNumber (11 Table 11-2). -/
def execFmax (d a b : FReg) (t : FFmt) (r : RMode) (s : State) : Out :=
  .next (fpPattern (encodeLast (.fmax d a b t r)) d [a, b] t (fpMinMax (fpOf t) true (s.fpat a t) (s.fpat b t)) s)

/-- The weight of the sign bit of a format. -/
def signWeight (f : Fp) : Nat := 2 ^ (f.width - 1)
/-- A pattern with the sign bit inverted (03 R22). -/
def patNeg (f : Fp) (x : Nat) : Nat := if x < signWeight f then x + signWeight f else x - signWeight f
/-- A pattern with the sign bit cleared (03 R22). -/
def patAbs (f : Fp) (x : Nat) : Nat := x % signWeight f
/-- The magnitude of one pattern with the sign of another (03 R22). -/
def patCopySign (f : Fp) (x y : Nat) : Nat := x % signWeight f + (if y < signWeight f then 0 else signWeight f)

/-- FNEG: the sign bit of Fa inverted (11 Table 11-2). -/
def execFneg (d a : FReg) (t : FFmt) (r : RMode) (s : State) : Out :=
  .next (fpPattern (encodeLast (.fneg d a t r)) d [a] t (patNeg (fpOf t) (s.fpat a t), flNone) s)

/-- FABS: the sign bit of Fa cleared (11 Table 11-2). -/
def execFabs (d a : FReg) (t : FFmt) (r : RMode) (s : State) : Out :=
  .next (fpPattern (encodeLast (.fabs d a t r)) d [a] t (patAbs (fpOf t) (s.fpat a t), flNone) s)

/-- FCPS: the magnitude of Fa with the sign of Fb (11 Table 11-2). -/
def execFcps (d a b : FReg) (t : FFmt) (r : RMode) (s : State) : Out :=
  .next (fpPattern (encodeLast (.fcps d a b t r)) d [a, b] t (patCopySign (fpOf t) (s.fpat a t) (s.fpat b t), flNone) s)

/-- FEQ: Xd := 1 if equal; NV only for a signalling NaN (11 Table 11-2). -/
def execFeq (d : XReg) (a b : FReg) (t : FFmt) (r : RMode) (s : State) : Out :=
  let c := fpCompare 0 (s.fval a t) (s.fval b t)
  .next (fpToX (encodeLast (.feq d a b t r)) d [a, b] t (bool64 c.1, c.2) s)

/-- FLT: Xd := 1 if Fa < Fb; NV for any NaN (11 Table 11-2). -/
def execFlt (d : XReg) (a b : FReg) (t : FFmt) (r : RMode) (s : State) : Out :=
  let c := fpCompare 1 (s.fval a t) (s.fval b t)
  .next (fpToX (encodeLast (.flt d a b t r)) d [a, b] t (bool64 c.1, c.2) s)

/-- FLE: Xd := 1 if Fa ≤ Fb; NV for any NaN (11 Table 11-2). -/
def execFle (d : XReg) (a b : FReg) (t : FFmt) (r : RMode) (s : State) : Out :=
  let c := fpCompare 2 (s.fval a t) (s.fval b t)
  .next (fpToX (encodeLast (.fle d a b t r)) d [a, b] t (bool64 c.1, c.2) s)

/-- An FCVT from format g to an integer of w bits in Xd (11 R145, 03 Table 3-6). -/
def fcvtToInt (w : IWord) (d : XReg) (a : FReg) (t : FFmt) (r : RMode) (signed : Bool) (bits : Nat) (s : State) : State :=
  if !s.fTagged a t then s.illOp w
  else match s.roundMode? r with
    | none => s.illInsn w
    | some m =>
      let v := rvToInt signed bits m (s.fval a t).toRV
      s.retFlags (s.retX d (BitVec.ofInt 64 v.1) 4) v.2 w

/-- FCVT: the conversions of 11 Table 11-3. -/
def execFcvt (k : FcvtKind) (t : FFmt) (r : RMode) (s : State) : Out :=
  let w := encodeLast (.fcvt k t r)
  match k with
  | .ff g d a => .next (fpRound w d [(a, g)] t r (fun _ => ((s.fval a g).toRV, flNone)) s)
  | .fromS64 d a => .next (fpRound w d [] t r (fun _ => (.num (exOfInt (s.getX a).toInt), flNone)) s)
  | .fromZ64 d a => .next (fpRound w d [] t r (fun _ => (.num (exOfInt (s.getX a).toNat), flNone)) s)
  | .toS64 d a => .next (fcvtToInt w d a t r true 64 s)
  | .toZ64 d a => .next (fcvtToInt w d a t r false 64 s)
  | .toS32 d a => .next (fcvtToInt w d a t r true 32 s)
  | .toZ32 d a => .next (fcvtToInt w d a t r false 32 s)

/-- FMOVXF: bits w−1:0 of Xa to Fd, higher bits clear, tag f (11 Table 11-2). -/
def execFmovxf (d : FReg) (a : XReg) (t : FFmt) (_ : RMode) (s : State) : Out :=
  .next ((s.setF d t (BitVec.ofNat 64 ((s.getX a).toNat % 2 ^ (fpOf t).width))).advance 4)

/-- FMOVFX: all 64 bits of Fa to Xd, whatever its tag (11 Table 11-2). -/
def execFmovfx (d : XReg) (a : FReg) (_ : RMode) (s : State) : Out := .next (s.retX d (s.getF a).bits 4)

/-- FCLASS: the class code of Fa to Xd (11 R146). -/
def execFclass (d : XReg) (a : FReg) (t : FFmt) (r : RMode) (s : State) : Out :=
  .next (fpToX (encodeLast (.fclass d a t r)) d [a] t (BitVec.ofNat 64 ((fpOf t).classify (s.fpat a t)), flNone) s)

end Sys2Proof.Machine
end

