-- ==== Sys2Proof/Machine/Seq.lean ====
section
/-! DEFINITION. The plane sequencer of a core: unit work, frames and slots (05 R58, R59). -/
namespace Sys2Proof.Machine

/-- Operations of the core's own units, which need the plane's slots: section runs, matrix operations, graph runs (05 R59). -/
def OpKind.isUnit : OpKind → Bool
  | .run _ => true
  | .mat _ => true
  | .grun _ => true
  | _ => false

/-- Whether plane p has unit work (05 R59). -/
def State.unitWork (s : State) (p : PlaneId) : Bool :=
  !(s.plane p).vq.isEmpty || s.ops.any fun o => o.plane == p && OpKind.isUnit o.kind

/-- Whether plane p takes its slots: RUNNABLE, or ASLEEP or HALTED and served (05 R59). -/
def State.takesSlots (s : State) (p : PlaneId) : Bool :=
  match (s.plane p).st with
  | .free => false
  | .runnable => true
  | _ => s.unitWork p

/-- WEIGHT of PRIO (05 Table 5-7). -/
def Plane.weight (p : Plane) : Nat := (p.prio.extractLsb' 8 8).toNat
/-- LEVEL of PRIO (05 Table 5-7). -/
def Plane.prioLevel (p : Plane) : Nat := (p.prio.extractLsb' 0 5).toNat

/-- The four plane indices. -/
def planeIdx : List (Fin 4) := [0, 1, 2, 3]

/-- The plane of largest credit, the lowest index first (05 R58). -/
def bestCredit (c : Fin 4 → Int) (live : List (Fin 4)) : Option (Fin 4) :=
  live.foldl (fun b i => match b with | none => some i | some j => if c j < c i then some i else some j) none

/-- The slots of a frame from the weights of the resident planes, by the credits of 05 R58: n slots still to fill. -/
def fillFrame (live : List (Fin 4)) (w : Fin 4 → Int) (total : Int) : Nat → (Fin 4 → Int) → List (Fin 4)
  | 0, _ => []
  | n + 1, c =>
    let c := fun i => if live.contains i then c i + w i else c i
    match bestCredit c live with
    | none => []
    | some q => q :: fillFrame live w total n (fun i => if i == q then c i - total else c i)

/-- A new frame of core c (05 R58). -/
def State.newFrame (s : State) (c : CoreId) : List (Fin 4) :=
  let live := planeIdx.filter fun i => (s.plane (planeOf c i)).st != .free
  let w := fun i => ((s.plane (planeOf c i)).weight : Int)
  let total := live.foldl (fun a i => a + w i) 0
  fillFrame live w total total.toNat (fun _ => 0)

/-- The slots from the first whose plane takes it. -/
def State.dropIdle (s : State) (c : CoreId) : List (Fin 4) → List (Fin 4)
  | [] => []
  | i :: rest => if s.takesSlots (planeOf c i) then i :: rest else s.dropIdle c rest

/-- The core moves to the next slot of its frame whose plane takes it, else into a new frame, which begins under the SLOTLEN then in force,
else idles (05 R58, R59, 27 Table 27-6). -/
def State.nextSlot (s : State) (c : CoreId) : State :=
  let q := s.cores.get c
  let q' : CoreSeq := match s.dropIdle c q.frame with
    | i :: l => ⟨some i, l, s.cycle, q.len⟩
    | [] => match s.dropIdle c (s.newFrame c) with
      | i :: l => ⟨some i, l, s.cycle, s.slotLen⟩
      | [] => ⟨none, [], s.cycle, s.slotLen⟩
  { s with cores := s.cores.set c q' }

/-- Whether the core's slot ends now: its time has run out, its plane no longer takes it, or the core is idle and a plane is not
(05 R59). -/
def State.slotEnds (s : State) (c : CoreId) : Bool :=
  match (s.cores.get c).running with
  | some i => decide ((s.cores.get c).slotStart + (s.cores.get c).len ≤ s.cycle) || !s.takesSlots (planeOf c i)
  | none => planeIdx.any fun i => s.takesSlots (planeOf c i)

/-- Whether plane p holds its core's slot (05 R59). -/
def State.holdsSlot (s : State) (p : PlaneId) : Bool :=
  match (s.cores.get (coreOf p)).running with
  | some i => planeOf (coreOf p) i == p
  | none => false

/-- Event SLOT_BOUNDARY: where the slot of core c ends, the sequencer moves on (05 R59). -/
def execSlotBoundary (c : CoreId) (s : State) : Out := .next (if s.slotEnds c then s.nextSlot c else s)

end Sys2Proof.Machine
end

