-- ==== Sys2Proof/Machine/Sync.lean ====
section
/-! DEFINITION. Synchronisation: waits, timeline counters, group barriers, arrival counters, watermarks, events, and the wake-up
events that end waits (11 R152 to R165, 05 R67). -/
namespace Sys2Proof.Machine

/-- A waiting instruction has not retired: the strand is ASLEEP (11 R152). -/
def State.sleepOn (s : State) (w : Wait) : State := s.modMe fun p => { p with st := .asleep, wait := some w }
/-- A waiting instruction that leaves the plane RUNNABLE (11 R152). -/
def State.stallOn (s : State) (w : Wait) : State := s.modMe fun p => { p with st := p.awake, wait := some w }

/-- FENCE: orders the strand's accesses; it waits only for older vector memory work (11 R153, 17 R253). -/
def execFence (_ : Scope) (s : State) : Out := .next (if s.releaseReady then s.advance 4 else s)

/-- The end of a WAITTL on counter n at v, or its wait (11 R154). -/
def waitTl (n : TReg) (v : Nat) (s : State) : State :=
  if v ≤ (s.timeline s.cur n).value then
    (s.modMe fun p => { p with waited := p.waited.set n.toFin (max v (p.waited.get n.toFin)) }).advance 4
  else s.sleepOn (.waittl n v)

/-- WAITTL at issue: v beyond the issue number is an illegal operand (11 R154). -/
def opWaittl (w : IWord) (n : TReg) (v : Nat) (s : State) : State :=
  if (s.timeline s.cur n).issue < v then s.illOp w else waitTl n v s

/-- WAITTL Tn, Xa (11 R154). -/
def execWaittl (a : XReg) (n : TReg) (s : State) : Out := .next (opWaittl (encodeLast (.waittl a n)) n (s.getX a).toNat s)
/-- WAITTL Tn, #v (11 R154). -/
def execWaittlImm (v : BitVec 10) (n : TReg) (s : State) : Out := .next (opWaittl (encodeLast (.waittlImm v n)) n v.toNat s)

/-- TLREAD: the completed value of Tn (11 R155). -/
def execTlread (d : XReg) (n : TReg) (s : State) : Out := .next (s.retX d (BitVec.ofNat 64 (s.timeline s.cur n).value) 4)
/-- TLREAD.ISS: the issue number of Tn (11 R155). -/
def execTlreadIss (d : XReg) (n : TReg) (s : State) : Out := .next (s.retX d (BitVec.ofNat 64 (s.timeline s.cur n).issue) 4)

/-- TLBUMP: k null operations on Tn, complete at once; Xd := the new issue number (11 R155). -/
def execTlbump (d a : XReg) (n : TReg) (s : State) : Out :=
  let k := (s.getX a).toNat
  let t := s.timeline s.cur n
  .next (
    if !s.canIssue n k then s.illOp (encodeLast (.tlbump d a n))
    else if k == 0 then s.retX d (BitVec.ofNat 64 t.issue) 4
    else if !s.releaseReady then s
    else (s.modTimeline s.cur n fun t => { t with issue := t.issue + k }.complete (t.issue + 1) k).retX d (BitVec.ofNat 64 (t.issue + k)) 4)

/-- Entries of a queue of the issuing plane by its bit of 11 Table 11-6: LDQ, SDQ, BRQ, VQ, EQ. The access unit's queues hold something
only while it works for a vector instruction, the engine queue only while an operation has not completed (05 R47, log 5). -/
def State.queued (s : State) (k : Nat) : Nat :=
  match k with
  | 3 => s.me.vq.length
  | 4 => if s.ops.any fun o => o.plane == s.cur then (s.me.dq[3]?).getD 0 else 0
  | _ => if s.me.vq.isEmpty then 0 else (s.me.dq[k]?).getD 0

/-- Whether the queues that q names are empty (05 R47, 11 R156). -/
def State.queuesEmpty (s : State) (q : BitVec 5) : Bool := (List.range 5).all fun k => !q.getLsbD k || s.queued k == 0

/-- QDRAIN: waits, RUNNABLE, until the queues named are empty (11 R156, R152). -/
def execQdrain (q : BitVec 5) (s : State) : Out := .next (if s.queuesEmpty q then s.advance 4 else s.stallOn (.qdrain q))

/-! ### Groups -/

/-- The group table entry in slot k of GRPS, where VALID (05 Table 5-6). -/
def Plane.groupSlot (p : Plane) (k : BitVec 2) : Option Nat :=
  if p.grps.getLsbD (32 + k.toNat) then some (p.grps.extractLsb' (8 * k.toNat) 8).toNat else none

/-- Entry e of the group table. -/
def State.group (s : State) (e : Nat) : GroupEntry := s.groups.get ⟨e % 256, Nat.mod_lt _ (by decide)⟩
/-- Entry e of the group table replaced. -/
def State.setGroup (s : State) (e : Nat) (g : GroupEntry) : State :=
  { s with groups := s.groups.set (e % 256) g (Nat.mod_lt _ (by decide)) }

/-- The arrival of the issuing strand at entry e, one step: the last arrival clears the count and bits and inverts the generation
(11 R157). -/
def State.arrive (s : State) (e : Nat) : State :=
  let g := s.group e
  if g.count + 1 == g.members.length then s.setGroup e { g with count := 0, arrived := [], gen := !g.gen }
  else s.setGroup e { g with count := g.count + 1, arrived := g.arrived ++ [s.cur] }

/-- The entry of a GARRIVE or GBAR that may arrive: VALID, and no arrival made in this generation (11 R158). -/
def State.arrivable (s : State) (k : BitVec 2) : Option Nat :=
  match s.me.groupSlot k with
  | some e => if (s.group e).arrived.contains s.cur then none else some e
  | none => none

/-- GARRIVE: Xd := the generation, then the arrival (11 R157, R158). -/
def execGarrive (d : XReg) (k : BitVec 2) (s : State) : Out :=
  .next (match s.arrivable k with
    | none => s.illOp (encodeLast (.garrive d k))
    | some e => if !s.releaseReady then s else (s.arrive e).retX d (bool64 (s.group e).gen) 4)

/-- The wait of GWAIT and GBAR: until the generation of e differs from gen (11 R157). -/
def groupWait (e : Nat) (gen : Bool) (w : Wait) (s : State) : State :=
  if (s.group e).gen != gen then s.advance 4 else s.sleepOn w

/-- GWAIT (11 R157, R158). -/
def execGwait (a : XReg) (k : BitVec 2) (s : State) : Out :=
  .next (match s.me.groupSlot k with
    | none => s.illOp (encodeLast (.gwait a k))
    | some e => groupWait e ((s.getX a).getLsbD 0) (.gwait e ((s.getX a).getLsbD 0)) s)

/-- GBAR: an arrival whose generation is held, then the wait on it; one that has arrived only waits (11 R157 to R159). -/
def execGbar (k : BitVec 2) (s : State) : Out :=
  .next (match s.me.wait with
    | some (.gbar _ g) =>
      match s.me.groupSlot k with
      | some e => groupWait e g (.gbar (some e) g) s
      | none => s.illOp (encodeLast (.gbar k))
    | _ =>
      match s.arrivable k with
      | none => s.illOp (encodeLast (.gbar k))
      | some e => if !s.releaseReady then s else groupWait e (s.group e).gen (.gbar (some e) (s.group e).gen) (s.arrive e))

/-! ### Arrival counters, watermarks, events -/

/-- A read of n bytes that must lie in scratchpad, else kind FEAREA (07 R76, R86). -/
def State.readSpad (s : State) (ag : Agent) (va : Word) (n : Nat) : Except MemErr (Nat × State) :=
  match s.places ag .read true n va.toNat none with
  | .error e => .error e
  | .ok ps =>
    match s.readPlaces va.toNat ps with
    | .error a => .error (.memerr a)
    | .ok bs => .ok (leNat bs, s.leavePage ag va.toNat n)

/-- The evaluation of an ACWAIT: the counter at addr against thr (11 R160). -/
def acWait (d : XReg) (addr thr : Word) (s : State) : State :=
  match s.readSpad s.myAgent addr 8 with
  | .error e => s.memTrap e
  | .ok (v, s) => if thr.toNat ≤ v then s.retX d (BitVec.ofNat 64 v) 4 else s.sleepOn (.acwait d addr thr)

/-- ACWAIT: waits until the arrival counter at Xa reaches Xb; Xd := the value read last (11 R160). -/
def execAcwait (d a b : XReg) (s : State) : Out :=
  .next (aligned (s.getX a) 8 s
    (if s.vecConflict s.myAgent (s.getX a) 8 .read then s else acWait d (s.getX a) (s.getX b) s))

/-- Watermark w. -/
def State.wm (s : State) (w : WReg) : Watermark := s.wms.get w.toFin

/-- MARK advanced over the ranges that begin at or below it, and those below it dropped (15 R231, 05 R67). -/
def joinRanges (mark : Nat) : List (Nat × Nat) → Nat × List (Nat × Nat)
  | [] => (mark, [])
  | (lo, hi) :: rest => if lo ≤ mark then joinRanges (max mark hi) rest else (mark, (lo, hi) :: rest)

/-- The largest mark (05 R67). -/
def maxMark : Nat := 2 ^ 48 - 1

/-- A publication of v on watermark w (05 R67, 11 R161). -/
def State.publish (s : State) (w : WReg) (v : Nat) : State :=
  let m := s.wm w
  let r := joinRanges (max m.mark (min v maxMark)) m.ranges
  { s with wms := s.wms.set w.toFin { m with mark := min r.1 maxMark, ranges := r.2 } }

/-- Whether plane p may publish on w: its cohort is the producer, or it runs at S level (05 R67, log 14). -/
def State.mayPublish (s : State) (p : PlaneId) (w : WReg) : Bool :=
  (s.plane p).level == .s ||
  match s.cohort? (s.plane p).coh with
  | some k => k.rcd.wms.any fun e => e.1 == w.toNat && e.2.1
  | none => false

/-- Whether plane p may wait on w: its cohort names it, or it runs at S level (15 R230). -/
def State.mayConsume (s : State) (p : PlaneId) (w : WReg) : Bool :=
  (s.plane p).level == .s ||
  match s.cohort? (s.plane p).coh with
  | some k => k.rcd.wms.any fun e => e.1 == w.toNat
  | none => false

/-- WMPUB of value v (11 R161). -/
def opWmpub (iw : IWord) (w : WReg) (v : Nat) (s : State) : State :=
  if !s.mayPublish s.cur w then s.illOp iw
  else if !s.releaseReady then s
  else (s.publish w v).advance 4
/-- WMPUB Wn, Xa (11 R161). -/
def execWmpub (a : XReg) (w : WReg) (s : State) : Out := .next (opWmpub (encodeLast (.wmpub a w)) w (s.getX a).toNat s)
/-- WMPUB Wn, #v (11 R161). -/
def execWmpubImm (v : BitVec 10) (w : WReg) (s : State) : Out := .next (opWmpub (encodeLast (.wmpubImm v w)) w v.toNat s)

/-- WMREAD: GEN ‖ MARK to Xd (11 R161). -/
def execWmread (d : XReg) (w : WReg) (s : State) : Out :=
  .next (s.retX d (BitVec.ofNat 64 ((s.wm w).gen % 65536 * 2 ^ 48 + (s.wm w).mark)) 4)

/-- YIELD: the rest of the slot is given up (11 R162, 05 R59). -/
def execYield (s : State) : Out := .next ((s.advance 4).nextSlot (coreOf s.cur))

/-- The evaluation of a SLEEP (11 R163). -/
def sleepWait (d : XReg) (mask : Word) (deadline : Option Nat) (s : State) : State :=
  let hit := s.me.events &&& mask
  if hit ≠ 0 then (s.modMe fun p => { p with events := p.events &&& ~~~hit }).retX d hit 4
  else match deadline with
    | some t => if t ≤ s.cycle then s.retX d 0 4 else s.sleepOn (.sleep d mask deadline)
    | none => s.sleepOn (.sleep d mask deadline)

/-- SLEEP: until a masked event is pending, or Xb clk have passed since issue (11 R163). -/
def execSleep (d a b : XReg) (s : State) : Out :=
  .next (match s.me.wait with
    | some (.sleep d' m t) => sleepWait d' m t s
    | _ =>
      if s.getX a = 0 && s.getX b = 0 then s.illOp (encodeLast (.sleep d a b))
      else sleepWait d (s.getX a) (if s.getX b = 0 then none else some (s.cycle + (s.getX b).toNat)) s)

/-- Event bits set for the strand of a rank: in its plane, or held while it is not resident (11 R164). -/
def State.post (s : State) (k : Cohort) (rank : Nat) (bits : Word) : State :=
  match k.st, k.planes[rank]? with
  | .resident, some p => s.modPlane p fun pl => { pl with events := pl.events ||| bits }
  | _, _ => s.modCohort k.num fun k => { k with posts := k.posts.modify rank (· ||| bits) }

/-- EVPOST: sets event bits of the strand that Xa names, with a status (11 R164). -/
def execEvpost (d a b : XReg) (s : State) : Out :=
  let x := (s.getX a).toNat
  let num := x / 65536 % 65536
  let own := s.me.coh
  let num' := if num == 0xFFFF then own else num
  .next (
    if x / 2 ^ 32 != 0 then s.illOp (encodeLast (.evpost d a b))
    else if s.me.level == .u && num' != own then s.retX d 2 4
    else match s.cohort? num' with
      | none => s.retX d 1 4
      | some k =>
        if k.rcd.nstrand ≤ x % 65536 then s.retX d 1 4
        else (s.post k (x % 65536) (s.getX b)).retX d 0 4)

/-! ### Wake-up events -/

/-- An effect of the strand of plane p, as if it were the issuing strand. -/
def State.asPlane (s : State) (p : PlaneId) (f : State → State) : State := { f { s with cur := p } with cur := s.cur }

/-- The wait of plane p, unless it is FREE. -/
def State.waitOf (s : State) (p : PlaneId) : Option Wait := if (s.plane p).st == .free then none else (s.plane p).wait

/-- Event WAITTL_WAKE of plane p: a waiting WAITTL completes once its counter has reached its value (11 R154). -/
def execWaittlWake (p : PlaneId) (s : State) : Out :=
  .next (match s.waitOf p with | some (.waittl n v) => s.asPlane p (waitTl n v) | _ => s)
/-- Event SLEEP_WAKE of plane p: a masked event bit is pending (11 R163). -/
def execSleepWake (p : PlaneId) (s : State) : Out :=
  .next (match s.waitOf p with
    | some (.sleep d m t) => if (s.plane p).events &&& m ≠ 0 then s.asPlane p (sleepWait d m t) else s
    | _ => s)
/-- Event SLEEP_TIMEOUT of plane p: the count of clk has expired, and the SLEEP writes 0 (11 R163). -/
def execSleepTimeout (p : PlaneId) (s : State) : Out :=
  .next (match s.waitOf p with
    | some (.sleep d m (some t)) => if (s.plane p).events &&& m = 0 then s.asPlane p (sleepWait d m (some t)) else s
    | _ => s)
/-- Event BARRIER_WAKE of plane p: the generation its GWAIT or GBAR waits on has changed (11 R157). -/
def execBarrierWake (p : PlaneId) (s : State) : Out :=
  .next (match s.waitOf p with
    | some (.gwait e g) => s.asPlane p (groupWait e g (.gwait e g))
    | some (.gbar (some e) g) => s.asPlane p (groupWait e g (.gbar (some e) g))
    | _ => s)
/-- Event ACWAIT_WAKE of plane p: the arrival counter has reached the threshold (11 R160). -/
def execAcwaitWake (p : PlaneId) (s : State) : Out :=
  .next (match s.waitOf p with | some (.acwait d a t) => s.asPlane p (acWait d a t) | _ => s)
/-- Event QDRAIN_RELEASE of plane p: the queues named have become empty (11 R156). -/
def execQdrainRelease (p : PlaneId) (s : State) : Out :=
  .next (match s.waitOf p with
    | some (.qdrain q) => s.asPlane p fun s => if s.queuesEmpty q then s.advance 4 else s
    | _ => s)

end Sys2Proof.Machine
end

