-- ==== Sys2Proof/Machine/System.lean ====
section
/-! DEFINITION. Control registers, system instructions, the tag table, full/empty and zero-summary instructions, and the vector
configuration (11 R170 to R179, 09 R109, 13 R180 to R183, 17 R254). -/
namespace Sys2Proof.Machine

/-- Queue position of the oldest vector instruction not completed, or of the next (05 R46, 13 R183). -/
def Plane.vcp (p : Plane) : BitVec 16 := match p.vq with | e :: _ => e.qpos | [] => p.qnext

/-- The value CFGGET writes (13 Table 13-2). -/
def cfgWord (lg : BitVec 2) (t : Tag) (vl : Nat) : Nat := lg.toNat * 2 ^ 24 + t.code.toNat * 2 ^ 16 + vl % 2 ^ 14

/-- Word w of a resume entry (17 Table 17-6). -/
def VEntry.word (e : VEntry) (w : Nat) : Word :=
  match w with
  | 0 => BitVec.ofNat 64 (e.w.toNat * 2 ^ 32 + e.prog % 65536 * 2 ^ 16 + e.qpos.toNat)
  | 1 =>
    let k := match e.pfx with | some k => k.toNat * 2 ^ 38 + 2 ^ 37 | none => 0
    BitVec.ofNat 64 (k + b2n e.sat * 2 ^ 35 + e.rm.toNat * 2 ^ 32 + cfgWord e.lg e.tag e.vl)
  | 2 => e.xa
  | _ => e.xb

/-- What RFRAME reads: word SEL mod 4 of entry SEL div 4, zero at or beyond NRES (17 R254). -/
def Plane.rframeRead (p : Plane) : Word :=
  match p.resume[p.sel.toNat / 4]? with
  | some e => e.word (p.sel.toNat % 4)
  | none => 0

/-- The value of a control register of the issuing plane (09 Table 9-2). -/
def State.crRead (s : State) (c : CReg) : Word :=
  let p := s.me
  match c with
  | .fcsr => p.fcsr
  | .fex0 => p.fex0
  | .fex1 => p.fex1
  | .vcp => p.vcp.zeroExtend 64
  | .planeid => BitVec.ofNat 64 (s.pkg * 65536 + s.cur.val)
  | .grps => p.grps
  | .prio => p.prio
  | .cycle => BitVec.ofNat 64 s.cycle
  | .tvec => p.tvec
  | .tcause => p.tcause
  | .tpc => p.tpc
  | .tval => p.tval
  | .tstat => p.tstat
  | .rframe => p.rframeRead
  | .xroot => p.xroot
  | .quota => p.quota

/-- A write to XROOT: ROOT alone, and every translation the plane holds is invalidated (07 R73). -/
def Plane.writeXroot (p : Plane) (v : Word) : Plane := { p with xroot := v &&& 0x0000FFFFFFFFF000#64, held := [] }

/-- A write to TSTAT: NRES = 0 discards the resume entries, any other NRES is ignored; ARGEN, ARRIVED, INH and PPL are written; SVCP
and VTRAP are read-only (17 Table 17-5). -/
def Plane.writeTstat (p : Plane) (v : Word) : Plane :=
  let keep := p.tstat &&& ~~~0x1E#64 ||| (v &&& 0x1E#64)
  if v.extractLsb' 8 7 = 0 then { p with tstat := keep &&& ~~~0x7F00#64, resume := [] } else { p with tstat := keep }

/-- A write to RFRAME: the selector (17 R254). -/
def Plane.writeRframe (p : Plane) (v : Word) : Plane := { p with sel := v.extractLsb' 0 8 }

/-- A write to a control register of the issuing plane; read-only registers and fields keep their values (09 R109, 00 R4, R5). -/
def State.crWrite (s : State) (c : CReg) (v : Word) : State :=
  s.modMe fun p => match c with
  | .fcsr => { p with fcsr := fcsrWrite v }
  | .fex0 => { p with fex0 := v }
  | .fex1 => { p with fex1 := v }
  | .tvec => { p with tvec := v &&& ~~~3#64 }
  | .tcause => { p with tcause := v &&& 0xFF0FFF#64 }
  | .tpc => { p with tpc := v }
  | .tval => { p with tval := v }
  | .tstat => p.writeTstat v
  | .rframe => p.writeRframe v
  | .xroot => p.writeXroot v
  | .vcp => p | .planeid => p | .grps => p | .prio => p | .cycle => p | .quota => p

/-- Control registers that a U-level strand may not reach (09 Table 9-2). -/
def crSOnly (c : CReg) : Bool :=
  match c with
  | .tvec => true | .tcause => true | .tpc => true | .tval => true | .tstat => true | .rframe => true | .xroot => true
  | _ => false

/-- Control registers whose access waits for older vector instructions (11 R170). -/
def crWaits (c : CReg) : Bool := match c with | .fcsr => true | .fex0 => true | .fex1 => true | _ => false

/-- The step of a CRGET, CRPUT or CRSWAP: the old value to Xd where one is named, v written where one is given (11 R170). -/
def crStep (d : Option XReg) (c : CReg) (v : Option Word) (s : State) : State :=
  let old := s.crRead c
  let s := match v with | some x => s.crWrite c x | none => s
  (match d with | some r => s.setX r old | none => s).advance 4

/-- A CRGET, CRPUT or CRSWAP: the level check, the wait for older vector instructions, the step (09 R109, 11 R170). -/
def crAccess (w : IWord) (d : Option XReg) (c : CReg) (v : Option Word) (s : State) : State :=
  if crSOnly c && s.me.level == .u then s.privTrap w
  else if crWaits c && !s.queueEmpty then s.stallOn (.fcsr d c v)
  else crStep d c v s

/-- CRGET: the register to Xd (11 R170). -/
def execCrget (d : XReg) (c : CReg) (s : State) : Out := .next (crAccess (encodeLast (.crget d c)) (some d) c none s)
/-- CRPUT: Xa to the register (11 R170). -/
def execCrput (a : XReg) (c : CReg) (s : State) : Out := .next (crAccess (encodeLast (.crput a c)) none c (some (s.getX a)) s)
/-- CRSWAP: Xa to the register, the old value to Xd, one step (11 R170). -/
def execCrswap (d a : XReg) (c : CReg) (s : State) : Out :=
  .next (crAccess (encodeLast (.crswap d a c)) (some d) c (some (s.getX a)) s)

/-- Event XROOT_WRITE: the part of a CRPUT or CRSWAP of XROOT that writes v on the issuing plane (07 R73). -/
def execXrootWrite (v : Word) (s : State) : Out := .next (s.modMe fun p => p.writeXroot v)
/-- Event TSTAT_WRITE: the part of a CRPUT or CRSWAP of TSTAT that writes v on the issuing plane (17 R250). -/
def execTstatWrite (v : Word) (s : State) : Out := .next (s.modMe fun p => p.writeTstat v)
/-- Event RFRAME_WRITE: the part of a CRPUT or CRSWAP of RFRAME that writes v on the issuing plane (17 R254). -/
def execRframeWrite (v : Word) (s : State) : Out := .next (s.modMe fun p => p.writeRframe v)
/-- Event FCSR_ACCESS of plane p: an access that waited for older vector instructions takes its step once they have completed
(11 R170). -/
def execFcsrAccess (p : PlaneId) (s : State) : Out :=
  .next (match s.waitOf p with
    | some (.fcsr d c v) => if (s.plane p).vq.isEmpty then s.asPlane p (crStep d c v) else s
    | _ => s)

/-- ECALL: the system-call trap, TVAL zero (11 R172). -/
def execEcall (s : State) : Out := .next (s.trap causeSyscall 0)
/-- EBREAK: the breakpoint trap, TVAL zero (11 R172). -/
def execEbreak (s : State) : Out := .next (s.trap causeBreak 0)
/-- RTE: the return from a trap, at S level (17 R258, 11 R172). -/
def execRte (s : State) : Out := .next (s.atS (encodeLast .rte) State.returnFromTrap)
/-- HALTS: the plane becomes HALTED once every older vector instruction has completed (11 R173). -/
def execHalts (s : State) : Out :=
  .next (if s.queueEmpty then s.modMe fun p => { p with st := .halted, wait := none } else s)
/-- IFENCE: later fetches see every write that happens before it. A fetch sees every write performed (log 4), so it waits for the strand's
own queued accesses, and for the acquires that are queued, the pieces of CONSUME streams among them (11 R176, 25 R373). -/
def execIfence (s : State) : Out :=
  .next (if s.releaseReady && s.me.vq.all (fun e => !e.acquires s.me) then s.advance 4 else s)

/-- Whether plane q is within a scope taken from plane p (07 Table 7-8). -/
def inScope (c : Scope) (p q : PlaneId) : Bool :=
  match c with
  | .plane => p == q
  | .core => coreOf p == coreOf q
  | .die => p.val / 256 == q.val / 256
  | _ => true

/-- The translations of the issuing plane's ROOT that satisfy a test, removed from every plane within a scope (11 R174). -/
def State.dropHeld (s : State) (c : Scope) (sel : Held → Bool) : State :=
  let root := rootOf s.me.xroot
  { s with planes := s.planes.mapFinIdx fun i p h =>
      if inScope c s.cur ⟨i, h⟩ then { p with held := p.held.filter fun t => !(t.root == root && sel t) } else p }

/-- The translations of an operation changed. -/
def OpKind.mapHolds (f : XFrame → XFrame) : OpKind → OpKind
  | .copy j xl => .copy j (xl.map f)
  | .rret h r e xl => .rret h r e (xl.map f)
  | .run r => .run { r with xl := r.xl.map f }
  | .mat m => .mat { m with xl := m.xl.map f }
  | .grun r => .grun { r with xl := r.xl.map f }
  | .cstart c => .cstart { c with xl := c.xl.map f }
  | .csend k va xl => .csend k va (xl.map f)
  | .cfetch k va xl => .cfetch k va (xl.map f)
  | k => k
/-- The translations that an operation holds (15 R237, 19 R293). -/
def OpKind.holds : OpKind → List XFrame
  | .copy _ xl => xl
  | .rret _ _ _ xl => xl
  | .run r => r.xl
  | .mat m => m.xl
  | .grun r => r.xl
  | .cstart c => c.xl
  | .csend _ _ xl => xl
  | .cfetch _ _ xl => xl
  | _ => []

/-- Whether a translation of an operation is of a root and satisfies a test, given the address of its frame and the bytes of its page. -/
def XFrame.hit (root : Nat) (sel : Nat → Nat → Bool) (x : XFrame) : Bool := x.span != 0 && x.root == root && sel (x.vframe * 65536) x.span

/-- Whether an operation of a plane within a scope, suspended ones of evicted strands included, holds a translation of the issuing plane's
ROOT that satisfies a test (11 R174, 15 R237). -/
def State.opHolds (s : State) (c : Scope) (sel : Nat → Nat → Bool) : Bool :=
  let hit := XFrame.hit (rootOf s.me.xroot) sel
  s.ops.any (fun o => inScope c s.cur o.plane && o.kind.holds.any hit) ||
    s.suspended.any (fun x => inScope c s.cur x.1 && x.2.ops.any fun o => o.kind.holds.any hit) ||
    s.routes.any fun r => inScope c s.cur r.plane && r.xl.any hit

/-- The translations of the issuing plane's ROOT that satisfy a test and lie in contexts that CTXSV saved are walked afresh once they are
loaded (11 R174). -/
def State.dropSaved (s : State) (sel : Nat → Nat → Bool) : State :=
  let hit := XFrame.hit (rootOf s.me.xroot) sel
  let mark (x : XFrame) : XFrame := if hit x then { x with stale := true } else x
  let away := (s.cohorts.filter fun k => k.st == .evicted).flatMap (·.saved)
  { s with parked := s.parked.mapIdx fun i e => if away.contains i then e else { e with
      ops := e.ops.map fun o => { o with kind := o.kind.mapHolds mark }
      routes := e.routes.map fun r => { r with xl := r.xl.map mark } } }

/-- XINV: the translations that satisfy a test go, and it retires once no operation holds one (11 R174). -/
def opXinv (w : IWord) (c : Scope) (sel : Nat → Nat → Bool) (s : State) : State :=
  s.atS w fun s =>
    let s := (s.dropHeld c fun h => sel (h.vframe * 65536) h.span).dropSaved sel
    if s.opHolds c sel then s else s.advance 4
/-- XINV of every translation (11 R174). -/
def execXinv (c : Scope) (s : State) : Out := .next (opXinv (encodeLast (.xinv c)) c (fun _ _ => true) s)
/-- XINV of the page, of any size, that contains Xa (11 R174). -/
def execXinvPage (a : XReg) (c : Scope) (s : State) : Out :=
  .next (opXinv (encodeLast (.xinvPage a c)) c (fun va span => va / span == (s.getX a).toNat / span) s)

/-- The stream of plane p that asks for the page of an address, and the root at which its walk begins: the memory instruction at the head of
its queue where its next element lies in the page, under the root with which it was queued, else the scalar load-store port (07 R73, R77). -/
def State.refillAsks (s : State) (p : PlaneId) (va : Nat) : AddrStream × Nat :=
  let port : AddrStream × Nat := (.scalar, rootOf (s.plane p).xroot)
  match (s.plane p).vq with
  | e :: _ =>
    if e.major == 0x27 || e.major == 0x28 then
      match s.walk va 5 4 e.root with
      | .ok l => if (e.span (s.plane p) e.prog).1 / l.span == va / l.span then (.vector e.qpos, e.root) else port
      | .error _ => port
    else port
  | [] => port

/-- Event WALK_REFILL for address va of plane p: the walker returns the translation to the stream that asks, in place of the one it holds;
the stream holds it until it leaves the page or XINV removes it (07 R77). A failed walk is held by nobody. -/
def execWalkRefill (p : PlaneId) (va : Word) (s : State) : Out :=
  .next (
    if (s.plane p).st == .free || va.toNat / 2 ^ 57 != 0 then s
    else
      let asks := s.refillAsks p va.toNat
      match s.walk va.toNat 5 4 asks.2 with
      | .error _ => s
      | .ok l =>
        if s.formOf l.frame != l.form then s
        else
          s.modPlane p fun pl => { pl with
            held := ⟨asks.1, va.toNat / 65536, l.span, l.frame, l.form == 2, l.r, l.w, l.x, l.u, asks.2⟩ ::
              pl.held.filter fun h => h.stream != asks.1 })

/-! ### Tag table -/

/-- TLOOK: SLOT of the lowest valid entry whose key is Xa[47:0], all ones on a miss (11 R177). -/
def execTlook (d a : XReg) (s : State) : Out :=
  let key := (s.getX a).extractLsb' 0 48
  .next (s.retX d (match s.me.tags.toList.find? fun e => e.getLsbD 63 && e.extractLsb' 0 48 == key with
    | some e => (e.extractLsb' 48 15).zeroExtend 64
    | none => BitVec.allOnes 64) 4)

/-- TSET: entry Xa := 1 ‖ Xb[62:0] (11 R177). -/
def execTset (a b : XReg) (s : State) : Out :=
  let i := (s.getX a).toNat
  .next (if h : i < 256 then (s.modMe fun p => { p with tags := p.tags.set i (s.getX b ||| (1#64 <<< 63)) h }).advance 4
    else s.illOp (encodeLast (.tset a b)))

/-- TINV: the old entry Xa to Xd, the entry zero (11 R177). -/
def execTinv (d a : XReg) (s : State) : Out :=
  let i := (s.getX a).toNat
  .next (if h : i < 256 then (s.modMe fun p => { p with tags := p.tags.set i 0 h }).retX d (s.me.tags.get ⟨i, h⟩) 4
    else s.illOp (encodeLast (.tinv d a)))

/-- TCLR: every entry zero (11 R177). -/
def execTclr (s : State) : Out := .next ((s.modMe fun p => { p with tags := Vector.replicate 256 0 }).advance 4)

/-! ### Full/empty and zero-summary -/

/-- An access to the granule that contains Xa, which must lie in scratchpad (11 R178); it waits for older vector accesses to the granule
(17 R253). -/
def State.granule (s : State) (a : Word) (acc : Acc) (k : Place → State → State) : State :=
  if s.vecConflict s.myAgent (a &&& ~~~15#64) 16 acc then s
  else match s.places s.myAgent acc true 1 a.toNat none with
  | .ok [p] => k p (s.leavePage s.myAgent a.toNat 1)
  | .ok _ => s
  | .error e => s.memTrap e

/-- FEGET: 1 to Xd if the granule is FULL (11 R178). -/
def execFeget (d a : XReg) (s : State) : Out :=
  .next (s.granule (s.getX a) .read fun p s => s.retX d (bool64 (s.feGet p)) 4)
/-- FESET: the granule becomes FULL, as a release (11 R178; it waits for older vector memory work, log 15). -/
def execFeset (a : XReg) (s : State) : Out :=
  .next (if s.releaseReady then s.granule (s.getX a) .write fun p s => (s.feSet p true).advance 4 else s)
/-- FECLR: the granule becomes EMPTY (11 R178). -/
def execFeclr (a : XReg) (s : State) : Out :=
  .next (s.granule (s.getX a) .write fun p s => (s.feSet p false).advance 4)

/-- The core whose scratchpad a global address names for the scalar port of the issuing plane, whatever its permissions. -/
def State.coreNamed (s : State) (va : Nat) : Option Nat :=
  let leaf : Except WalkErr Leaf := match s.heldFor s.myAgent va with
    | some h => .ok (h.leaf va)
    | none => s.walk va 5 4 (rootOf s.me.xroot)
  match leaf with
  | .ok l => match s.frameAt l.frame (l.form == 2) with | .ok f => some f.core | .error _ => none
  | .error _ => none

/-- The blocks a ZSCAN examines, each the places of its 256 bytes; the fault of the lowest address: its own, or FEAREA where the
range leaves its scratchpad, which goes before PERM (11 R179, 07 R76). -/
def State.scanBlocks (s : State) (va : Nat) : (n : Nat) → Option Nat → Except MemErr (List (List Place))
  | 0, _ => .ok []
  | n + 1, core =>
    match s.places s.myAgent .read true 256 va none with
    | .error (.xlate .perm a) =>
      .error (.xlate (if core.isSome && core != s.coreNamed va then .fearea else .perm) a)
    | .error e => .error e
    | .ok ps =>
      let c := (ps.head?.map (·.core)).getD 0
      if core.isSome && core != some c then .error (.xlate .fearea (BitVec.ofNat 64 va))
      else match s.scanBlocks ((va + 256) % 2 ^ 64) n (some c) with
        | .error e => .error e
        | .ok bs => .ok (ps :: bs)

/-- ZSCAN: the number of zero blocks among Xb from the one that holds Xa; each such block's zero-summary bit is set (11 R179). It waits for
older vector accesses to those blocks (17 R253). DESIGN CHOICE (log 58): TVAL of an uncorrectable error is the first address of its block. -/
def execZscan (d a b : XReg) (s : State) : Out :=
  let n := (s.getX b).toNat
  let start := (s.getX a).toNat / 256 * 256
  .next (
    if 8192 < n then s.illOp (encodeLast (.zscan d a b))
    else if s.vecConflict s.myAgent (BitVec.ofNat 64 start) (256 * n) .read then s
    else match s.scanBlocks start n none with
      | .error e => s.memTrap e
      | .ok bs =>
        match (bs.zipIdx.find? fun x => match s.readPlaces 0 x.1 with | .error _ => true | .ok _ => false) with
        | some x => s.memTrap (.memerr (BitVec.ofNat 64 (start + 256 * x.2)))
        | none =>
          let zero := bs.filter fun ps => ps.all fun p => s.byte p.pa == 0
          (zero.foldl (fun s ps => match ps with | p :: _ => s.zsSet p true | [] => s) (s.leavePage s.myAgent start (256 * n))).retX d (BitVec.ofNat 64 zero.length) 4)

/-! ### Vector configuration -/

/-- SETVL: VL := min(Xa, vlmax), the current tag and G; Xd := VL (13 R181). -/
def execSetvl (d a : XReg) (t : Tag) (g : BitVec 2) (s : State) : Out :=
  let vl := min (s.getX a).toNat (vlmax t (2 ^ g.toNat))
  .next ((s.modMe fun p => { p with vl := vl, lg := g, tag := t }).retX d (BitVec.ofNat 64 vl) 4)

/-- CFGGET: the configuration to Xd (13 R182). -/
def execCfgget (d : XReg) (s : State) : Out := .next (s.retX d (BitVec.ofNat 64 (cfgWord s.me.lg s.me.tag s.me.vl)) 4)

/-- VCPGET: VCP and the next queue position to Xd (13 R183). -/
def execVcpget (d : XReg) (s : State) : Out :=
  .next (s.retX d (BitVec.ofNat 64 (s.me.vcp.toNat + 65536 * s.me.qnext.toNat)) 4)

end Sys2Proof.Machine
end

