-- ==== Sys2Proof/Machine/VPlan.lean ====
section
/-! DEFINITION. What a vector computation instruction checks when it commits, which registers it tags, and whether it uses the
dynamic rounding mode (13 R184 to R219, 09 R111, R112, 03 R26). Majors 0x21 to 0x26. -/
namespace Sys2Proof.Machine

/-- The outcome of the checks at commit (09 Table 9-7). -/
inductive VChk where
  | ok | illinsn | illop
  deriving DecidableEq, Repr

/-- A plan: the checks' outcome, the register groups that take a tag (first register, count, tag), whether a result is rounded in
FCSR.RM, the width of the reference operand, and whether groups overlap as the whole class alone may have them. -/
structure VPlan where
  chk : VChk
  dst : List (Nat × Nat × Tag)
  rounds : Bool
  wref : Nat
  clash : Bool
  deriving DecidableEq, Repr

/-- A view of the tags of the vector registers. -/
abbrev TagView := Nat → Tag

/-- A failed check. -/
def VPlan.fail (c : VChk) : VPlan := ⟨c, [], false, 8, false⟩

/-- Whether all n registers from r carry t (09 R112). -/
def TagView.uniform (tv : TagView) (r n : Nat) (t : Tag) : Bool := (List.range n).all fun j => tv (r + j) == t

/-- The checks in the order of 09 Table 9-7: `ill` the illegal-instruction conditions, `op` the illegal-operand conditions. -/
def VPlan.check (ill op : List Bool) (dst : List (Nat × Nat × Tag)) (rounds : Bool) (wref : Nat) (clash : Bool := false) : VPlan :=
  ⟨if ill.any id then .illinsn else if op.any id then .illop else .ok, dst, rounds, wref, clash⟩

/-- The plan of an instruction that touches a bound group, or none: one that touches a bound group is in the whole class, where any overlap
is permitted; the others may not overlap groups of different counts (13 R187, R191). -/
def VPlan.settle (pl : VPlan) (bound : Bool) : VPlan := if pl.clash && !bound then { pl with chk := .illinsn } else pl

/-- Z of the width of a tag. -/
def zOfWidth (w : Nat) : Tag := match w with | 8 => .z8 | 16 => .z16 | 32 => .z32 | _ => .z64

/-- Whether function fn of major 0x21 accepts tag t (13 Table 13-4). -/
def arithAccepts (fn : Nat) (t : Tag) : Bool :=
  let f := tagIsF t; let f8 := tagIsF8 t; let si := tagIsS t; let z := tagIsZ t
  match fn with
  | 0 | 1 | 2 | 3 | 4 | 5 => f || si || z
  | 6 => f || f8 || si
  | 7 => f || f8 || si || z
  | 8 | 9 | 10 | 11 => f
  | 12 | 13 | 14 | 15 | 16 | 17 | 18 | 19 | 20 | 21 | 22 | 23 => si || z
  | 24 | 25 => t != .none
  | 26 | 27 => f || f8
  | 28 | 29 | 30 => t == .m32
  | _ => true

/-- Functions of major 0x21 with one source. -/
def arithUnary (fn : Nat) : Bool := fn == 6 || fn == 7 || fn == 8 || fn == 15 || fn == 22 || fn == 23 || fn == 24 || fn == 27
/-- Functions of major 0x21 that read vd (13 R197). -/
def arithFma (fn : Nat) : Bool := fn == 9 || fn == 10 || fn == 11

/-- Majors 0x21 and 0x22 (13 R195 to R198, 09 R120, R121). -/
def planArith (e : VEntry) (tv : TagView) : VPlan :=
  let vs := e.major == 0x22
  let fn := e.fn5
  let g := e.g
  let ta := tv e.va
  if fn == 31 then
    match Tag.ofCode? (e.w.extractLsb' 8 5) with
    | some t => .check [e.vd % g != 0, e.va % g != 0] [!tv.uniform e.va g ta] [(e.vd, g, t)] false 8
    | none => .fail .illinsn
  else
    let td := tv e.vd
    let widen := arithFma fn && (ta == .bf16 || ta == .fp16) && td == .fp32
    let ga := if widen then max 1 (g / 2) else g
    let two := !vs && !arithUnary fn
    let imm := vs && fldSi e.w == 1#1
    let rt := if fn == 27 then zOfWidth (tagWidth ta) else if widen then .fp32 else ta
    let wref := if widen then 32 else tagWidth ta
    .check
      [e.va % ga != 0, two && e.vb % ga != 0, e.vd % g != 0,
       imm && e.pfx.isSome && (tagFp? ta).isSome && fldXb e.w != 0]
      [ta == .none, !tv.uniform e.va ga ta, two && !tv.uniform e.vb ga ta, !arithAccepts fn ta,
       arithFma fn && !(widen || td == ta), arithFma fn && !tv.uniform e.vd g td,
       vs && tagIsQB ta, decide (vlmax rt g < e.vl), tagIsQB ta && e.vl % 32 != 0]
      [(e.vd, g, rt)]
      ((tagIsF ta && [0, 1, 2, 3, 8, 9, 10, 11].contains fn) ||
        (imm && (tagFp? ta).isSome && [25, 4, 5].contains fn))
      wref (ga != g && (groupsMeet e.vd g e.va ga || (two && groupsMeet e.vd g e.vb ga)))

/-- Major 0x23 (13 R199 to R201). A mask destination takes no tag. -/
def planCmp (e : VEntry) (tv : TagView) : VPlan :=
  let fn := e.fn5
  let g := e.g
  let ta := tv e.va
  if fn ≤ 4 then
    .check [e.va % g != 0, e.vb % g != 0]
      [!tv.uniform e.va g ta, !tv.uniform e.vb g ta,
       !(tagIsF ta || tagIsF8 ta || tagIsInt ta || (ta == .m32 && fn ≤ 1)), decide (vlmax ta g < e.vl)]
      [] false (tagWidth ta)
  else if fn == 13 then
    .check [e.va % g != 0] [!tv.uniform e.va g ta, ta == .none || tagIsQB ta, decide (vlmax ta g < e.vl)] [] false (tagWidth ta)
  else ⟨.ok, [], false, 8, false⟩

/-- The accumulation tag of VREDSUM and VREDSUMO (13 R203). -/
def redTag (t : Tag) : Tag := match t with | .fp16 => .fp32 | .bf16 => .fp32 | t => t
/-- The accumulation tag of VDOT (13 Table 13-7); NONE where it takes no such operands. -/
def dotTag (t : Tag) : Tag :=
  match t with
  | .e4m3 | .e5m2 | .fp16 | .bf16 | .fp32 | .q4 => .fp32
  | .fp64 => .fp64
  | .s8 | .s16 => .s32
  | .z8 | .z16 => .z32
  | .s32 | .s64 => .s64
  | .z32 | .z64 => .z64
  | _ => .none

/-- Major 0x24 (13 R202 to R206). DESIGN CHOICE (log 70): VREDSUMO uses the dynamic mode on F tags only, though 03 R26 and the pseudocode of
R203 name no tag. -/
def planRed (e : VEntry) (tv : TagView) : VPlan :=
  let fn := e.fn5
  let g := e.g
  let ta := tv e.va
  match fn with
  | 8 => .check [e.va % g != 0, e.vb % g != 0]
      [!tv.uniform e.va g .fp64, !tv.uniform e.vb g .fp64, decide (vlmax .fp64 g < e.vl)] [] false 64
  | 9 => .check [e.vd % g != 0] [] [(e.vd, g, .fp64)] true 64
  | _ =>
    let rt := if fn == 7 then dotTag ta else if fn ≤ 1 then redTag ta else ta
    let takes := if fn == 7 then rt != .none else tagIsInt ta || (tagIsF ta && fn ≤ 3)
    let wref := max (tagWidth ta) (tagWidth rt)
    let ga := if takes then groupSize g (tagWidth ta) wref else g
    let gb := if fn == 7 then ga else g
    -- one register of vb, or of VDOT's vd, is read: its tag alone counts (R202, R204)
    .check [e.va % ga != 0, e.vb % gb != 0, e.vd % g != 0]
      [!takes, !tv.uniform e.va ga ta, if fn == 7 then !tv.uniform e.vb gb ta else tv e.vb != rt, fn == 7 && tv e.vd != rt,
       decide (vlmax rt g < e.vl)]
      [(e.vd, g, rt)] (fn == 1 && tagIsF ta) wref

/-- Whether VCVTH, VCVTD, VCVTI and VCVTF take the pair (13 R208, 03 Table 3-6). -/
def cvtPair (a t : Tag) : Bool :=
  let fp (x : Tag) := (tagFp? x).isSome
  !(a == .none || t == .none || tagIsQB a || tagIsQB t) && !(fp a && t == .m32) && !(a == .m32 && fp t)

/-- A narrowing in place: the one overlap of groups of different counts (13 R187). -/
def overlapBad (vd nd va na : Nat) (narrowing : Bool) : Bool :=
  nd != na && groupsMeet vd nd va na && !(narrowing && vd == va)

/-- Major 0x25 (13 R207 to R213). -/
def planConv (e : VEntry) (tv : TagView) : VPlan :=
  let fn := e.fn5
  let g := e.g
  let ta := tv e.va
  let wa := tagWidth ta
  match fn with
  | 2 =>
    let gd := if wa == 0 then g else groupSize g 4 wa
    .check [e.va % g != 0, e.vd % gd != 0] [!tagIsF ta, !tv.uniform e.va g ta, decide (vlmax ta g < e.vl)] [(e.vd, gd, .q4)] true wa
  | 5 =>
    let gd := if wa == 0 then g else groupSize g 4 wa
    .check [e.va % g != 0, e.vd % gd != 0] [!tagIsF ta, !tv.uniform e.va g ta, tv e.vb != .z8, decide (vlmax ta g < e.vl)]
      [(e.vd, gd, .q4)] true wa
  | 7 => .check [e.va % g != 0, e.vb % g != 0, e.vd % g != 0]
      [!tagIsF ta, !tv.uniform e.va g ta, !(tagIsS (tv e.vb) && tagWidth (tv e.vb) == wa), !tv.uniform e.vb g (tv e.vb),
       decide (vlmax ta g < e.vl)] [(e.vd, g, ta)] true wa
  | 8 =>
    let rt : Tag := match ta with | .s16 => .s8 | .s32 => .s16 | .s64 => .s32 | .z16 => .z8 | .z32 => .z16 | .z64 => .z32 | _ => .none
    .check [e.va % g != 0, e.vb % g != 0, e.vd % g != 0]
      [rt == .none, !tv.uniform e.va g ta, !tv.uniform e.vb g ta, decide (vlmax ta g < e.vl)] [(e.vd, g, rt)] false wa
  | _ =>
    match Tag.ofCode? (e.w.extractLsb' 8 5) with
    | none => .fail .illinsn
    | some t =>
      let wt := tagWidth t
      let wref := max wa wt
      let ga := if wa == 0 then g else groupSize g wa wref
      let gd := if wt == 0 then g else groupSize g wt wref
      let fpEnds := (tagFp? ta).isSome || (tagFp? t).isSome || tagIsQB ta || tagIsQB t
      let tagsOk := match fn with
        | 0 => cvtPair ta t && wt * 2 == wa
        | 1 => cvtPair ta t && wt == 2 * wa
        | 3 => (tagIsF ta || tagIsF8 ta || tagIsInt ta || ta == .m32) && (tagIsInt t || t == .m32) && wt == wa && cvtPair ta t
        | 4 => (tagIsInt ta || (tagFp? ta).isSome) && (tagFp? t).isSome && wt == wa
        | 6 => ta == .q4 && (tagFp? t).isSome
        | _ => (tagIsF ta || ta == .b16) && (t == .b16 || t == .fp32 || t == .fp64)
      .check [e.va % ga != 0, e.vd % gd != 0, fn == 9 && t == .b16 && e.m3 != 0]
        [!tagsOk, !tv.uniform e.va ga ta, decide (vlmax (if wa < wt then t else ta) g < e.vl)] [(e.vd, gd, t)] fpEnds wref
        (tagsOk && !(fn == 9 && t == .b16) && overlapBad e.vd gd e.va ga (decide (wt < wa)))

/-- Major 0x26 (13 R214 to R219). -/
def planPerm (e : VEntry) (tv : TagView) : VPlan :=
  let fn := e.fn5
  let g := e.g
  let ta := tv e.va
  let data := !(ta == .none || tagIsQB ta)
  match fn with
  | 0 =>
    let tb := tv e.vb
    let wref := max (tagWidth ta) (tagWidth tb)
    let ga := if ta == .none then g else groupSize g (tagWidth ta) wref
    let gb := if tb == .none then g else groupSize g (tagWidth tb) wref
    .check [e.va % ga != 0, e.vb % gb != 0, e.vd % ga != 0]
      [!data, !tagIsInt tb, !tv.uniform e.va ga ta, !tv.uniform e.vb gb tb,
       decide (vlmax (if tagWidth ta < tagWidth tb then tb else ta) g < e.vl)] [(e.vd, ga, ta)] false wref
  | 5 | 6 => .check [e.vd % g != 0] [!tagIsInt e.tag, decide (vlmax e.tag g < e.vl)] [(e.vd, g, e.tag)] false (tagWidth e.tag)
  | 8 => .check [e.va % g != 0] [ta == .none, !tv.uniform e.va g ta, decide (vlmax ta g < e.vl)] [] false (tagWidth ta)
  | 9 =>
    let td := tv e.vd
    .check [e.vd % g != 0] [td == .none, !tv.uniform e.vd g td, decide (vlmax td g < e.vl)] [(e.vd, g, td)] false (tagWidth td)
  | 11 =>
    let h := max 1 (g / 2)
    .check [e.va % h != 0, e.vb % h != 0, e.vd % g != 0]
      [!data, !tv.uniform e.va h ta, !tv.uniform e.vb h ta, decide (vlmax ta g < e.vl), e.vl % 2 != 0] [(e.vd, g, ta)] false (tagWidth ta)
  | 12 =>
    let h := max 1 (g / 2)
    .check [e.va % g != 0, e.vd % h != 0]
      [!data, !tv.uniform e.va g ta, decide (vlmax ta g < e.vl), e.vl % 2 != 0] [(e.vd, h, ta)] false (tagWidth ta)
  | 13 => .check [e.va % g != 0, e.vd % g != 0]
      [!data, !tv.uniform e.va g ta, decide (vlmax ta g < e.vl), e.xb == 0 || e.vl % e.xb.toNat != 0] [(e.vd, g, ta)] false (tagWidth ta)
  | 14 => .check [e.va % g != 0] [!(tagIsInt ta || ta == .m32), !tv.uniform e.va g ta, decide (vlmax ta g < e.vl)] [] false (tagWidth ta)
  | _ => .check [e.va % g != 0, e.vd % g != 0] [!data, !tv.uniform e.va g ta, decide (vlmax ta g < e.vl)] [(e.vd, g, ta)] false (tagWidth ta)

/-- The plan of a computation entry under a view of the tags. -/
def planCompute (e : VEntry) (tv : TagView) : VPlan :=
  match e.major with
  | 0x21 | 0x22 => planArith e tv
  | 0x23 => planCmp e tv
  | 0x24 => planRed e tv
  | 0x25 => planConv e tv
  | _ => planPerm e tv

/-- The whole class among majors 0x21 to 0x26: it completes or is unwound entirely (13 R191). Mask functions of major 0x23 have no
element groups: they are done in one. -/
def wholeCompute (e : VEntry) : Bool :=
  match e.major with
  | 0x24 | 0x26 => true
  | 0x23 => 5 ≤ e.fn5 && e.fn5 != 13
  | 0x25 => e.fn5 == 2 || e.fn5 == 5 || (e.fn5 == 9 && e.w.extractLsb' 8 5 == Tag.b16.code)
  | _ => false

end Sys2Proof.Machine
end

