-- ==== Sys2Proof/Machine/VExec.lean ====
section
/-! DEFINITION. What the vector computation functions compute: majors 0x21 to 0x26, element by element (13 R192 to R219). -/
namespace Sys2Proof.Machine

/-- What an element function is given: type, mode, FCSR.SAT at commit, modulus. -/
structure EEnv where
  t : Tag
  rm : RMode
  sat : Bool
  q : Nat
  deriving DecidableEq, Repr

/-- The mode of an entry: FCSR.RM as read at commit. Entries that round were checked to hold a mode (03 R26). -/
def VEntry.mode (e : VEntry) : RMode := (dynMode? e.rm).getD .rne

/-- An M32 operand reduced modulo q, with MOV where it was not canonical (03 R35). -/
def m32Operand (q r : Nat) : Nat × Flags := if q ≤ r then (r % q, flMOV) else (r, flNone)

/-- A floating-point result rounded to format f. -/
def EEnv.round (v : EEnv) (f : Fp) (r : RV × Flags) : Nat × Flags :=
  let q := f.round v.rm v.sat r.1
  (q.1, r.2 ||| q.2)

/-- A saturating sum or difference (13 Table 13-4, R196). -/
def satInt (t : Tag) (v : Int) : Nat × Flags :=
  let c := clampInt (tagSigned t) (tagWidth t) v
  (intPattern (tagWidth t) c.1, c.2)

/-! Element functions of major 0x21: `x`, `y`, `d` patterns, `xv`, `yv`, `dv` values of floating-point tags, `yv` being the exact
immediate in a VS form. -/

/-- VADD, VSUB, VMUL, VDIV on floating-point tags. -/
def elFloat (v : EEnv) (f : Fp) (fn : Nat) (xv yv : FVal) : Nat × Flags :=
  v.round f (match fn with
    | 0 => fpAdd v.rm xv yv
    | 1 => fpAdd v.rm xv yv.negate
    | 2 => fpMul xv yv
    | _ => fpDiv xv yv)

/-- VMIN and VMAX on floating-point tags; an immediate that is selected is converted once (09 R121). -/
def elMinMax (v : EEnv) (f : Fp) (isMax isImm : Bool) (x y : Nat) (yv : FVal) : Nat × Flags :=
  let p := minMaxPick isMax (f.value x) yv
  match p.1 with
  | none => (f.canonicalNan, p.2)
  | some false => (x, p.2)
  | some true => if isImm then v.round f (yv.toRV, p.2) else (y, p.2)

/-- VFMA, VFMS and VFNMA (13 Table 13-4). -/
def elFma (v : EEnv) (fd : Fp) (fn : Nat) (xv yv dv : FVal) : Nat × Flags :=
  v.round fd (match fn with
    | 9 => fpFma v.rm xv yv dv
    | 10 => fpFma v.rm xv yv dv.negate
    | _ => fpFma v.rm xv.negate yv dv)

/-- The integer functions of major 0x21 (13 Table 13-4, R196). -/
def elInt (t : Tag) (fn x y : Nat) : Nat × Flags :=
  let w := tagWidth t
  let s := tagSigned t
  let xi := patternInt s w x
  let yi := patternInt s w y
  let ok (v : Int) : Nat × Flags := (intPattern w v, flNone)
  match fn with
  | 0 => ok (xi + yi)
  | 1 => ok (xi - yi)
  | 2 => ok (xi * yi)
  | 3 => if s then ok (divS xi yi) else (divZ w x y, flNone)
  | 4 => ok (min xi yi)
  | 5 => ok (max xi yi)
  | 6 => ok (if xi < 0 then -xi else xi)
  | 7 => ok (0 - xi)
  | 12 => (Nat.land x y, flNone)
  | 13 => (Nat.lor x y, flNone)
  | 14 => (Nat.xor x y, flNone)
  | 15 => (2 ^ w - 1 - x, flNone)
  | 16 => (x * 2 ^ (y % w) % 2 ^ w, flNone)
  | 17 => (x / 2 ^ (y % w), flNone)
  | 18 => ok (patternInt true w x / (2 ^ (y % w) : Nat))
  | 19 => ok (xi * yi / (2 ^ w : Nat))
  | 20 => satInt t (xi + yi)
  | 21 => satInt t (xi - yi)
  | 22 => (leadingZeros w x, flNone)
  | 23 => (onesBelow x w, flNone)
  | _ => (x, flNone)

/-- VMODMUL, VMODADD and VMODSUB (13 Table 13-4, 03 R35). -/
def elMod (q fn x y : Nat) : Nat × Flags :=
  let a := m32Operand q x
  let b := m32Operand q y
  (match fn with
    | 28 => a.1 * b.1 % q
    | 29 => (a.1 + b.1) % q
    | _ => (a.1 + q - b.1) % q, a.2 ||| b.2)

/-- The element function fn of majors 0x21 and 0x22. -/
def elArith (v : EEnv) (td : Tag) (fn : Nat) (isImm : Bool) (x y d : Nat) (yv : FVal) : Nat × Flags :=
  match tagFp? v.t with
  | some f =>
    match fn with
    | 0 | 1 | 2 | 3 => elFloat v f fn (f.value x) yv
    | 4 => elMinMax v f false isImm x y yv
    | 5 => elMinMax v f true isImm x y yv
    | 6 => (patAbs f x, flNone)
    | 7 => (patNeg f x, flNone)
    | 8 => v.round f (fpSqrt (f.value x))
    | 9 | 10 | 11 => let fd := (tagFp? td).getD f; elFma v fd fn (f.value x) yv (fd.value d)
    | 25 => if isImm then v.round f (yv.toRV, flNone) else (y, flNone)
    | 26 => (patCopySign f x y, flNone)
    | 27 => (f.classify x, flNone)
    | _ => (x, flNone)
  | none =>
    match fn with
    | 24 => (x, flNone)
    | 25 => (y, flNone)
    | 28 | 29 | 30 => elMod v.q fn x y
    | _ => elInt v.t fn x y

/-- A fold over the active elements of lo to hi − 1, ascending, collecting flags at their indices (13 R186, R192, 03 R45). -/
def foldActive (m : MReg) (lo hi : Nat) (f : Plane → Nat → Plane × Flags) (p : Plane) (fi : First) : Plane × First :=
  (indices lo hi).foldl (fun a i => if p.maskBit m i then (let r := f a.1 i; (r.1, a.2.note r.2 i)) else a) (p, fi)

/-- The tag of n registers from r written at the end of an instruction; at a stop part-way the side field stays, of which the elements not
yet reached may have need (13 R193, 17 R255). -/
def Plane.tagGroup (p : Plane) (r : Nat) (t : Tag) (n : Nat) (ended : Bool) : Plane :=
  if ended then p.setTags r t n else (List.range n).foldl (fun p j => p.setVreg (r + j) { p.vreg (r + j) with tag := t }) p

/-- VTAG over its 8-bit elements lo to hi − 1: data, and with a register's first element its side field (13 R198). -/
def runVtag (e : VEntry) (t : Tag) (lo hi : Nat) (p0 : Plane) : Plane :=
  (indices (lo / 256) ((hi + 255) / 256)).foldl (fun p k =>
    let src := p.vreg (e.va + k / 2)
    let old := p.vreg (e.vd + k / 2)
    p.setVreg (e.vd + k / 2) ⟨BitVec.ofNat 4096 (putBits old.data.toNat (k % 2 * 2048) 2048 (src.data.toNat / 2 ^ (k % 2 * 2048))),
      if k % 2 == 0 then sideOf t src.side else old.side, t⟩) p0

/-- One 32-element block of Q4 or B16 copied, codes and side byte (13 R188). -/
def Plane.copyBlock (p0 p : Plane) (vd vs : Nat) (t : Tag) (j : Nat) : Plane :=
  let w := tagWidth t
  let per := elemsOf w / 32
  let p := (indices (32 * j) (32 * j + 32)).foldl (fun p i => p.setElem vd w i (p0.elem vs w i)) p
  p.setSide (vd + j / per) (j % per) (p0.sideByte (vs + j / per) (j % per))

/-- The scalar operand of a VS entry: one that VMERGE writes under M32 is an M32 operand, reduced modulo q (09 R121, 03 R35). -/
def vsOperand (e : VEntry) (ta : Tag) (fn q : Nat) : ScalarOperand :=
  let sc := scalarOperand ta q (fldSi e.w == 1#1) e.pfx (fldXb e.w) e.xb
  if ta == .m32 && fn == 25 && q ≤ sc.pattern then { sc with pattern := sc.pattern % q, mov := true } else sc

/-- Majors 0x21 and 0x22 over elements lo to hi − 1. -/
def runArith (e : VEntry) (ta td : Tag) (lo hi : Nat) (p0 : Plane) (fi : First) : Plane × First :=
  let vs := e.major == 0x22
  let fn := e.fn5
  let g := e.g
  let m := if vs then e.mm else e.m3
  if fn == 31 then
    let t := (Tag.ofCode? (e.w.extractLsb' 8 5)).getD .none
    let p := runVtag e t lo hi p0
    (p.tagGroup e.vd t g (512 * g ≤ hi), fi)
  else if tagIsQB ta then
    let blocks := (List.range ((hi + 31) / 32)).filter fun j => decide (lo ≤ 32 * j)
    let p := p0.setTags e.vd ta g
    let from_ (j : Nat) : Option Nat := if fn == 24 then (if p0.maskBit m (32 * j) then some e.va else none)
      else some (if p0.maskBit m (32 * j) then e.vb else e.va)
    (blocks.foldl (fun p j => match from_ j with | some r => p0.copyBlock p e.vd r ta j | none => p) p, fi)
  else
    let widen := arithFma fn && ta != td
    let rt := if fn == 27 then zOfWidth (tagWidth ta) else if widen then td else ta
    let env : EEnv := ⟨ta, e.mode, e.sat, p0.modulus⟩
    let sc := vsOperand e ta fn p0.modulus
    let fy (y : Nat) : FVal := if vs then sc.value else match tagFp? ta with | some f => f.value y | none => .fin false 0 0
    let f (p : Plane) (i : Nat) : Plane × Flags :=
      let x := p0.elem e.va (tagWidth ta) i
      let y := if vs then sc.pattern else if arithUnary fn then 0 else p0.elem e.vb (tagWidth ta) i
      let d := p0.elem e.vd (tagWidth rt) i
      let on := p0.maskBit m i
      if fn == 25 && !on then (p.setElem e.vd (tagWidth rt) i x, flNone)
      else
        let r := elArith env td fn (vs && sc.isImm) x y d (fy y)
        (p.setElem e.vd (tagWidth rt) i r.1, r.2 ||| (if vs && sc.mov then flMOV else flNone))
    let r := foldActive (if fn == 25 then 0 else m) lo hi f p0 fi
    (r.1.setTags e.vd rt g, r.2)

/-- The truth of compare fn on two patterns (13 R200). -/
def elCmp (t : Tag) (q fn x y : Nat) : Bool × Flags :=
  match tagFp? t with
  | some f =>
    let xv := f.value x
    let yv := f.value y
    match fn with
    | 0 => fpCompare 0 xv yv
    | 1 => let c := fpCompare 0 xv yv; (!c.1, c.2)
    | 2 => fpCompare 1 xv yv
    | 3 => fpCompare 2 xv yv
    | _ => (xv.isNan || yv.isNan, nvOf [xv, yv])
  | none =>
    if t == .m32 then
      let a := m32Operand q x
      let b := m32Operand q y
      ((a.1 == b.1) != (fn == 1), a.2 ||| b.2)
    else
      let xi := patternInt (tagSigned t) (tagWidth t) x
      let yi := patternInt (tagSigned t) (tagWidth t) y
      (match fn with
        | 0 => xi == yi
        | 1 => xi != yi
        | 2 => decide (xi < yi)
        | 3 => decide (xi ≤ yi)
        | _ => false, flNone)

/-- Whether a pattern is a non-zero value: NaN counts as non-zero, a zero of either sign as zero (13 R201). DEDUCED (log 79): an M32
element is reduced modulo q before the test, as 03 R35 has it of every operand, and raises nothing, as R201 has it. -/
def elNonzero (q : Nat) (t : Tag) (x : Nat) : Bool :=
  match tagFp? t with
  | some f => x % signWeight f != 0
  | none => if t == .m32 then (m32Operand q x).1 != 0 else x != 0

/-- Mask destination of a major 0x23 word. -/
def VEntry.md (e : VEntry) : MReg := (fldVd e.w).extractLsb' 0 3
def VEntry.ma (e : VEntry) : MReg := (fldVa e.w).extractLsb' 0 3
def VEntry.mbReg (e : VEntry) : MReg := (fldVb e.w).extractLsb' 0 3
/-- X destination of a word whose field vd names an X register. -/
def VEntry.xd (e : VEntry) : XReg := (fldVd e.w).extractLsb' 0 5

/-- Bits below VL of a mask replaced by f. -/
def maskBelow (old : BitVec 8192) (vl : Nat) (f : BitVec 8192) : BitVec 8192 :=
  let low := BitVec.ofNat 8192 (2 ^ vl - 1)
  (old &&& ~~~low) ||| (f &&& low)

/-- Major 0x23 over elements lo to hi − 1 (13 R200, R201). -/
def runCmp (e : VEntry) (ta : Tag) (lo hi : Nat) (p0 : Plane) (fi : First) : Plane × First :=
  let fn := e.fn5
  let w := tagWidth ta
  let old := p0.maskReg e.md
  if fn ≤ 4 || fn == 13 then
    let r := (indices lo hi).foldl (fun (a : BitVec 8192 × First) i =>
      if p0.maskBit e.m3 i then
        let c := if fn == 13 then (elNonzero p0.modulus ta (p0.elem e.va w i), flNone)
          else elCmp ta p0.modulus fn (p0.elem e.va w i) (p0.elem e.vb w i)
        (putMaskBit a.1 i c.1, a.2.note c.2 i)
      else a) (old, fi)
    (p0.setMask e.md r.1, r.2)
  else
    let a := p0.maskReg e.ma
    let b := p0.maskReg e.mbReg
    match fn with
    | 5 => (p0.setMask e.md (maskBelow old e.vl (a &&& b)), fi)
    | 6 => (p0.setMask e.md (maskBelow old e.vl (a ||| b)), fi)
    | 7 => (p0.setMask e.md (maskBelow old e.vl (a ^^^ b)), fi)
    | 8 => (p0.setMask e.md (maskBelow old e.vl (a &&& ~~~b)), fi)
    | 9 => (p0.setMask e.md (maskBelow old e.vl (~~~a)), fi)
    | 10 => (p0.setX e.xd (BitVec.ofNat 64 ((indices 0 e.vl).filter fun i => p0.maskBit e.m3 i && a.getLsbD i).length), fi)
    | 11 => (p0.setX e.xd (match (indices 0 e.vl).find? fun i => p0.maskBit e.m3 i && a.getLsbD i with
        | some i => BitVec.ofNat 64 i
        | none => BitVec.allOnes 64), fi)
    | _ => (p0.setMask e.md (maskBelow old e.vl (BitVec.ofNat 8192 (2 ^ (min e.xa.toNat e.vl) - 1))), fi)

/-- The index that a flag of a combination records (03 R45). -/
def combIndex : Nat := 0x7FFF

/-- The value of element i of a tag whose elements have values, Q4 included. -/
def Plane.value (p : Plane) (t : Tag) (r i : Nat) : FVal :=
  match t with
  | .q4 => q4Value (p.sideByte (r + i / 1024) (i % 1024 / 32)) (p.elem r 4 i)
  | .b16 => b16Value (p.sideByte (r + i / 256) (i % 256 / 32)) (p.elem r 16 i)
  | _ => match tagFp? t with
    | some f => f.value (p.elem r (tagWidth t) i)
    | none => let v := patternInt (tagSigned t) (tagWidth t) (p.elem r (tagWidth t) i); .fin (decide (v < 0)) v.natAbs 0

/-- XAC as a signed multiple of 2^-2148 (03 R37). -/
def xacInt (x : BitVec 4352) : Int := x.toInt

/-- What a product does to the state of XAC (03 R38). -/
def xacMove (st : XacState) (v : RV) : XacState × Flags :=
  match st, v with
  | .nan, _ => (.nan, flNone)
  | _, .qnan | _, .snan => (.nan, flNone)
  | .pinf, .inf true | .ninf, .inf false => (.nan, flNV)
  | _, .inf true => (.ninf, flNone)
  | _, .inf false => (.pinf, flNone)
  | st, _ => (st, flNone)

/-- The products of a VXACC added into XAC, each with its index and the flags that the product itself raises: states and their flags in
ascending order, the sum exact (03 R38, 13 R192, R205). Once the state is not FIN the fixed-point value is free. -/
def Plane.xacAdd (p : Plane) (free : Nat) (terms : List (Nat × RV × Flags)) (fi : First) : Plane × First :=
  let moved := terms.foldl (fun (a : XacState × First) x =>
    let m := xacMove a.1 x.2.1
    (m.1, a.2.note (x.2.2 ||| m.2) x.1)) (p.xacSt, fi)
  let sum : Int := terms.foldl (fun a x => match x.2.1 with
    | .num v => a + (if v.neg then -1 else 1) * ((v.m * 2 ^ (v.e + 2148).toNat : Nat) : Int)
    | _ => a) (xacInt p.xac)
  let out := moved.1 == .fin && decide (sum.natAbs ≥ 2 ^ 4351)
  let st : XacState := if !out then moved.1 else if sum < 0 then .ninf else .pinf
  ({ p with xac := if st == .fin then BitVec.ofInt 4352 sum else Config.freeXac free, xacSt := st },
    if out then moved.2.note flOF combIndex else moved.2)

/-- round(XAC) to FP64 (03 R39). -/
def Plane.xacRound (p : Plane) (rm : RMode) : Nat × Flags :=
  match p.xacSt with
  | .pinf => (Fp.fp64.signed false Fp.fp64.infPattern, flNone)
  | .ninf => (Fp.fp64.signed true Fp.fp64.infPattern, flNone)
  | .nan => (Fp.fp64.canonicalNan, flNone)
  | .fin => Fp.fp64.roundEx rm true ((⟨xacInt p.xac, -2148⟩ : Dy).toEx (zeroSign rm))

/-- Major 0x24 (13 R202 to R206). DESIGN CHOICE (log 72): a signalling vb[0] of VREDMIN and VREDMAX raises NV at the first active index; one
of VREDSUM, or vd[0] of VDOT, at 0x7FFF. -/
def runRed (e : VEntry) (ta : Tag) (free : Nat) (p0 : Plane) (fi : First) : Plane × First :=
  let fn := e.fn5
  let g := e.g
  let w := tagWidth ta
  let act := (indices 0 e.vl).filter fun i => p0.maskBit e.m3 i
  let put (t : Tag) (v : Nat) : Plane := (p0.setElem e.vd (tagWidth t) 0 v).setTags e.vd t g
  match fn with
  | 8 =>
    if act.isEmpty then (p0, fi)
    else p0.xacAdd free (act.map fun i => (i, fpMul (p0.value .fp64 e.va i) (p0.value .fp64 e.vb i))) fi
  | 9 =>
    let r := p0.xacRound e.mode
    let p := put .fp64 r.1
    (if e.w.getLsbD 8 then { p with xac := 0, xacSt := .fin } else p, fi.note r.2 combIndex)
  | 7 =>
    let at_ := dotTag ta
    match tagFp? at_ with
    | some f =>
      if act.isEmpty then (put at_ (p0.elem e.vd (tagWidth at_) 0), fi)
      else
        let terms := act.map fun i => fpMul (p0.value ta e.va i) (p0.value ta e.vb i)
        let d := f.value (p0.elem e.vd (tagWidth at_) 0)
        let fi := (act.zip terms).foldl (fun a x => a.note x.2.2 x.1) fi
        let r := sumFree f free ((d.toRV, nvOf [d]) :: terms.map fun x => (x.1, flNone))
        (put at_ r.1, fi.note r.2 combIndex)
    | none =>
      let s := act.foldl (fun a i => a + patternInt (tagSigned ta) w (p0.elem e.va w i) * patternInt (tagSigned ta) w (p0.elem e.vb w i))
        (patternInt (tagSigned at_) (tagWidth at_) (p0.elem e.vd (tagWidth at_) 0))
      (put at_ (intPattern (tagWidth at_) s), fi)
  | _ =>
    let rt := if fn ≤ 1 then redTag ta else ta
    let init := p0.elem e.vb (tagWidth rt) 0
    match tagFp? rt with
    | some f =>
      if act.isEmpty then (put rt init, fi)
      else match fn with
      | 0 =>
        let vals := act.map fun i => p0.value ta e.va i
        let fi := (act.zip vals).foldl (fun a x => a.note (nvOf [x.2]) x.1) fi
        let iv := f.value init
        let r := sumFree f free ((iv.toRV, nvOf [iv]) :: vals.map fun v => (v.toRV, flNone))
        (put rt r.1, fi.note r.2 combIndex)
      | 1 =>
        let r := act.foldl (fun (a : Nat × First) i =>
          let s := fpAdd e.mode (f.value a.1) (p0.value ta e.va i)
          let q := f.round e.mode e.sat s.1
          (q.1, a.2.note (s.2 ||| q.2) i)) (init, fi)
        (put rt r.1, r.2)
      | _ =>
        let r := act.foldl (fun (a : Nat × First) i =>
          let m := fpMinMax f (fn == 3) a.1 (p0.elem e.va w i)
          (m.1, a.2.note m.2 i)) (init, fi)
        (put rt r.1, r.2)
    | none =>
      let op (a x : Nat) : Nat := match fn with
        | 0 | 1 => (elInt ta 0 a x).1
        | 2 => (elInt ta 4 a x).1
        | 3 => (elInt ta 5 a x).1
        | 4 => Nat.land a x
        | 5 => Nat.lor a x
        | _ => Nat.xor a x
      (put rt (act.foldl (fun a i => op a (p0.elem e.va w i)) init), fi)

/-- The conversion of one element between floating-point, integer and M32 types (13 R208, 03 R34, R41). -/
def elConvert (q : Nat) (rm : RMode) (sat : Bool) (a t : Tag) (x : Nat) : Nat × Flags :=
  let toInt (v : Int) : Nat × Flags :=
    let c := clampInt (tagSigned t) (tagWidth t) v
    (intPattern (tagWidth t) c.1, c.2)
  match tagFp? a, tagFp? t with
  | some f, some h => h.round rm sat (f.value x).toRV
  | some f, none => let r := rvToInt (tagSigned t) (tagWidth t) rm (f.value x).toRV; (intPattern (tagWidth t) r.1, r.2)
  | none, some h =>
    h.round rm sat (.num (exOfInt (patternInt (tagSigned a) (tagWidth a) x)))
  | none, none =>
    if a == .m32 then
      let r := m32Operand q x
      if t == .m32 then r
      else
        let v : Int := if tagSigned t && decide ((q - 1) / 2 < r.1) then (r.1 : Int) - q else r.1
        let c := toInt v
        (c.1, c.2 ||| r.2)
    else
      let v := patternInt (tagSigned a) (tagWidth a) x
      if t == .m32 then let r := intToM32 q (tagSigned a) v; (r.1, if r.2 then flMOV else flNone)
      else toInt v

/-- Blocks of 32 elements converted into Q4 or B16 from a source read beforehand: `val` gives the elements' values, zero at or above VL;
`conv` the block conversion by block number (13 R188, R209, R213). -/
def runBlocks (e : VEntry) (t : Tag) (gd : Nat) (conv : Nat → List FVal → Nat × List (Nat × Flags)) (val : Nat → FVal) (p0 : Plane)
    (fi : First) : Plane × First :=
  let w := tagWidth t
  let per := elemsOf w / 32
  let r := (List.range ((e.vl + 31) / 32)).foldl (fun (a : Plane × First) j =>
    let b := conv j ((indices (32 * j) (32 * j + 32)).map fun i => if i < e.vl then val i else .fin false 0 0)
    let s := (b.2.zipIdx).foldl (fun (a : Plane × First) x =>
      let i := 32 * j + x.2
      (a.1.setElem e.vd w i x.1.1, if i < e.vl then a.2.note x.1.2 i else a.2)) a
    (s.1.setSide (e.vd + j / per) (j % per) b.1, s.2)) (p0.setTags e.vd t gd, fi)
  r

/-- Major 0x25 over elements lo to hi − 1 (13 R207 to R213): in the resumable class each element reads its sources before it is written, in
the whole class, `whole`, every source is read before any destination element is (13 R187). DESIGN CHOICE (log 80): in the resumable class an
iteration of VPACKS writes vd[i] before it reads vb[i]. -/
def runConv (e : VEntry) (ta : Tag) (whole : Bool) (lo hi : Nat) (p0 : Plane) (fi : First) : Plane × First :=
  let src (p : Plane) : Plane := if whole then p0 else p
  let fn := e.fn5
  let g := e.g
  let wa := tagWidth ta
  let t := (Tag.ofCode? (e.w.extractLsb' 8 5)).getD .none
  let wt := tagWidth t
  match fn with
  | 2 => runBlocks e .q4 (groupSize g 4 wa) (fun _ => q4Block (e.w.extractLsb' 8 2).toNat e.mode) (p0.value ta e.va) p0 fi
  | 5 => runBlocks e .q4 (groupSize g 4 wa) (fun j => q4Block (p0.elem e.vb 8 j % 4) e.mode) (p0.value ta e.va) p0 fi
  | 7 =>
    let f := (tagFp? ta).getD .fp64
    let r := foldActive e.m3 lo hi (fun p i =>
      let n := patternInt true wa ((src p).elem e.vb wa i)
      let v : RV := match f.value ((src p).elem e.va wa i) with
        | .fin s m x =>
          -- beyond any format's range the scale saturates without changing the rounding
          .num ⟨s, m, x + max (-8192) (min 8192 n), false⟩
        | o => o.toRV
      let r := f.round e.mode e.sat v
      (p.setElem e.vd wa i r.1, r.2)) p0 fi
    (r.1.tagGroup e.vd ta g (e.vl ≤ hi), r.2)
  | 8 =>
    let rt : Tag := match ta with | .s16 => .s8 | .s32 => .s16 | .s64 => .s32 | .z16 => .z8 | .z32 => .z16 | _ => .z32
    let one (v off : Nat) (p : Plane) (i : Nat) : Plane × Flags :=
      let r := satInt rt (patternInt (tagSigned ta) wa ((src p).elem v wa i))
      (p.setElem e.vd (wa / 2) (off + i) r.1, r.2)
    let r := (indices lo hi).foldl (fun (a : Plane × First) i =>
      if p0.maskBit e.m3 i then
        let x := one e.va 0 a.1 i
        let y := one e.vb e.vl x.1 i
        (y.1, (a.2.note x.2 i).note y.2 (e.vl + i))
      else a) (p0, fi)
    (r.1.tagGroup e.vd rt g (e.vl ≤ hi), r.2)
  | _ =>
    let gd := groupSize g wt (max wa wt)
    if t == .b16 then
      if ta == .b16 then
        -- renormalisation: an invalid block stays invalid and raises nothing, a zero block gets exponent 0
        runBlocks e .b16 g (fun j xs =>
          if p0.sideByte (e.va + j / 8) (j % 8) == 255 then (255, xs.map fun _ => (0, flNone)) else b16Block e.mode xs)
          (p0.value .b16 e.va) p0 fi
      else runBlocks e .b16 gd (fun _ => b16Block e.mode) (p0.value ta e.va) p0 fi
    else
      let r := foldActive e.m3 lo hi (fun p i =>
        let r := match ta with
          | .q4 | .b16 => (match tagFp? t with | some f => f.round e.mode e.sat ((src p).value ta e.va i).toRV | none => (0, flNone))
          | _ => elConvert p0.modulus e.mode e.sat ta t ((src p).elem e.va wa i)
        (p.setElem e.vd wt i r.1, r.2)) p0 fi
      (r.1.tagGroup e.vd t gd (e.vl ≤ hi), r.2)

/-- Major 0x26 (13 R214 to R219). Every source is read before any element is written. -/
def runPerm (e : VEntry) (ta : Tag) (p0 : Plane) : Plane :=
  let g := e.g
  let w := tagWidth ta
  let vl := e.vl
  let act := (indices 0 vl).filter fun i => p0.maskBit e.m3 i
  let k := e.xb.toNat
  let a (i : Nat) : Nat := p0.elem e.va w i
  let put (n : Nat) (t : Tag) (xs : List (Nat × Nat)) : Plane :=
    (xs.foldl (fun p x => p.setElem e.vd (tagWidth t) x.1 x.2) p0).setTags e.vd t n
  match e.fn5 with
  | 0 =>
    let tb := (p0.vreg e.vb).tag
    let ga := groupSize g w (max w (tagWidth tb))
    put ga ta (act.map fun i => let j := p0.elem e.vb (tagWidth tb) i; (i, if j < vl then a j else 0))
  | 1 => put g ta ((act.filter fun i => decide (k ≤ i)).map fun i => (i, a (i - k)))
  | 2 => put g ta (act.map fun i => (i, if i + k < vl then a (i + k) else 0))
  | 3 => put g ta (act.zipIdx.map fun x => (x.2, a x.1))
  | 4 => put g ta (act.zipIdx.map fun x => (x.1, a x.2))
  | 5 => put g e.tag (act.map fun i =>
      (i, ((act.filter fun j => decide (j < i) && (p0.maskReg e.mbReg).getLsbD j).length) % 2 ^ tagWidth e.tag))
  | 6 => put g e.tag (act.map fun i => (i, i % 2 ^ tagWidth e.tag))
  | 7 => put g ta (act.map fun i => (i, if k < vl then a k else 0))
  | 8 => p0.setX e.xd (if k < vl then BitVec.ofInt 64 (patternInt (tagIsS ta || ta == .b16) w (a k)) else 0)
  | 9 =>
    let td := (p0.vreg e.vd).tag
    if k < vl then p0.setElem e.vd (tagWidth td) k (e.xa.toNat % 2 ^ tagWidth td) else p0
  | 10 => put g ta (act.map fun i => (i, a (vl - 1 - i)))
  | 11 => put g ta ((indices 0 vl).map fun i => (i, if i % 2 == 0 then a (i / 2) else p0.elem e.vb w ((i - 1) / 2)))
  | 12 =>
    let h := b2n (e.w.getLsbD 8)
    put (max 1 (g / 2)) ta ((indices 0 (vl / 2)).map fun i => (i, a (2 * i + h)))
  | 13 =>
    let cols := vl / k
    put g ta ((indices 0 vl).map fun o => (o, a (o % k * cols + o / k)))
  | _ =>
    let leaders := (act.foldl (fun (s : List Nat × List Nat) i => if s.1.contains (a i) then s else (a i :: s.1, i :: s.2)) ([], [])).2
    p0.setMask e.md (maskBelow (p0.maskReg e.md) vl (leaders.foldl (fun m i => m ||| BitVec.ofNat 8192 (2 ^ i)) 0))

/-- A computation entry over elements lo to hi − 1 of its reference operand; `whole` says whether it is of the whole class. -/
def runCompute (e : VEntry) (ta td : Tag) (whole : Bool) (free lo hi : Nat) (p : Plane) (fi : First) : Plane × First :=
  match e.major with
  | 0x21 | 0x22 => runArith e ta td lo hi p fi
  | 0x23 => runCmp e ta lo hi p fi
  | 0x24 => runRed e ta free p fi
  | 0x25 => runConv e ta whole lo hi p fi
  | _ => (runPerm e ta p, fi)

end Sys2Proof.Machine
end

