-- ==== Sys2Proof/Machine/VMem.lean ====
section
/-! DEFINITION. Vector loads and stores, majors 0x27 and 0x28: the checks at commit, the access of one element, and an entry run over a
range of elements (15 R220 to R233, 07 R86, R87, R91, R101). -/
namespace Sys2Proof.Machine

/-- The checks at commit of majors 0x27 and 0x28 (15 R220 to R233). `perm` says whether a watermark named may be used. -/
def planMem (e : VEntry) (tv : TagView) (perm : Bool) : VPlan :=
  let st := e.major == 0x28
  let g := e.g
  let t := e.tag
  let w := tagWidth t
  let s := tagBytes t
  let ti := tv e.mb
  let wref := if e.indexed then max w (tagWidth ti) else w
  let sized := e.indexed && w != 0 && tagWidth ti != 0
  let gd := if sized then groupSize g w wref else g
  let gi := if sized then groupSize g (tagWidth ti) wref else g
  let nf := e.fields
  let seg := !st && e.fn3 == 2
  let td := tv e.vd
  let mt := if seg && td != .none then td else t
  let ends := (tagFp? mt).isSome || (tagFp? t).isSome
  let xa := e.xa.toNat
  .check
    [e.vd % gd != 0, e.indexed && e.mb % gi != 0, decide (64 < e.vd + nf * gd)]
    [t == .none, tagIsQB t && (e.fn3 != 0 || e.mm != 0), e.indexed && !tagIsInt ti, e.indexed && !tv.uniform e.mb gi ti,
     st && !((List.range nf).all fun f => tv.uniform (e.vd + f * gd) gd t),
     decide (vlmax (if e.indexed && w < tagWidth ti then ti else t) g < e.vl),
     seg && !(tagIsInt mt || tagIsF mt || tagIsF8 mt || mt == .m32), seg && (mt == .m32) != (t == .m32), seg && !tv.uniform e.vd g td,
     tagIsQB t && xa % 8 != 0,
     s != 0 && (e.fn3 == 5 || (!st && e.fn3 == 7)) && xa % s != 0,
     !perm]
    (if st then [] else (List.range nf).map fun f => (e.vd + f * gd, gd, t)) (seg && mt != t && ends) wref
    (e.indexed && gi != gd && groupsMeet e.vd gd e.mb gi)

/-! ### One element -/

/-- Why a vector memory instruction stops at an element. -/
inductive Stop where
  | err (e : MemErr)
  | illop
  | wait
  deriving DecidableEq, Repr

/-- An element's progress: the state, the flags raised so far, and, for an instruction of the whole class, the plane from before it, from
which it reads its index group (13 R187). -/
structure Run where
  s : State
  fl : Flags
  src : Option Plane := none

/-- The plane that gives an element its address. -/
def Run.plane (r : Run) : Plane := r.src.getD r.s.me

/-- An address as a word. -/
def addr64 (a : Nat) : Word := BitVec.ofNat 64 a

/-- Bytes to an element pattern in the issuing plane's registers. -/
def State.putElem (s : State) (r w i v : Nat) : State := s.modMe fun p => p.setElem r w i v

/-- The active elements of an entry between two indices (13 R186). -/
def State.active (s : State) (e : VEntry) (lo hi : Nat) : List Nat := (indices lo hi).filter fun i => s.me.maskBit e.mm i

/-- The granule, by virtual address, of element i. -/
def VEntry.granuleOf (e : VEntry) (p : Plane) (i : Nat) : Nat := (e.span p i).1 / 16

/-- Element i of a plain load read into the register (15 R222). -/
def loadElem (e : VEntry) (i : Nat) (r : Run) : Except Stop Run :=
  let sp := e.span r.plane i
  match r.s.read (e.agent r.s) (addr64 sp.1) sp.2 .read with
  | .error x => .error (.err x)
  | .ok (v, s) => .ok { r with s := s.putElem e.vd (tagWidth e.tag) i v }

/-- Element i of VLDW: it stalls until MARK exceeds its range index (15 R230, 05 R69). -/
def loadMarked (e : VEntry) (i : Nat) (r : Run) : Except Stop Run :=
  if (r.s.wm (BitVec.ofNat 6 e.mb)).mark ≤ e.xb.toNat + i then .error .wait else loadElem e i r

/-- Element i of VGWIN: zero outside the window (15 R229). -/
def loadWindow (e : VEntry) (i : Nat) (r : Run) : Except Stop Run :=
  let p := r.plane
  let s := tagBytes e.tag
  let ofs := e.mq % 2 == 1
  let j := p.indexBytes (e.tags p).2.1 e.mb i s ofs
  let len : Int := if ofs then (e.xb.toNat : Int) else (e.xb.toNat * s : Nat)
  if 0 ≤ j ∧ j + s ≤ len then loadElem e i r else .ok { r with s := r.s.putElem e.vd (tagWidth e.tag) i 0 }

/-- The fields of record i of a segment load, read from field f on. -/
def readFields (e : VEntry) (mt : Tag) (base : Nat) : (n f : Nat) → State → Except MemErr (List Nat × State)
  | 0, _, s => .ok ([], s)
  | n + 1, f, s =>
    match s.read (e.agent s) (addr64 ((base + f * tagBytes mt) % 2 ^ 64)) (tagBytes mt) .read with
    | .error x => .error x
    | .ok (v, s) =>
      match readFields e mt base n (f + 1) s with
      | .error x => .error x
      | .ok (vs, s) => .ok (v :: vs, s)

/-- Record i of VLDSEG, each field converted (15 R226, 07 R91). -/
def loadRecord (e : VEntry) (i : Nat) (r : Run) : Except Stop Run :=
  let mt := e.fieldTag r.s.me
  match readFields e mt (e.span r.s.me i).1 e.fields 0 r.s with
  | .error x => .error (.err x)
  | .ok (vs, s) =>
    .ok (vs.zipIdx.foldl (fun (r : Run) x =>
      let c := if mt == e.tag then (x.1, flNone) else elConvert r.s.me.modulus e.mode e.sat mt e.tag x.1
      { r with s := r.s.putElem (e.vd + x.2 * e.g) (tagWidth e.tag) i c.1, fl := r.fl ||| c.2 }) { r with s := s })

/-- The places of element i, which must lie in scratchpad (07 R86). -/
def State.spadPlaces (s : State) (e : VEntry) (i : Nat) (acc : Acc) : Except MemErr (List Place) :=
  s.places (e.agent s) acc true (e.span s.me i).2 (e.span s.me i).1 none

/-- Element i of VLDFE: the first active element of a granule waits for FULL, and clears it with .C; the others of the granule are
read in the same step (15 R232, 07 R87). -/
def loadFE (e : VEntry) (i : Nat) (r : Run) : Except Stop Run :=
  match r.s.spadPlaces e i .read with
  | .error x => .error (.err x)
  | .ok ps =>
    let follows := (r.s.active e 0 i).any fun j => e.granuleOf r.s.me j == e.granuleOf r.s.me i
    match ps with
    | [] => .ok r
    | g :: _ =>
      if !follows && !r.s.feGet g then .error .wait
      else match r.s.readPlaces (e.span r.s.me i).1 ps with
        | .error a => .error (.err (.memerr a))
        | .ok bs =>
          let s := if e.mq % 2 == 1 && !follows then r.s.feSet g false else r.s
          .ok { r with s := s.putElem e.vd (tagWidth e.tag) i (leNat bs) }

/-- Element i of a load of the entry's function. -/
def loadOne (e : VEntry) : Nat → Run → Except Stop Run :=
  match e.fn3 with
  | 2 => loadRecord e
  | 5 => loadMarked e
  | 6 => loadWindow e
  | 7 => loadFE e
  | _ => loadElem e

/-- Elements in turn, until one stops: the run, and where and why it stopped. -/
def runElems (f : Nat → Run → Except Stop Run) : List Nat → Run → Run × Option (Nat × Stop)
  | [], r => (r, none)
  | i :: rest, r =>
    match f i r with
    | .ok r' => runElems f rest r'
    | .error x => (r, some (i, x))

/-! ### Stores -/

/-- The values that element i stores, in the order of their addresses (15 R222, R226). -/
def VEntry.stored (e : VEntry) (p : Plane) (i : Nat) : List Nat :=
  (List.range e.fields).map fun f => p.elem (e.vd + f * e.g) (tagWidth e.tag) i

/-- The check of the accesses of element i of a store: translation for writing, in scratchpad for VSTFE (15 R223, R233, 17 R256). -/
def checkStore (e : VEntry) (i : Nat) (r : Run) : Except Stop Run :=
  let sp := e.span r.s.me i
  match r.s.places (e.agent r.s) .write (e.fn3 == 5) sp.2 sp.1 none with
  | .error x => .error (.err x)
  | .ok _ => .ok r

/-- Values that an entry stores, one after another from an address on. -/
def storeValues (e : VEntry) (n : Nat) : List Nat → Nat → State → Except MemErr State
  | [], _, s => .ok s
  | v :: vs, a, s =>
    match s.write (e.agent s) (addr64 a) n v .write with
    | .error x => .error x
    | .ok s => storeValues e n vs ((a + n) % 2 ^ 64) s

/-- Element i of a store performed; VSTFE sets FULL with the last active element of a granule (15 R222, R233). -/
def storeElem (e : VEntry) (vl i : Nat) (r : Run) : Except Stop Run :=
  let p := r.s.me
  match storeValues e (tagBytes e.tag) (e.stored p i) (e.span p i).1 r.s with
  | .error x => .error (.err x)
  | .ok s =>
    if e.fn3 == 5 && !((s.active e (i + 1) vl).any fun j => e.granuleOf p j == e.granuleOf p i) then
      match s.spadPlaces e i .write with
      | .ok (g :: _) => .ok { r with s := s.feSet g true }
      | _ => .ok { r with s := s }
    else .ok { r with s := s }

/-- Whether two of the elements store to a common byte. -/
def spansMeet (e : VEntry) (p : Plane) : List Nat → Bool
  | [] => false
  | i :: rest => (rest.any fun j =>
      let a := e.span p i
      let b := e.span p j
      groupsMeet a.1 a.2 b.1 b.2) || spansMeet e p rest

/-- Insertion by a key. -/
def insertByKey (key : Nat → Nat) (i : Nat) : List Nat → List Nat
  | [] => [i]
  | j :: rest => if key i ≤ key j then i :: j :: rest else j :: insertByKey key i rest

/-- The order in which elements are stored: ascending; for VSTX with elements that meet, any order (07 R101, log 6). -/
def storeOrder (e : VEntry) (s : State) (xs : List Nat) : List Nat :=
  if e.fn3 == 3 && spansMeet e s.me xs then xs.foldr (insertByKey fun i => Config.freeNat (s.free * 8192 + i)) [] else xs

/-! ### Superblocks -/

/-- The blocks of register r that a load or store of Q4 or B16 with vector length vl touches (15 R225). -/
def blocksOf (t : Tag) (vl r : Nat) : Nat := min (elemsOf (tagWidth t) / 32) ((vl - r * elemsOf (tagWidth t) + 31) / 32)
/-- Bytes of a block's codes or mantissas (15 Table 15-3). -/
def blockBytes (t : Tag) : Nat := if t == .q4 then 16 else 64
/-- S of 15 Table 15-3. -/
def superblock (t : Tag) : Nat := if t == .q4 then 544 else 520

/-- The superblock of register r of the group read (15 R225, 17 R257). -/
def loadSuper (e : VEntry) (vl r : Nat) (u : Run) : Except Stop Run :=
  let t := e.tag
  let nb := blocksOf t vl r
  let base := (e.xa.toNat + r * superblock t) % 2 ^ 64
  match u.s.read (e.agent u.s) (addr64 base) (nb * blockBytes t) .read with
  | .error x => .error (.err x)
  | .ok (codes, s) =>
    match s.read (e.agent s) (addr64 ((base + 512) % 2 ^ 64)) nb .read with
    | .error x => .error (.err x)
    | .ok (scales, s) =>
      let bits := nb * blockBytes t * 8
      let put (p : Plane) : Plane :=
        let old := p.vreg (e.vd + r)
        p.setVreg (e.vd + r) ⟨BitVec.ofNat 4096 (putBits old.data.toNat 0 bits codes),
          BitVec.ofNat 256 (putBits (sideOf t old.side).toNat 0 (8 * nb) scales), t⟩
      .ok { u with s := s.modMe put }

/-- The superblock of register r of the group written; elements at or above VL of a block that VL cuts are written as zero (15 R225). -/
def storeSuper (e : VEntry) (vl r : Nat) (u : Run) : Except Stop Run :=
  let t := e.tag
  let nb := blocksOf t vl r
  let base := (e.xa.toNat + r * superblock t) % 2 ^ 64
  let v := u.s.me.vreg (e.vd + r)
  let live := min (elemsOf (tagWidth t)) (vl - r * elemsOf (tagWidth t)) * tagWidth t
  match u.s.write (e.agent u.s) (addr64 base) (nb * blockBytes t) (v.data.toNat % 2 ^ live) .write with
  | .error x => .error (.err x)
  | .ok s =>
    match s.write (e.agent s) (addr64 ((base + 512) % 2 ^ 64)) nb (v.side.toNat % 2 ^ (8 * nb)) .write with
    | .error x => .error (.err x)
    | .ok s => .ok { u with s := s }

/-- The check of the superblock of register r before it is stored: it is one access for faults (17 R257). -/
def checkSuper (e : VEntry) (vl r : Nat) (u : Run) : Except Stop Run :=
  let nb := blocksOf e.tag vl r
  let base := (e.xa.toNat + r * superblock e.tag) % 2 ^ 64
  match u.s.places (e.agent u.s) .write false (nb * blockBytes e.tag) base none with
  | .error x => .error (.err x)
  | .ok _ =>
    match u.s.places (e.agent u.s) .write false nb ((base + 512) % 2 ^ 64) none with
    | .error x => .error (.err x)
    | .ok _ => .ok u

/-- Where an entry run over elements lo to hi − 1 ended: the run, and where and why it stopped. -/
abbrev Ended := Run × Option (Nat × Stop)

/-- Q4 and B16 by registers; a stop is reported at a multiple of E. -/
def runSuper (e : VEntry) (lo hi : Nat) (r : Run) : Ended :=
  let per := elemsOf (tagWidth e.tag)
  let regs := indices (lo / per) ((hi + per - 1) / per)
  let at_ (x : Ended) : Ended := (x.1, x.2.map fun y => (y.1 * per, y.2))
  if e.major == 0x27 then at_ (runElems (loadSuper e e.vl) regs r)
  else at_ (runElems (fun k r => match checkSuper e e.vl k r with | .error x => .error x | .ok r => storeSuper e e.vl k r) regs r)

/-- A load over elements lo to hi − 1. -/
def runLoad (e : VEntry) (lo hi : Nat) (r : Run) : Ended :=
  if tagIsQB e.tag then runSuper e lo hi r
  else
    let x := runElems (loadOne e) (r.s.active e lo hi) r
    match x.2 with
    | some (k, .err (.xlate _ _)) =>
      if e.fn3 == 4 && (r.s.active e 0 k).length != 0 then
        -- VLDFF past its first active element: the mask is cut at k (15 R228)
        let cut (p : Plane) : Plane :=
          p.setMask e.mm (maskBelow (p.maskReg e.mm) e.vl (p.maskReg e.mm &&& BitVec.ofNat 8192 (2 ^ k - 1)))
        ({ x.1 with s := x.1.s.modMe cut }, none)
      else x
    | _ => x

/-- A store over elements lo to hi − 1: the active elements below the first that fails its checks are performed (15 R222, R223). -/
def runStore (e : VEntry) (lo hi : Nat) (r : Run) : Ended :=
  if tagIsQB e.tag then runSuper e lo hi r
  else
    let act := r.s.active e lo hi
    let chk := runElems (checkStore e) act r
    let todo := match chk.2 with | some (k, _) => act.filter fun i => decide (i < k) | none => act
    let x := runElems (storeElem e e.vl) (storeOrder e r.s todo) { r with s := { r.s with free := r.s.free + 1 } }
    match x.2 with
    | some _ => x
    | none => (x.1, chk.2)

/-- Whether elements from lo on of an entry must be run in one: those of a VSTXO that store to common bytes, between which no other agent
may see the location (07 R101). -/
def VEntry.joined (e : VEntry) (s : State) (lo : Nat) : Bool := e.major == 0x28 && e.fn3 == 4 && spansMeet e s.me (s.active e lo e.vl)

/-- An end of a run raised to the end of a register's superblock (15 R225, 17 R257). -/
def superEnd (t : Tag) (hi : Nat) : Nat :=
  let per := elemsOf (tagWidth t)
  (hi + per - 1) / per * per

/-- The end of a run that may not cut a granule of VLDFE or VSTFE (07 R87). -/
def granuleEnd (e : VEntry) (p : Plane) (hi : Nat) : Nat → Nat
  | 0 => hi
  | n + 1 => if hi < e.vl && e.granuleOf p hi == e.granuleOf p (hi - 1) then granuleEnd e p (hi + 1) n else hi

end Sys2Proof.Machine
end

