-- ==== Sys2Proof/Machine/Press.lean ====
section
/-! DEFINITION. The Press: regions, update streams, flushes and queries, and accumulation windows (23 R335 to R348). -/
namespace Sys2Proof.Machine

/-- ROOT of a plane's XROOT. -/
def State.rootOfPlane (s : State) (p : PlaneId) : Nat := rootOf (s.plane p).xroot

/-- Region k, where it exists and a strand of a ROOT may name it (23 R335). -/
def State.regionUnder (s : State) (root k : Nat) : Option Region :=
  match s.regions[k]? with
  | some (some g) => if g.root == root then some g else none
  | _ => none
/-- Region k, where it exists and plane p may name it (23 R335). -/
def State.region? (s : State) (p : PlaneId) (k : Nat) : Option Region := s.regionUnder (s.rootOfPlane p) k

/-- REGION of a stream word (23 R339). -/
def streamReg (x : Word) : Nat := (x.extractLsb' 0 8).toNat
/-- The counter of a stream word (23 R339). -/
def streamCounter (x : Word) : TReg := x.extractLsb' 8 4

/-- Whether a tag and operator form a pair of the region column of 23 Table 23-2. -/
def regionPair (t : Tag) (op : Nat) : Bool :=
  match op with
  | 0 => t == .fp32 || t == .bf16 || t == .s32 || t == .s64
  | 1 | 2 => t == .fp32 || t == .bf16 || t == .s32 || t == .s64 || t == .z32 || t == .z64
  | 3 | 4 | 5 => t == .s32 || t == .s64 || t == .z32 || t == .z64
  | 6 => t == .fp32 || t == .bf16 || t == .fp64 || t == .s32 || t == .s64 || t == .z32 || t == .z64
  | _ => false

/-- Whether a tag and operator form a pair of the window column of 23 Table 23-2. -/
def windowPair (t : Tag) (op : Nat) : Bool :=
  match op with
  | 0 => t == .fp32 || t == .fp64 || t == .s32 || t == .s64
  | 1 | 2 => t == .fp32 || t == .fp64 || t == .s32 || t == .s64 || t == .z32 || t == .z64
  | 3 | 4 | 5 => t == .s32 || t == .s64 || t == .z32 || t == .z64
  | _ => false

/-- The window identity of an operator and tag (23 Table 23-2). -/
def windowIdentity (t : Tag) (op : Nat) : Nat :=
  let w := tagWidth t
  match op, tagFp? t with
  | 0, some f => f.signed true 0
  | 0, none => 0
  | 1, some f => f.infPattern
  | 1, none => intPattern w (intMax (tagSigned t) w)
  | 2, some f => f.signed true f.infPattern
  | 2, none => intPattern w (intMin (tagSigned t) w)
  | 3, _ => 2 ^ w - 1
  | _, _ => 0

/-- One combination in a window: FP ADD rounds, FP MIN and MAX by 03 R40 (23 R347). -/
def windowOp (t : Tag) (op : Nat) (rm : RMode) (sat : Bool) (a b : Nat) : Nat × Flags :=
  match tagFp? t, op with
  | some f, 0 => let x := fpAdd rm (f.value a) (f.value b); let q := f.round rm sat x.1; (q.1, x.2 ||| q.2)
  | some f, 1 => fpMinMax f false a b
  | some f, _ => fpMinMax f true a b
  | none, 0 => elInt t 0 a b
  | none, 1 => elInt t 4 a b
  | none, 2 => elInt t 5 a b
  | none, 3 => (Nat.land a b, flNone)
  | none, 4 => (Nat.lor a b, flNone)
  | none, _ => (Nat.xor a b, flNone)

/-- Bytes of window store that a window takes (23 R346). -/
def windowBytes (n logc : Nat) (t : Tag) : Nat := (n * tagBytes t * 2 ^ logc + 63) / 64 * 64
/-- Bytes that a plane's window takes. -/
def Plane.windowBytes (p : Plane) : Nat := match p.window with | some w => Machine.windowBytes w.n w.logc w.tag | none => 0
/-- Bytes of core c's window store in use (23 R346). -/
def State.windowUsed (s : State) (c : CoreId) : Nat := planeIdx.foldl (fun a i => a + (s.plane (planeOf c i)).windowBytes) 0

/-! ### Checks at commit -/

/-- The checks at commit of major 0x29 (23 R336 to R348). -/
def State.planUpd (s : State) (fresh : Bool) (e : VEntry) (tv : TagView) : VPlan :=
  let p := s.me
  let g := e.g
  let ta := tv e.va
  let tb := tv e.vb
  let wref := max (tagWidth ta) (tagWidth tb)
  let sized := tagWidth ta != 0 && tagWidth tb != 0
  let ga := if sized then groupSize g (tagWidth ta) wref else g
  let gb := if sized then groupSize g (tagWidth tb) wref else g
  let align := [e.va % ga != 0, e.vb % gb != 0]
  let groups := [!tv.uniform e.va ga ta, !tv.uniform e.vb gb tb, decide (vlmax (if tagWidth ta < tagWidth tb then tb else ta) g < e.vl)]
  let counter := fresh && !s.canIssue (streamCounter e.xa) 1
  let winFp := match p.window with | some w => (tagFp? w.tag).isSome | none => false
  match e.fn5 with
  | 0 =>
    let bad := match s.regionUnder e.root (streamReg e.xa) with | some r => r.tag != tb | none => true
    .check align ([e.xa.toNat / 4096 != 0, bad, !tagIsInt ta, counter] ++ groups) [] false wref
  | 1 => .check align ([e.xa.toNat / 4096 != 0, streamReg e.xa != 0, !(ta == .s64 || ta == .z64), tb == .none, counter] ++ groups) [] false wref
  | 2 => .check [] [] [] false 8
  | 3 =>
    let bad := match p.window with | some w => w.tag != tb | none => true
    .check align ([bad, !tagIsInt ta] ++ groups) [] winFp wref
  | 4 => .check [] [p.window.isNone] [] winFp 8
  | 5 => .check [] [e.xa.toNat / 4096 != 0, (s.regionUnder e.root (streamReg e.xa)).isNone, counter] [] false 8
  | 6 => .check [] [e.w.getLsbD 8 && decide (256 ≤ e.xa.toNat)] [] false 8
  | _ => .check [] [decide (512 ≤ e.xa.toNat)] [] false 8

/-! ### Elements of update and window instructions -/

/-- The pair emitted by the operation of entry e. -/
def State.emit (s : State) (e : VEntry) (reg pa v : Nat) : State :=
  s.modOp s.cur (streamCounter e.xa) e.xb.toNat fun k => match k with
    | .upd r ps d => .upd r (ps ++ [⟨reg, pa, v, s.me.waited.toList⟩]) d
    | k => k

/-- The region in use under a ROOT whose extent holds a virtual address (23 R339). -/
def State.regionHolding (s : State) (root a : Nat) : Option (Nat × Region) :=
  (List.range 256).findSome? fun k => match s.regionUnder root k with
    | some g => if g.base ≤ a && a < g.base + g.len * tagBytes g.tag then some (k, g) else none
    | none => none

/-- A pair emitted to a region at virtual address a (23 R339). -/
def emitAt (e : VEntry) (reg a v : Nat) (r : Run) : Except Stop Run :=
  match r.s.frameOf (e.agent r.s) a .write false with
  | .error k => .error (.err (k.raise (addr64 a)))
  | .ok f => .ok { r with s := r.s.emit e reg (f.place a).pa v }

/-- Element i of UPD (23 R339). -/
def updElem (e : VEntry) (i : Nat) (r : Run) : Except Stop Run :=
  let p := r.s.me
  match r.s.regionUnder e.root (streamReg e.xa) with
  | none => .error .illop
  | some g =>
    let k := p.indexBytes (e.tags p).1 e.va i 1 true
    if k < 0 ∨ (g.len : Int) ≤ k then .error .illop
    else emitAt e (streamReg e.xa) (g.base + k.toNat * tagBytes g.tag) (p.elem e.vb (tagWidth g.tag) i) r

/-- Element i of UPDA (23 R339). -/
def updaElem (e : VEntry) (i : Nat) (r : Run) : Except Stop Run :=
  let p := r.s.me
  let a := p.elem e.va 64 i
  let tb := (p.vreg e.vb).tag
  match r.s.regionHolding e.root a with
  | none => .error .illop
  | some (k, g) => if a % tagBytes g.tag != 0 || tb != g.tag then .error .illop else emitAt e k a (p.elem e.vb (tagWidth tb) i) r

/-- The active elements of a V3 entry. -/
def State.activeV (s : State) (e : VEntry) (lo hi : Nat) : List Nat := (indices lo hi).filter fun i => s.me.maskBit e.m3 i

/-- UPD and UPDA over elements lo to hi − 1. -/
def runUpd (e : VEntry) (lo hi : Nat) (r : Run) : Ended :=
  runElems (if e.fn5 == 0 then updElem e else updaElem e) (r.s.activeV e lo hi) r

/-- The copy that element i of UACC updates: that of its lane (23 R347). -/
def Window.copyOf (w : Window) (i : Nat) : Nat := i % (2048 / tagWidth w.tag) * tagWidth w.tag / 64 % 2 ^ w.logc

/-- Element i of UACC on a window (23 R347). -/
def accElem (e : VEntry) (p : Plane) (i : Nat) (x : Window × Flags) : Window × Flags :=
  let w := x.1
  let wd := tagWidth w.tag
  let k := p.indexBytes (e.tags p).1 e.va i 1 true
  if k < 0 ∨ (w.n : Int) ≤ k then ({ w with oor := min (w.oor + 1) 0xFFFF }, x.2)
  else
    let c := w.copyOf i
    let old := ((w.copies[c]?).bind (·[k.toNat]?)).getD 0
    let v := windowOp w.tag w.op e.mode e.sat old (p.elem e.vb wd i)
    ({ w with copies := w.copies.modify c fun l => l.set k.toNat v.1 }, x.2 ||| v.2)

/-- The granule of a window's store that element k of copy c is in: the copies lie one after another (27 R399, log 61). -/
def Window.granule (w : Window) (c k : Nat) : Nat := (c * w.n + k) * tagBytes w.tag / 16

/-- The address of the window element that element i of UACC reads from a poisoned granule of the window's store (27 R400, log 61). -/
def Window.badRead (w : Window) (e : VEntry) (p : Plane) (i : Nat) : Option Word :=
  let k := p.indexBytes (e.tags p).1 e.va i 1 true
  if 0 ≤ k && decide (k < (w.n : Int)) && w.bad.contains (w.granule (w.copyOf i) k.toNat)
  then some (w.base + BitVec.ofNat 64 (k.toNat * tagBytes w.tag)) else none

/-- UACC over elements lo to hi − 1, ascending (23 R347). DEDUCED (log 61): it stops before the element group, of `per` elements, in which
one reads a poisoned granule (27 R400). -/
def runUacc (e : VEntry) (per lo hi : Nat) (r : Run) : Ended :=
  match r.s.me.window with
  | none => (r, none)
  | some w =>
    let act := r.s.activeV e lo hi
    let bad := act.findSome? fun i => (w.badRead e r.s.me i).map fun a => (i / per * per, a)
    let todo := match bad with | some b => act.filter fun i => decide (i < b.1) | none => act
    let x := todo.foldl (fun x i => accElem e r.s.me i x) (w, r.fl)
    ({ r with s := r.s.modMe fun p => { p with window := some x.1 }, fl := x.2 }, bad.map fun b => (b.1, .err (.memerr b.2)))

/-- Element k of UMERGE: the copies folded, memory read, combined and written, the copies reset (23 R348). A poisoned granule of the window
raises MEMERR with the address of the element (27 R400, log 61). -/
def mergeElem (e : VEntry) (k : Nat) (r : Run) : Except Stop Run :=
  match r.s.me.window with
  | none => .ok r
  | some w =>
    let f := windowOp w.tag w.op e.mode e.sat
    let n := tagBytes w.tag
    let a := w.base + BitVec.ofNat 64 (k * n)
    if (List.range w.copies.length).any fun c => w.bad.contains (w.granule c k) then .error (.err (.memerr a)) else
    let acc := match w.copies.map fun y => (y[k]?).getD 0 with
      | [] => (windowIdentity w.tag w.op, flNone)
      | c :: cs => cs.foldl (fun x y => let v := f x.1 y; (v.1, x.2 ||| v.2)) (c, flNone)
    match r.s.read (e.agent r.s) a n .read with
    | .error x => .error (.err x)
    | .ok (old, s) =>
      let v := f old acc.1
      match s.write (e.agent s) a n v.1 .write with
      | .error x => .error (.err x)
      | .ok s =>
        .ok { r with
          s := s.modMe fun p => { p with window := some { w with copies := w.copies.map fun c => c.set k (windowIdentity w.tag w.op) } }
          fl := r.fl ||| acc.2 ||| v.2 }

/-- UMERGE over window elements lo to hi − 1 (23 R348). -/
def runUmerge (e : VEntry) (lo hi : Nat) (r : Run) : Ended := runElems (mergeElem e) (indices lo hi) r

/-! ### UFLUSH -/

/-- UFLUSH at its place in the queue: it covers the pairs of the plane's older instructions, those that one stopped by a trap has emitted
among them (23 R340, R344). -/
def State.startFlush (s : State) (e : VEntry) : State :=
  let own := s.ops.filterMap fun o => match o.kind with
    | .upd _ ps d => if o.plane == s.cur && (d || !ps.isEmpty) then some (o.n, o.seq) else none
    | _ => none
  s.modOp s.cur (streamCounter e.xa) e.xb.toNat fun k => match k with | .uflush r _ _ => .uflush r true own | k => k

/-! ### X-writing functions: what each writes to Xd, or how it traps -/

/-- What an X-writing function answers: the state and the value of Xd, a run-time trap at its place in the queue, or a wait. -/
inductive XRes where
  | done (s : State) (v : Word)
  | err (e : MemErr)
  | illop
  | wait

/-- A field of a list of bytes, little-endian. -/
def fieldAt (bs : List Byte) (off n : Nat) : Nat := leNat ((bs.drop off).take n)
/-- Whether a range of a list of bytes is zero. -/
def zeroAt (bs : List Byte) (off n : Nat) : Bool := ((bs.drop off).take n).all (· == 0)

/-- n bytes read at va by the issuing strand, behind its older vector instructions that have still to access them (07 R93, 17 R253). -/
def State.readBytes (s : State) (va : Word) (n : Nat) : Except MemErr (List Byte × State) :=
  if s.vecConflict s.myAgent va n .read then .error .behind
  else match s.read s.myAgent va n .read with
  | .error e => .error e
  | .ok (v, s) => .ok (leBytes n v, s)

/-- UWIN (23 R346). -/
def State.uwin (s : State) (xa : Word) : XRes :=
  if xa.toNat % 8 != 0 then .illop
  else match s.readBytes xa 16 with
  | .error e => .err e
  | .ok (bs, s) =>
    let n := fieldAt bs 8 2
    let logc := fieldAt bs 10 1
    let op := fieldAt bs 12 1
    match Tag.ofCode? (BitVec.ofNat 5 (fieldAt bs 11 1)) with
    | none => .illop
    | some t =>
      if 32 ≤ fieldAt bs 11 1 || n == 0 || 4096 < n || 5 < logc || !windowPair t op || !zeroAt bs 13 3 ||
          fieldAt bs 0 8 % tagBytes t != 0 || s.me.window.isSome then .illop
      else if 65536 < s.windowUsed (coreOf s.cur) + windowBytes n logc t then .done s 1
      else
        let w : Window := ⟨BitVec.ofNat 64 (fieldAt bs 0 8), n, logc, t, op, List.replicate (2 ^ logc) (List.replicate n (windowIdentity t op)), 0, []⟩
        .done (s.modMe fun p => { p with window := some w }) 0

/-- UWIN.REL (23 R346). -/
def State.uwinRel (s : State) : XRes :=
  if s.me.window.isSome then .done (s.modMe fun p => { p with window := none }) 0 else .done s 1

/-- What the walk of a region's extent finds, page by page ascending: the frames, a fault, or a frame that no region may hold
(23 R337). -/
def State.regionFrames (s : State) : (n va : Nat) → XRes ⊕ List Nat
  | 0, _ => .inr []
  | n + 1, va =>
    match s.frameOf s.myAgent va .rmw false with
    | .error k => .inl (.err (k.raise (addr64 va)))
    | .ok f =>
      if f.base / pkgSpan != s.pkg || areaOf (f.base % pkgSpan) != .hbm || s.formOf f.base != 0 then .inl .illop
      else match s.regionFrames n ((va / 65536 + 1) * 65536) with
        | .inl r => .inl r
        | .inr fs => .inr (f.base :: fs)

/-- The physical ranges of a region, frame by frame (23 R337). -/
def Region.ranges (g : Region) : List (Nat × Nat) :=
  let lo := g.base % 65536
  let bytes := g.len * tagBytes g.tag
  g.frames.zipIdx.map fun x =>
    let a := if x.2 == 0 then lo else 0
    let b := min 65536 (lo + bytes - x.2 * 65536)
    (x.1 + a, b - a)

/-- Whether two regions share a physical byte (23 R337). -/
def Region.overlaps (g h : Region) : Bool := g.ranges.any fun x => h.ranges.any fun y => groupsMeet x.1 x.2 y.1 y.2

/-- UREGION (23 R337). -/
def State.uregion (s : State) (xa : Word) : XRes :=
  if xa.toNat % 8 != 0 then .illop
  else match s.readBytes xa 32 with
  | .error e => .err e
  | .ok (bs, s) =>
    let base := fieldAt bs 0 8
    let len := fieldAt bs 8 8
    let op := fieldAt bs 17 1
    match Tag.ofCode? (BitVec.ofNat 5 (fieldAt bs 16 1)) with
    | none => .illop
    | some t =>
      if 32 ≤ fieldAt bs 16 1 || base % 64 != 0 || 2 ^ 57 ≤ base || len == 0 || 2 ^ 34 < len || !regionPair t op ||
          2 ≤ fieldAt bs 18 1 || !zeroAt bs 19 13 then .illop
      else
        let pages := (base % 65536 + len * tagBytes t + 65535) / 65536
        match s.regionFrames pages base with
        | .inl r => r
        | .inr fs =>
          let g : Region := ⟨s.me.coh, s.rootOfPlane s.cur, base, len, t, op, fieldAt bs 18 1 == 1, fs⟩
          if s.regions.toList.any fun o => match o with | some h => g.overlaps h | none => false then .done s 2
          else match s.regions.toList.findIdx? (·.isNone) with
            | none => .done s 1
            | some k => .done { s with regions := s.regions.setIfInBounds k (some g) } (BitVec.ofNat 64 (256 * k))

/-- Whether an update operation still names a region or has pairs for it (23 R338). -/
def OpKind.updates (k : OpKind) (r : Nat) : Bool :=
  match k with
  | .upd reg ps _ => reg == some r || ps.any fun p => p.reg == r
  | _ => false

/-- A region's pending pairs applied and its number freed (23 R338). -/
def State.freeRegion (s : State) (r : Nat) : State :=
  let s := s.applyKeys fun k => k.reg == r
  { s with regions := s.regions.setIfInBounds r none }

/-- Whether an update operation, of a resident or of an evicted strand, names region r or has pairs for it (23 R338). -/
def State.updating (s : State) (r : Nat) : Bool :=
  (s.ops.any fun o => o.kind.updates r) || s.suspended.any fun x => x.2.ops.any fun o => o.kind.updates r

/-- UREGION.REL (23 R338). -/
def State.uregionRel (s : State) (r : Nat) : XRes :=
  match s.region? s.cur r with
  | none => .done s 3
  | some _ => if s.updating r then .wait else .done (s.freeRegion r) 0

/-- UQUERY (23 R345, Tables 23-4 and 23-5). -/
def State.uquery (s : State) (xa : Word) : Word :=
  if xa.getLsbD 8 then
    match s.me.window with
    | none => 0
    | some w => BitVec.ofNat 64 (2 ^ 63 + w.logc * 2 ^ 56 + w.tag.code.toNat * 2 ^ 48 + w.op * 2 ^ 40 + w.n * 2 ^ 16 + w.oor)
  else match s.region? s.cur (streamReg xa) with
    | none => 0
    | some g =>
      let pend := (s.pend.filter fun k => k.reg == streamReg xa).length
      BitVec.ofNat 64 (2 ^ 63 + b2n g.eager * 2 ^ 62 + g.tag.code.toNat * 2 ^ 48 + g.op * 2 ^ 40 + min pend (2 ^ 40 - 1))

/-! ### Events -/

/-- Event PRESS_ACCEPT: the Press receives pair k of an update operation (23 R341); pairs of one instruction are unordered. -/
def execPressAccept (p : PlaneId) (n : TReg) (seq k : Nat) (s : State) : Out :=
  .next (match s.op? p n seq with
    | some o => match o.kind with
      | .upd r ps d => match ps[k]? with
        | some x => (s.modOp p n seq fun _ => .upd r (ps.eraseIdx k) d).acceptPair p n seq x
        | none => s
      | _ => s
    | none => s)

/-- Event EAGER_APPLY: an idle Press applies the bins of EAGER region r in one 4 KiB block (23 R341). -/
def execEagerApply (r pa : Nat) (s : State) : Out :=
  .next (match s.regions[r]? with
    | some (some g) => if g.eager then s.applyKeys fun k => k.reg == r && k.pa / 4096 == pa / 4096 else s
    | _ => s)

/-- Event UPD_COMPLETE: the instruction has completed and every pair is accepted (23 R340). -/
def execUpdComplete (p : PlaneId) (n : TReg) (seq : Nat) (s : State) : Out :=
  .next (match s.op? p n seq with
    | some o => match o.kind with
      | .upd _ [] true => s.completeOp p n seq
      | _ => s
    | none => s)

/-- Whether an update operation still has pairs for region r, or, unless a trap has stopped it, may have (23 R340, R344). -/
def OpKind.owes (k : OpKind) (r : Nat) : Bool := match k with
  | .upd _ ps false => ps.any fun p => p.reg == r
  | k => k.updates r

/-- Event UFLUSH_COMPLETE: once the pairs of the plane's earlier update operations have been accepted, those that one stopped by a trap has
emitted among them, the region's pending pairs are applied, and the operation is counted (23 R344). -/
def execUflushComplete (p : PlaneId) (n : TReg) (seq : Nat) (s : State) : Out :=
  .next (match s.op? p n seq with
    | some o => match o.kind with
      | .uflush r true own =>
        if own.any fun x => match s.op? p x.1 x.2 with | some q => q.kind.owes r | none => false then s
        else (s.applyKeys fun k => k.reg == r).completeOp p n seq
      | _ => s
    | none => s)

/-- Event REGION_RELEASE_APPLY: a UREGION.REL of plane p that waited for covered updates applies the region's pairs and frees its
number (23 R338). -/
def execRegionReleaseApply (p : PlaneId) (s : State) : Out :=
  .next (match s.waitOf p with
    | some (.regrel d r) => s.asPlane p fun s => match s.uregionRel r with
      | .done s v => (s.modMe fun p => { p with qnext := p.qnext + 1 }).retX d v 4
      | _ => s
    | _ => s)

end Sys2Proof.Machine
end

