-- ==== Sys2Proof/Machine/VIssue.lean ====
section
/-! DEFINITION. The vector queue: commit, the vector unit at the head of the queue, streams bound to registers, GCSLEEP and VDRAIN
(13 R183 to R194, 15 R234, R235, 17 R252 to R257, 25 R373). -/
namespace Sys2Proof.Machine

/-- X register number k mod 32. -/
def xnum (k : Nat) : XReg := BitVec.ofNat 5 k

/-- The X register whose value word 2 of a resume entry holds (17 Table 17-6, 23 R340). -/
def VEntry.regA (e : VEntry) : Option XReg :=
  match e.major with
  | 0x23 => if e.fn5 == 12 then some (xnum e.va) else none
  | 0x26 => if e.fn5 == 9 then some (xnum e.va) else none
  | 0x27 | 0x28 => some (fldXa e.w)
  | 0x29 => if e.fn5 == 0 || e.fn5 == 1 || e.fn5 == 5 then some (xnum e.vd) else if e.fn5 == 3 || e.fn5 == 4 then none else some (xnum e.va)
  | _ => none

/-- The X register whose value word 3 of a resume entry holds (17 Table 17-6). -/
def VEntry.regB (e : VEntry) : Option XReg :=
  match e.major with
  | 0x22 => if fldSi e.w == 0#1 then some (fldXb e.w) else none
  | 0x26 => if [1, 2, 7, 8, 9, 13].contains e.fn5 then some (xnum e.vb) else none
  | 0x27 => if e.fn3 == 1 then some (xnum e.mb) else if e.fn3 == 5 || e.fn3 == 6 then some (fldXa e.w + 1) else none
  | 0x28 => if e.fn3 == 1 then some (xnum e.mb) else if e.fn3 == 6 then some (fldXa e.w + 1) else none
  | _ => none

/-- The queue entry of a word at commit: configuration, mode and X operands as they stand (13 R180, R189, R190). -/
def State.entryOf (s : State) (w : IWord) (pfx : Option (BitVec 26)) : VEntry :=
  let p := s.me
  let e : VEntry := ⟨w, pfx, p.qnext, p.lg, p.tag, p.vl, p.rm, p.sat, 0, 0, 0, none, 0, 0, p.level, rootOf p.xroot⟩
  { e with xa := match e.regA with | some r => p.getX r | none => 0
           xb := match e.regB with | some r => p.getX r | none => 0 }

/-- The mask register that governs an entry. -/
def VEntry.mask (e : VEntry) : MReg := if e.major == 0x22 || e.major == 0x27 || e.major == 0x28 then e.mm else e.m3

/-- The register groups that an entry reads, with their sizes. -/
def VEntry.sources (e : VEntry) (tv : TagView) : List (Nat × Nat) :=
  let g := e.g
  let ta := tv e.va
  let sized (t : Tag) (other : Tag) : Nat := if tagWidth t == 0 || tagWidth other == 0 then g else groupSize g (tagWidth t) (max (tagWidth t) (tagWidth other))
  match e.major with
  | 0x21 | 0x22 =>
    let fma := arithFma e.fn5
    let ga := if fma && (ta == .bf16 || ta == .fp16) && tv e.vd == .fp32 then max 1 (g / 2) else g
    [(e.va, ga)] ++ (if e.major == 0x21 && !arithUnary e.fn5 && e.fn5 != 31 then [(e.vb, ga)] else []) ++ (if fma then [(e.vd, g)] else [])
  | 0x23 => if e.fn5 ≤ 4 then [(e.va, g), (e.vb, g)] else if e.fn5 == 13 then [(e.va, g)] else []
  | 0x24 =>
    let ga := match e.fn5 with | 7 => sized ta (dotTag ta) | 0 | 1 => sized ta (redTag ta) | _ => g
    match e.fn5 with
    | 9 => []
    | 8 => [(e.va, g), (e.vb, g)]
    | 7 => [(e.va, ga), (e.vb, ga), (e.vd, 1)]
    | _ => [(e.va, ga), (e.vb, 1)]
  | 0x25 =>
    let t := (Tag.ofCode? (e.w.extractLsb' 8 5)).getD .none
    match e.fn5 with
    | 2 => [(e.va, g)]
    | 5 => [(e.va, g), (e.vb, 1)]
    | 7 | 8 => [(e.va, g), (e.vb, g)]
    | _ => [(e.va, sized ta t)]
  | 0x26 =>
    match e.fn5 with
    | 0 => [(e.va, sized ta (tv e.vb)), (e.vb, sized (tv e.vb) ta)]
    | 5 | 6 => []
    | 9 => [(e.vd, g)]
    | 11 => [(e.va, max 1 (g / 2)), (e.vb, max 1 (g / 2))]
    | _ => [(e.va, g)]
  | 0x27 => if e.indexed then [(e.mb, sized (tv e.mb) e.tag)] else []
  | 0x28 => (List.range e.fields).map (fun f => (e.vd + f * g, if e.indexed then sized e.tag (tv e.mb) else g)) ++
      (if e.indexed then [(e.mb, sized (tv e.mb) e.tag)] else [])
  | 0x29 => if e.fn5 ≤ 1 || e.fn5 == 3 then [(e.va, sized ta (tv e.vb)), (e.vb, sized (tv e.vb) ta)] else []
  | _ => [(e.va, g), (e.vb, sized (tv e.vb) ta)]

/-! ### Bound groups (25 R372, R373) -/

/-- The streams of a plane bound to register groups that meet any of these groups, with their numbers. -/
def Plane.boundTo (p : Plane) (gs : List (Nat × Nat)) : List (Nat × Stream) :=
  (List.range 16).filterMap fun k => match (p.streams[k]?).join with
    | some st => match st.vreg with
      | some r => if gs.any fun x => groupsMeet r (2 ^ st.lg) x.1 x.2 then some (k, st) else none
      | none => none
    | none => none

/-- Tags as an instruction that reads sees them: a consumed group carries the stream's tag (25 R373). -/
def Plane.consumedView (p : Plane) (e : VEntry) (tv : TagView) : TagView := fun r =>
  match (p.boundTo [(r, 1)]).find? fun x => x.2.consume && (e.sources tv).any fun g => groupsMeet r 1 g.1 g.2 with
  | some x => x.2.tag
  | none => tv r

/-- The checks of 15 R234 on tags and groups. -/
def planGcsleep (e : VEntry) (tv : TagView) : VPlan :=
  let ta := tv e.va
  let tb := tv e.vb
  let g := e.g
  let gb := if tagWidth tb == 0 then g else groupSize g (tagWidth tb) 64
  .check [e.va % g != 0, e.vb % gb != 0]
    [!(ta == .s64 || ta == .z64), !(tagIsInt tb && 32 ≤ tagWidth tb), !tv.uniform e.va g ta, !tv.uniform e.vb gb tb,
     decide (vlmax ta g < e.vl)] [] false 64

/-- The checks of any vector instruction under a view of the tags, at commit (`fresh`) or again before it executes (17 R258), groups that
overlap as the class of the instruction permits (13 R187, R191). The permission to use a watermark is checked at commit alone (15 R230,
R231). -/
def State.vplan (s : State) (fresh : Bool) (e : VEntry) (tv0 : TagView) : VPlan :=
  let tv := s.me.consumedView e tv0
  let pl := match e.major with
  | 0x27 => planMem e (if e.fn3 == 2 then tv0 else tv) (!fresh || e.fn3 != 5 || s.mayConsume s.cur (BitVec.ofNat 6 e.mb))
  | 0x28 => planMem e tv (!fresh || e.fn3 != 6 || s.mayPublish s.cur (BitVec.ofNat 6 e.mb))
  | 0x29 => s.planUpd fresh e tv
  | 0x2A => planGcsleep e tv
  | _ => planCompute e tv
  pl.settle !(s.me.boundTo (e.sources tv ++ pl.dst.map fun d => (d.1, d.2.1))).isEmpty

/-- The tags after an entry's destinations take theirs. -/
def TagView.after (tv : TagView) (dst : List (Nat × Nat × Tag)) : TagView := fun r =>
  match dst.find? fun d => d.1 ≤ r && r < d.1 + d.2.1 with
  | some d => d.2.2
  | none => tv r

/-- The tags that an entry reads under, `tv` being those before it: of an instruction stopped part-way, what it has written itself counts
with the tag it had when the instruction began (17 R258, R259). -/
def State.entryView (s : State) (e : VEntry) (tv : TagView) : TagView := fun r =>
  match e.stags with
  | none => tv r
  | some t =>
    let began : TagView := fun r => if r == e.va then t.1 else if r == e.vd then t.2.2 else if r == e.vb || r == e.mb then t.2.1 else tv r
    if (s.vplan false e began).dst.any fun d => d.1 ≤ r && r < d.1 + d.2.1 then t.2.2 else tv r

/-- The tags that the front end tracks: those of the registers after every queued instruction (09 R111). -/
def State.frontTags (s : State) : TagView :=
  s.me.vq.foldl (fun tv e => (s.me.consumedView e tv).after (s.vplan false e (s.entryView e tv)).dst) fun r => (s.me.vreg r).tag

/-- Whether an entry writes, or reads, the group of a bound stream. -/
def touchesW (e : VEntry) (dst : List (Nat × Nat × Tag)) (st : Stream) : Bool :=
  st.contrib && match st.vreg with | some r => dst.any (fun d => groupsMeet r (2 ^ st.lg) d.1 d.2.1) && e.major != 0x2A | none => false
def touchesR (e : VEntry) (tv : TagView) (st : Stream) : Bool :=
  st.consume && match st.vreg with | some r => (e.sources tv).any fun d => groupsMeet r (2 ^ st.lg) d.1 d.2 | none => false

/-- The checks at commit on bound groups (25 R373): the tag, the mask, VL, G, and the pieces left. -/
def State.streamsOk (s : State) (e : VEntry) (tv : TagView) (dst : List (Nat × Nat × Tag)) : Bool :=
  let queued (f : VEntry → TagView → List (Nat × Nat × Tag) → Bool) : Nat :=
    (s.me.vq.foldl (fun (a : TagView × Nat) q =>
      let tv := s.entryView q a.1
      let d := (s.vplan false q tv).dst
      (a.1.after d, if f q tv d then a.2 + 1 else a.2)) ((fun r => (s.me.vreg r).tag), 0)).2
  (List.range 16).all fun k => match (s.me.streams[k]?).join with
    | none => true
    | some st =>
      (!touchesW e dst st ||
        (e.mask == 0 && e.vl == st.piece && e.lg.toNat == st.lg && dst.all (fun d => d.2.2 == st.tag) &&
          decide (st.sent + queued (fun q _ d => touchesW q d st) < st.npiece))) &&
      (!touchesR e tv st || decide (st.taken + queued (fun q t _ => touchesR q t st) < st.npiece))

/-- Pieces taken by an entry that reads bound groups: none where one has not arrived (25 R373). -/
def State.consume (s : State) (e : VEntry) (tv : TagView) : Option State :=
  (List.range 16).foldl (fun (o : Option State) k => o.bind fun s => match (s.me.streams[k]?).join with
    | none => some s
    | some st =>
      if !touchesR e tv st then some s
      else
        let piece : Option (List Nat) := match st.arrived with
          | x :: _ => some x
          | [] => if st.zero then some (List.replicate st.piece 0) else none
        piece.map fun xs => s.modMe fun p =>
          let r := st.vreg.getD 0
          let p := xs.zipIdx.foldl (fun p x => p.setElem r (tagWidth st.tag) x.2 x.1) p
          { p.setTags r st.tag (2 ^ st.lg) with
            streams := p.streams.setIfInBounds k (some { st with arrived := st.arrived.tail, taken := st.taken + 1 }) }) (some s)

/-- A piece contributed on stream k of plane p waits to leave the plane; on a stream that has ended it is discarded (25 R373, R377). `st`
becomes `st'`. -/
def State.sendPiece (s : State) (p : PlaneId) (k : Nat) (st st' : Stream) (piece : List Nat) : State :=
  s.modPlane p fun pl => { pl with
    streams := pl.streams.setIfInBounds k (some (if st.zero then st' else { st' with out := st'.out ++ [piece] })) }

/-- Pieces contributed by an entry that has written bound groups (25 R373). -/
def State.contribute (s : State) (e : VEntry) (dst : List (Nat × Nat × Tag)) : State :=
  (List.range 16).foldl (fun s k => match (s.me.streams[k]?).join with
    | none => s
    | some st =>
      if !touchesW e dst st then s
      else
        let piece := (List.range st.piece).map fun i => s.me.elem (st.vreg.getD 0) (tagWidth st.tag) i
        s.sendPiece s.cur k st { st with sent := st.sent + 1 } piece) s

/-! ### The head of the queue -/

/-- Insertion into an ascending list of planes. -/
def SortedPlanes.insert : List PlaneId → PlaneId → List PlaneId
  | [], p => [p]
  | q :: rest, p => if p < q then p :: q :: rest else if p == q then q :: rest else q :: SortedPlanes.insert rest p

/-- What one turn of the vector unit does. -/
inductive VTurn where
  /-- nothing can be done now -/
  | idle
  | went (s : State)

/-- Whether a CSEND or CFETCH of plane p on its stream k has not completed (25 R374). -/
def State.streamBusy (s : State) (p : PlaneId) (k : Nat) : Bool := s.ops.any fun o => o.plane == p && match o.kind with
  | .csend j _ _ => j == k
  | .cfetch j _ _ => j == k
  | _ => false

/-- A stream once the plane's queue is empty: gone where CCANCEL has shut it and no operation on it is left (25 R377). -/
def keptStream (busy : Bool) : Option Stream → Option Stream
  | some st => if st.shut && !busy then none else some st
  | none => none

/-- The head entry of the issuing plane removed, and with it the stream of its accesses (07 R77). -/
def State.popQueue (s : State) : State :=
  s.modMe fun p =>
    let q := p.vq.tail
    { p with
      vq := q
      held := match p.vq with
        | e :: _ => p.held.filter fun h => h.stream != .vector e.qpos
        | [] => p.held
      streams := if q.isEmpty then p.streams.mapIdx fun k => keptStream (s.streamBusy s.cur k) else p.streams }
/-- The head entry of the issuing plane replaced. -/
def State.setHead (s : State) (e : VEntry) : State := s.modMe fun p => { p with vq := e :: p.vq.tail }

/-- A trap at the head of the queue: that entry and the younger ones form the resume entries (17 R252), and their streams end (07 R77). -/
def State.vtrap (s : State) (cause : Word) (tval : Word) (entries : List VEntry) : State :=
  let s := if entries.isEmpty then s else s.modMe fun p => { p with held := p.held.filter fun h => h.stream == .scalar }
  s.takeTrap s.cur cause s.me.pc tval true entries

/-- The entry with the flags that a part of it has raised (03 R43, 17 R255). -/
def VEntry.raise (e : VEntry) (p : Plane) (fl : Flags) : VEntry := { e with fl := e.fl ||| p.fresh fl, raised := e.raised ||| fl }

/-- The end of an entry: it leaves the queue; where a flag that it set has its EN bit set, it traps after it, with every flag it raised
whose EN bit is set (03 R43, 17 R252, Table 17-2). -/
def State.vcomplete (s : State) (e : VEntry) : State :=
  let s := s.popQueue
  if s.me.en &&& e.fl = 0 then s else s.vtrap (fpeCause (s.me.en &&& e.raised)) (e.w.zeroExtend 64) s.me.vq

/-- A stop: the head of the queue is left as `left`, and the strand traps, or the head waits, which is nothing new unless it has moved
(15 R223, 17 R252, R255). -/
def State.vstop (s : State) (left : VEntry) (moved : Bool) (why : Stop) : VTurn :=
  let s' := s.setHead left
  match why with
  | .wait | .err .behind => if moved then .went s' else .idle
  | .illop => .went (s'.vtrap (BitVec.ofNat 64 causeIllop) (left.w.zeroExtend 64) s'.me.vq)
  | .err (.xlate c va) => .went (s'.vtrap (xlateCause c) va s'.me.vq)
  | .err (.memerr va) => .went (s'.vtrap (BitVec.ofNat 64 causeMemerr) va s'.me.vq)
  | .err .remoteWrite => .went (s'.endCohort s'.me.coh 1 causeMemerr)

/-- Whether an instruction completes or is unwound entirely (13 R191, 15 R234, 23 R336). -/
def VEntry.whole (e : VEntry) (bound : Bool) : Bool :=
  bound || match e.major with
  | 0x27 | 0x28 => false
  | 0x29 => e.fn5 == 5
  | 0x2A => true
  | _ => wholeCompute e

/-- Elements of an element group (13 R192). -/
def groupElems (wref : Nat) : Nat := if wref == 0 then 1 else 2048 / wref

/-- The tags that the head of the queue reads under (17 R258, R259). -/
def State.headView (s : State) (e : VEntry) : TagView := s.entryView e fun r => (s.me.vreg r).tag

/-- An entry stopped part-way that takes its sources' tags afresh (17 R258). -/
def VEntry.refresh (e : VEntry) (tv : TagView) : VEntry :=
  if e.stags.isNone then e
  else { e with stags := some (tv e.va, tv (if e.major == 0x27 || e.major == 0x28 then e.mb else e.vb), tv e.vd) }

/-- Whether a major's instruction rewrites FEX0 and FEX1 (03 R45). -/
def VEntry.writesFex (e : VEntry) : Bool :=
  match e.major with
  | 0x21 | 0x22 | 0x24 | 0x25 => true
  | 0x23 => e.fn5 ≤ 4
  | _ => false

/-- The elements that the element groups of an entry cover: those of VTAG are the 8-bit elements of its G registers (13 R192, R198), those of
UMERGE the window's (23 R348). -/
def VEntry.total (e : VEntry) (p : Plane) : Nat :=
  if (e.major == 0x21 || e.major == 0x22) && e.fn5 == 31 then 512 * e.g
  else if e.major == 0x29 && e.fn5 == 4 then (match p.window with | some w => w.n | none => 0)
  else e.vl

/-- A computation at the head of the queue over at most `budget` element groups, 0 for all (13 R192, R193). -/
def State.runComputeHead (s : State) (e : VEntry) (pl : VPlan) (whole : Bool) (budget : Nat) : VTurn :=
  let p := s.me
  let t := e.tags p
  let per := groupElems pl.wref
  let lo := e.prog * per
  let total := e.total p
  let hi := if budget == 0 || whole then total else min total (lo + budget * per)
  let r := runCompute e t.1 t.2.2 whole s.free lo hi p First.empty
  let first := if e.stags.isNone then r.2 else p.first.after r.2
  let e' := e.raise p r.2.flags
  let s := { (s.modMe fun _ => { r.1.orFlags r.2.flags with
      fex0 := if e.writesFex then first.fex0 else r.1.fex0, fex1 := if e.writesFex then first.fex1 else r.1.fex1 }) with free := s.free + 1 }
  if total ≤ hi then .went ((s.contribute e pl.dst).vcomplete e')
  else .went (s.setHead { e' with prog := hi / per, stags := some t })

/-- The publication of a VSTWM whose writes are performed: its range joins the tracker (15 R231); none while the tracker is full. -/
def State.trackRange (s : State) (e : VEntry) : Option State :=
  let w : WReg := BitVec.ofNat 6 e.mb
  let m := s.wm w
  let lo := max e.xb.toNat m.mark
  let hi := e.xb.toNat + e.vl
  if hi ≤ lo then some s
  else if lo == m.mark then some (s.publish w hi)
  else if m.ranges.length < 16 then
    some { s with wms := s.wms.set w.toFin { m with ranges := (m.ranges.takeWhile fun r => decide (r.1 < lo)) ++ (lo, hi) :: m.ranges.dropWhile fun r => decide (r.1 < lo) } }
  else none

/-- The end of a turn's elements: after `budget` element groups, 0 for all; never within a granule of VLDFE or VSTFE, a superblock of Q4 or
B16, or a VSTXO whose elements meet (07 R87, R101, 17 R257). -/
def State.turnEnd (s : State) (e : VEntry) (per total lo : Nat) (whole : Bool) (budget : Nat) : Nat :=
  if budget == 0 || whole || e.joined s lo then total
  else
    let hi := min total ((lo / per + budget) * per)
    if (e.major == 0x27 && e.fn3 == 7) || (e.major == 0x28 && e.fn3 == 5) then granuleEnd e s.me hi 16
    else if (e.major == 0x27 || e.major == 0x28) && tagIsQB e.tag then min total (superEnd e.tag hi)
    else hi

/-- A memory, update or window instruction at the head over elements up to a bound: its run, its end or its stop. A stop of one that touches
a bound group, whose pieces `s` has consumed, leaves the state `s0` from before it (17 R256, R263, 25 R372). -/
def State.runElemsHead (s0 s : State) (e : VEntry) (pl : VPlan) (bound : Bool) (budget : Nat) : VTurn :=
  let p := s.me
  let t := e.tags p
  let per := groupElems pl.wref
  let groups := e.major == 0x29 && e.fn5 == 3
  let total := e.total p
  let lo := if groups then e.prog * per else e.prog
  let hi := s.turnEnd e per total lo bound budget
  let r0 : Run := { s := s, fl := 0, src := if bound then some p else none }
  let x : Ended := match e.major with
    | 0x27 => runLoad e lo hi r0
    | 0x28 => runStore e lo hi r0
    | _ => match e.fn5 with
      | 3 => runUacc e per lo hi r0
      | 4 => runUmerge e lo hi r0
      | _ => runUpd e lo hi r0
  let e' := e.raise p x.1.fl
  let s := x.1.s.modMe fun p => pl.dst.foldl (fun p d => p.setTags d.1 d.2.2 d.2.1) (p.orFlags x.1.fl)
  let stop (k : Nat) (why : Stop) : VTurn :=
    if bound then s0.vstop e false why else s.vstop { e' with prog := k, stags := some t } (k != e.prog) why
  match x.2 with
  | some (k, why) => stop (if groups then k / per else k) why
  | none =>
    if hi < total then .went (s.setHead { e' with prog := if groups then hi / per else hi, stags := some t })
    else if e.major == 0x28 && e.fn3 == 6 then
      match s.trackRange e with
      | some s => .went ((s.contribute e pl.dst).vcomplete e')
      | none => stop total .wait
    else if e.major == 0x29 && e.fn5 ≤ 1 then
      .went ((s.modOp s.cur (streamCounter e.xa) e.xb.toNat fun k => match k with | .upd r ps _ => .upd r ps true | k => k).vcomplete e')
    else .went ((s.contribute e pl.dst).vcomplete e')

/-- The values of the watched locations of a GCSLEEP, each with its element index and comparison value (15 R234). -/
def State.watched (s : State) (e : VEntry) : List Nat → Except MemErr (List (Nat × Bool) × State)
  | [] => .ok ([], s)
  | i :: rest =>
    let p := s.me
    let wc := tagWidth (p.vreg e.vb).tag
    match s.read (e.agent s) (addr64 (p.elem e.va 64 i)) (wc / 8) .read with
    | .error x => .error x
    | .ok (v, s) =>
      match s.watched e rest with
      | .error x => .error x
      | .ok (vs, s) => .ok ((i, v != p.elem e.vb wc i) :: vs, s)

/-- The bits of Md for the values read in an evaluation: those of the elements that differ; none where no location differs (15 R234). -/
def differing (vs : List (Nat × Bool)) : Option (BitVec 8192) :=
  if vs.any (·.2) then some (vs.foldl (fun m x => if x.2 then m ||| BitVec.ofNat 8192 (2 ^ x.1) else m) 0) else none

/-- The state of a strand that is in GCSLEEP no longer: RUNNABLE, unless it is in another wait that sleeps (05 Table 5-1). -/
def Plane.woken (p : Plane) : PlaneState :=
  if p.st == .asleep && !(match p.wait with | some w => w.sleeps | none => false) then .runnable else p.st

/-- The end of a GCSLEEP: Md, and the strand no longer asleep in it (15 R234). -/
def State.endGcsleep (s : State) (e : VEntry) (on : BitVec 8192) : State :=
  (s.modMe fun p =>
    let p' := p.setMask e.md (maskBelow (p.maskReg e.md) e.vl on)
    { p' with gcs := false, gcsSeen := none, st := if p.gcs then p.woken else p.st }).vcomplete e

/-- GCSLEEP at the head of the queue, the pieces of bound groups consumed in `s` and not in `s0`: its checks and its first evaluation; then
the sleep, until an evaluation after a write has found a location to differ (15 R234). -/
def State.runGcsleep (s0 s : State) (e : VEntry) : VTurn :=
  let p := s.me
  match p.gcsSeen with
  | some on => .went (s.endGcsleep e on)
  | none =>
    if p.gcs then .idle
    else
      let act := s.activeV e 0 e.vl
      if 64 < act.length || act.any fun i => p.elem e.va 64 i % (tagWidth (p.vreg e.vb).tag / 8) != 0 then s0.vstop e false .illop
      else match s.watched e act with
        | .error x => s0.vstop e false (.err x)
        | .ok (vs, s) => match differing vs with
          | some on => .went (s.endGcsleep e on)
          | none =>
            .went (({ s with planes := s0.planes, watching := SortedPlanes.insert s0.watching s0.cur } : State).modMe
              fun p => { p with gcs := true, st := .asleep })

/-- Whether an entry is of an instruction that a vector queue holds (05 R46, 13 R190). -/
def VEntry.queued (e : VEntry) : Bool :=
  (decide (0x21 ≤ e.major) && decide (e.major ≤ 0x28)) || (e.major == 0x29 && [0, 1, 3, 4, 5].contains e.fn5) || e.major == 0x2A

/-- One turn of the vector unit of the issuing plane: the head of its queue, at most `budget` element groups of it (0: all of it). A word
that no queue holds, in a resume entry that software has changed, fails the checks that are made again (17 R258). -/
def State.vturn (s : State) (budget : Nat) : VTurn :=
  match s.me.vq with
  | [] => .idle
  | e0 :: _ =>
    let tv := s.headView e0
    let e := e0.refresh tv
    let pl := s.vplan false e tv
    if !e.queued || pl.chk != .ok then .went (s.vtrap (BitVec.ofNat 64 causeIllop) (e.w.zeroExtend 64) s.me.vq)
    else
      let bound := !(s.me.boundTo ((e.sources tv) ++ pl.dst.map fun d => (d.1, d.2.1))).isEmpty
      match s.consume e tv with
      | none => .idle
      | some s' =>
        match e.major with
        | 0x27 | 0x28 => s.runElemsHead s' e pl bound budget
        | 0x29 => if e.fn5 == 5 then .went ((s'.startFlush e).vcomplete e) else s.runElemsHead s' e pl bound budget
        | 0x2A => s.runGcsleep s' e
        | _ => s'.runComputeHead e pl (e.whole bound) budget

/-- The evaluation that writes to these lines bring about for a plane asleep in GCSLEEP, where one of them is watched (15 R234). Where it meets
an error the strand wakes, and meets the error itself. -/
def State.watchPlane (s : State) (lines : List Nat) (p : PlaneId) : State :=
  let s1 : State := { s with cur := p }
  match s1.me.vq with
  | [] => s
  | e :: _ =>
    let tv := s1.headView e
    if !s1.me.gcs || s1.me.gcsSeen.isSome then s
    else match s1.consume e tv with
      | none => s
      | some s2 =>
        let act := s2.activeV e 0 e.vl
        let written := act.any fun i => match s2.places (e.agent s2) .read false 1 (s2.me.elem e.va 64 i) none with
          | .ok (pl :: _) => lines.contains (pl.pa / 64)
          | _ => false
        if !written then s
        else match s2.watched e act with
          | .error _ => s.modPlane p fun pl => { pl with gcs := false, st := pl.woken }
          | .ok (vs, s3) =>
            let s4 : State := { s3 with planes := s.planes, cur := s.cur }
            match differing vs with
            | some on => s4.modPlane p fun pl => { pl with gcsSeen := some on }
            | none => s4

/-- Rounds of evaluations, at most n: one that applies pending pairs writes lines, which brings about others (15 R234, 23 R343). -/
def State.watchRounds (s : State) : Nat → State
  | 0 => s
  | n + 1 =>
    if s.wrote.isEmpty then s
    else (s.watching.foldl (fun (t : State) p => t.watchPlane s.wrote p) { s with wrote := [] }).watchRounds n

/-- The evaluations that the writes since the last brought about (15 R234); a round that writes applies a pending key. -/
def State.watch (s : State) : State :=
  if s.watching.isEmpty then s
  else { ({ s with watching := s.watching.filter fun p => (s.plane p).gcs } : State).watchRounds (s.pend.length + 1) with wrote := [] }

/-- Turns of the vector unit until it has nothing to do, at most n; the strands asleep in GCSLEEP look at what each has written (15 R234,
log 29). -/
def State.drain (s : State) : Nat → State
  | 0 => s
  | n + 1 => match s.vturn 0 with
    | .idle => s
    | .went s' => if s'.me.vq.isEmpty then s' else s'.watch.drain n

/-- Turns enough to empty a queue: an entry may wait once before it completes. -/
def drainFuel : Nat := 192

/-- The vector unit keeps up with the strand unless it lags (log 5). -/
def State.keepUp (s : State) : State := if s.vlag then s else s.drain drainFuel

/-! ### Commit -/

/-- The checks at commit: illegal instruction, illegal operand, the rounding mode (09 Table 9-7, 03 R26). DESIGN CHOICE (log 65): a failed
check of tags goes before a reserved FCSR.RM. -/
def State.vcheck (s : State) (e : VEntry) (k : VPlan → State) : State :=
  let tv := s.frontTags
  let pl := s.vplan true e tv
  match pl.chk with
  | .illinsn => s.illInsn e.w
  | .illop => s.illOp e.w
  | .ok =>
    if !s.streamsOk e tv pl.dst then s.illOp e.w
    else if pl.rounds && (dynMode? e.rm).isNone then s.illInsn e.w
    else k pl

/-- An update instruction takes its sequence number at commit, which word 3 of its entry holds (23 R339, R340, R344). -/
def State.takeSeq (s : State) (e : VEntry) : State × VEntry :=
  if e.major == 0x29 && (e.fn5 ≤ 1 || e.fn5 == 5) then
    let n := streamCounter e.xa
    let s' := s.issueOp n (match e.fn5 with
      | 0 => .upd (some (streamReg e.xa)) [] false
      | 1 => .upd none [] false
      | _ => .uflush (streamReg e.xa) false [])
    (s', { e with xb := BitVec.ofNat 64 (s'.timeline s.cur n).issue })
  else (s, e)

/-- A vector instruction commits to the queue: its checks, its place, its effect when the vector unit reaches it (05 R46, 13 R183). -/
def State.vissue (s : State) (w : IWord) (pfx : Option (BitVec 26)) (len : Nat) : State :=
  let e := s.entryOf w pfx
  s.vcheck e fun _ =>
    if queueDepth ≤ s.me.vq.length then s
    else
      let x := s.takeSeq e
      ((x.1.modMe fun p => { p with vq := p.vq ++ [x.2], qnext := p.qnext + 1 }).advance len).keepUp

/-- An instruction that writes an X register from the vector unit: the strand stalls until every older vector instruction has
completed, and then retires it (13 R190). -/
def State.vissueX (s : State) (w : IWord) (f : VEntry → State → XRes) (busy : Wait) : State :=
  let e := s.entryOf w none
  s.vcheck e fun pl =>
    if !s.queueEmpty then s
    else match s.consume e (fun r => (s.me.vreg r).tag) with
      | none => s
      | some s' =>
        let took (s : State) : State := s.modMe fun p => { p with qnext := p.qnext + 1 }
        match f e s' with
        | .done s v => ((took s).contribute e pl.dst).retX e.xd v 4
        | .err (.xlate c va) => (took s).vtrap (xlateCause c) va []
        | .err (.memerr va) => (took s).vtrap (BitVec.ofNat 64 causeMemerr) va []
        | .err .remoteWrite => s.endCohort s.me.coh 1 causeMemerr
        | .err .behind => s
        | .illop => (took s).vtrap (BitVec.ofNat 64 causeIllop) (w.zeroExtend 64) []
        | .wait => s.stallOn busy

/-- A computation that writes an X register: MPOPC, MFIRST, VEXTR (13 R190). -/
def State.vissueToX (s : State) (w : IWord) : State :=
  s.vissueX w (fun e s =>
    let p := s.me
    let r := runCompute e (p.vreg e.va).tag (p.vreg e.vd).tag true s.free 0 e.vl p First.empty
    .done s (r.1.getX e.xd)) (.qdrain 0)

/-! ### GCSLEEP, VDRAIN and the turns of the vector unit -/

/-- GCSLEEP (15 R234). -/
def execGcsleep (d : MReg) (a b : VReg) (m : MReg) (s : State) : Out :=
  .next (s.vissue (packV 42#6 (0#3 ++ d) a b m 0#5) none 4)

/-- VDRAIN: the strand retires it once every older vector instruction has completed (15 R235). -/
def execVdrain (s : State) : Out :=
  .next (if s.queueEmpty then (s.modMe fun p => { p with qnext := p.qnext + 1 }).advance 4 else s)

/-- The vector unit of plane p works in the plane's slot (05 R59): at most `groups` element groups of the head, or all it can. -/
def State.vectorTurn (s : State) (p : PlaneId) (groups : Nat) : State :=
  if (s.plane p).st != .free && s.holdsSlot p then
    s.asPlane p fun s =>
      if groups == 0 then s.drain drainFuel
      else match s.vturn groups with | .idle => s | .went s' => s'
  else s

/-- Event VECTOR_EXECUTE (13 R192). -/
def execVectorExecute (p : PlaneId) (groups : Nat) (s : State) : Out := .next (s.vectorTurn p groups)

/-- Whether the head of plane p's queue satisfies a test. -/
def State.headIs (s : State) (p : PlaneId) (f : VEntry → Bool) : Bool := match (s.plane p).vq with | e :: _ => f e | [] => false

/-- Event GCSLEEP_WAKE of plane p: an evaluation after a write found a location to differ, and the instruction completes in the plane's
slot (05 R59, 15 R234). -/
def execGcsleepWake (p : PlaneId) (s : State) : Out :=
  .next (if (s.plane p).gcsSeen.isSome then s.vectorTurn p 0 else s)
/-- Event VLDW_RELEASE of plane p: MARK has passed the range index of the element it stalls on (05 R69). -/
def execVldwRelease (p : PlaneId) (s : State) : Out :=
  .next (if s.headIs p fun e => e.major == 0x27 && e.fn3 == 5 then s.vectorTurn p 0 else s)
/-- Event CONSUMING_LOAD_WAKE of plane p: the granule it waits for is FULL (07 R87). -/
def execConsumingLoadWake (p : PlaneId) (s : State) : Out :=
  .next (if s.headIs p fun e => e.major == 0x27 && e.fn3 == 7 then s.vectorTurn p 0 else s)
/-- Event VSTWM_COMPLETE of plane p: its writes are performed and its range joins the tracker (15 R231). -/
def execVstwmComplete (p : PlaneId) (s : State) : Out :=
  .next (if s.headIs p fun e => e.major == 0x28 && e.fn3 == 6 then s.vectorTurn p 0 else s)

end Sys2Proof.Machine
end

