-- ==== Sys2Proof/Machine/Copy.lean ====
section
/-! DEFINITION. Copy engines, major 0x35 (15 R236 to R245). -/
namespace Sys2Proof.Machine

/-! ### Ranges and held translations -/

/-- The walk of every page of a range, ascending and afresh, whatever the strand's own streams hold (07 R77): the frames held, or the fault
of the lowest faulting address (15 R236). `fe` asks for scratchpad. -/
def State.walkPages (s : State) (ag : Agent) (acc : Acc) (fe : Bool) : (n va : Nat) → Except MemErr (List XFrame)
  | 0, _ => .ok []
  | n + 1, va =>
    match s.frameOf { ag with stream := none } va acc fe with
    | .error k => .error (k.raise (addr64 va))
    | .ok f =>
      match s.walkPages ag acc fe n ((va / 65536 + 1) * 65536 % 2 ^ 64) with
      | .error e => .error e
      | .ok fs => .ok (⟨va / 65536, f.phys, f.tiled, s.spanOf ag.root va, ag.root, false⟩ :: fs)

/-- The walk of the pages of a range of n bytes; `fe` asks for scratchpad. -/
def State.walkExtent (s : State) (ag : Agent) (acc : Acc) (fe : Bool) (va n : Nat) : Except MemErr (List XFrame) :=
  if n == 0 then .ok [] else s.walkPages ag acc fe ((va % 65536 + n + 65535) / 65536) va
/-- The fault of an extent of the local window that is not within the quota: kind QUOTA, at its first byte beyond (21 R323, 23 R352). -/
def State.quotaFault? (s : State) (va n : Nat) : Option MemErr :=
  if s.me.qsize * 65536 < va % 2 ^ 63 + n then some (.xlate .quota (addr64 (max va (2 ^ 63 + s.me.qsize * 65536)))) else none
/-- The walk of the pages of a range of n bytes. -/
def State.walkRange (s : State) (ag : Agent) (acc : Acc) (va n : Nat) : Except MemErr (List XFrame) := s.walkExtent ag acc false va n

/-- The virtual address of a translation fault. -/
def MemErr.addr : MemErr → Nat
  | .xlate _ va => va.toNat
  | .memerr va => va.toNat
  | .remoteWrite => 0
  | .behind => 0

/-- The frames of several ranges; the fault of the lowest faulting address of all (15 R236). -/
def joinWalks (rs : List (Except MemErr (List XFrame))) : Except MemErr (List XFrame) :=
  rs.foldl (fun a r => match a, r with
    | .ok xs, .ok ys => .ok (xs ++ ys)
    | .error e, .ok _ => .error e
    | .ok _, .error e => .error e
    | .error e, .error f => if f.addr < e.addr then .error f else .error e) (.ok [])

/-- Where the frame of a held translation is now; one that an XINV removed is walked afresh (11 R174, 15 R237). -/
def State.heldFrame (s : State) (x : XFrame) : Except WalkErr Frame :=
  if !x.stale then s.frameAt x.pframe x.tiled
  else match s.walk (x.vframe * 65536) 5 4 x.root with
    | .ok l => s.frameAt l.frame (l.form == 2)
    | .error k => .error k

/-- The place of a byte under held translations, wherever its frame is now (07 R83, R403); none where no partition holds it any more. -/
def State.heldPlace (s : State) (xl : List XFrame) (va : Nat) : Option Place :=
  match xl.find? fun f => f.vframe == va / 65536 with
  | none => none
  | some f => match s.heldFrame f with
    | .ok fr => some (fr.place va)
    | .error _ => none

/-- The places of bytes under held translations. -/
def State.heldPlaces (s : State) (xl : List XFrame) (vas : List Nat) : Option (List Place) := vas.mapM (s.heldPlace xl)

/-- Consecutive addresses. -/
def addrs (va n : Nat) : List Nat := (List.range n).map fun i => va + i

/-- An engine's read of bytes: none where it meets an uncorrectable error or a failed message (27 R392, R400). Pending pairs of the
lines are applied first (07 R104). -/
def State.engineRead (s : State) (xl : List XFrame) (vas : List Nat) : Option (List Byte × State) :=
  match s.heldPlaces xl vas with
  | none => none
  | some ps =>
    let s := s.pressTouch ps
    match s.readPlaces 0 ps with
    | .error _ => none
    | .ok bs => some (bs, s)

/-- An engine's write of bytes: FULL on every scratchpad granule written, after its data (07 R86, R88). -/
def State.engineWrite (s : State) (xl : List XFrame) (vas : List Nat) (bs : List Byte) : Option State :=
  match s.heldPlaces xl vas with
  | none => none
  | some ps =>
    if s.writeFails ps then none
    else
      let s := ((s.pressTouch ps).writePlaces ps bs)
      some (ps.foldl (fun s p => if s.feGet p then s else s.feSet p true) s)

/-- A write of bytes by a unit of the core, which sets no FULL bit; none where a message fails. -/
def State.unitWrite (s : State) (xl : List XFrame) (vas : List Nat) (bs : List Byte) : Option State :=
  match s.heldPlaces xl vas with
  | none => none
  | some ps => if s.writeFails ps then none else some ((s.pressTouch ps).writePlaces ps bs)

/-! ### Compressed tensors -/

/-- One step of CRC-32C on a bit (Castagnoli, reflected). -/
def crcBit (c : BitVec 32) : BitVec 32 := if c.getLsbD 0 then (c >>> 1) ^^^ 0x82F63B78#32 else c >>> 1
/-- One byte of CRC-32C. -/
def crcByte (c : BitVec 32) (b : Byte) : BitVec 32 :=
  crcBit (crcBit (crcBit (crcBit (crcBit (crcBit (crcBit (crcBit (c ^^^ b.zeroExtend 32))))))))
/-- CRC-32C of bytes (15 Table 15-6). -/
def crc32c (bs : List Byte) : Nat := (~~~(bs.foldl crcByte (BitVec.allOnes 32))).toNat

/-- The symbol of a slot and its cumulative frequency (15 R242). -/
def ransSymbol (slot : Nat) : List Nat → (sym cum : Nat) → Nat × Nat × Nat
  | [], sym, cum => (sym, 0, cum)
  | f :: fs, sym, cum => if slot < cum + f then (sym, f, cum) else ransSymbol slot fs (sym + 1) (cum + f)

/-- A decoder's progress: lane states, words used, whether a read was past the end, the output in reverse. -/
structure Rans where
  x : List Nat
  pos : Nat
  past : Bool
  out : List Byte

/-- Words taken until a lane's state is at least 2^16, at most a number that the words of the stream and two more do not reach (15 R242): a
state of 0 with nothing but zero words left, where the rule's loop has no end, stays 0 (log 68). -/
def ransFill (words : List Nat) : Nat → Rans → Nat → Rans × Nat
  | 0, r, x => (r, x)
  | n + 1, r, x =>
    if x < 65536 then
      ransFill words n { r with pos := r.pos + 1, past := r.past || decide (words.length ≤ r.pos) } (x * 65536 + (words[r.pos]?).getD 0)
    else (r, x)

/-- Output bytes j to j + n − 1 decoded (15 R242). -/
def ransRun (freq : List Nat) (bits : Nat) (words : List Nat) : (n j : Nat) → Rans → Rans
  | 0, _, r => r
  | n + 1, j, r =>
    let l := j % 32
    let x := (r.x[l]?).getD 0
    let slot := x % 2 ^ bits
    let y := ransSymbol slot freq 0 0
    let x := y.2.1 * (x / 2 ^ bits) + slot - y.2.2
    let f := ransFill words (words.length + 2) r x
    ransRun freq bits words n (j + 1) { f.1 with x := f.1.x.set l f.2, out := BitVec.ofNat 8 y.1 :: f.1.out }

/-- A list of bytes as little-endian numbers of n bytes. -/
def unitsOf (n : Nat) : (k : Nat) → List Byte → List Nat
  | 0, _ => []
  | k + 1, bs => leNat (bs.take n) :: unitsOf n k (bs.drop n)

/-- A tensor decoded: the bytes, whether decoding was good, and the words used (15 R242). -/
def ransDecode (freq : List Nat) (bits raw : Nat) (states words : List Nat) : List Byte × Bool × Nat :=
  let r := ransRun freq bits words raw 0 ⟨states, 0, false, []⟩
  (r.out.reverse, r.x.all (· == 65536) && !r.past && r.pos == words.length, r.pos)

/-- The fields of a tensor header that the engine uses (15 Table 15-6). -/
structure Tensor where
  n : Nat
  raw : Nat
  freqoff : Nat
  dataoff : Nat
  datalen : Nat
  crc : Nat
  check : Bool

/-- Bytes of a tensor's extent from its header (15 R241). -/
def Tensor.extent (t : Tensor) : Nat := max (t.freqoff + 512) (t.dataoff + 128 + t.datalen)

/-- The header of a tensor; none where it breaks 15 Table 15-6. -/
def tensorOf (bs : List Byte) : Option Tensor :=
  let t : Tensor := ⟨fieldAt bs 2 1, fieldAt bs 8 8, fieldAt bs 0x10 8, fieldAt bs 0x18 8, fieldAt bs 0x20 8, fieldAt bs 0x28 4,
    fieldAt bs 0x2C 4 == 1⟩
  if fieldAt bs 0 2 != 1 || t.n < 8 || 14 < t.n || fieldAt bs 3 1 != 32 || !zeroAt bs 4 4 || t.raw == 0 || 2 ^ 40 < t.raw ||
      t.freqoff % 8 != 0 || t.freqoff < 64 || t.dataoff % 8 != 0 || t.datalen % 2 != 0 || 2 ≤ fieldAt bs 0x2C 4 || !zeroAt bs 0x30 16
  then none else some t

/-! ### What an operation does -/

/-- A copy that an uncorrectable error stops has performed an unspecified part of its writes (27 R400, log 6): the state, and how
many of n bytes were written. -/
def State.partialCount (s : State) (n : Nat) : Nat × State := (Config.freeNat s.free % (n + 1), { s with free := s.free + 1 })

/-- The bytes that an operation writes to `dst`, its source extent being `src`: a destination byte that is a byte of that extent under another
virtual address is unpredictable (15 R237, 00 R2, log 59). -/
def State.unaliased (s : State) (xl : List XFrame) (dst src : List Nat) (bs : List Byte) : List Byte × State :=
  match s.heldPlaces xl dst, s.heldPlaces xl src with
  | some ds, some ss =>
    let shared (p : Place) : Bool := ss.any fun q => q.pa == p.pa
    if ds.any shared then
      (((ds.zip bs).zipIdx).map fun x => if shared x.1.1 then Config.freeByte s.free x.2 else x.1.2, { s with free := s.free + 1 })
    else (bs, s)
  | _, _ => (bs, s)

/-- Bytes read from one list of addresses, within the source extent `ext`, and written to another; an error leaves an unspecified first part
written, and bytes that overlap the extent by physical aliasing alone are free (log 59). -/
def State.engineMove (s : State) (xl : List XFrame) (dst src ext : List Nat) : State :=
  match s.engineRead xl src with
  | some (bs, s) =>
    let y := s.unaliased xl dst ext bs
    (y.2.engineWrite xl dst y.1).getD y.2
  | none =>
    let good := (src.takeWhile fun a => (s.engineRead xl [a]).isSome).length
    let k := s.partialCount good
    match k.2.engineRead xl (src.take k.1) with
    | some (bs, s) =>
      let y := s.unaliased xl (dst.take k.1) ext bs
      (y.2.engineWrite xl (dst.take k.1) y.1).getD y.2
    | none => k.2

/-- The status word of XDECODE (15 Table 15-7). DESIGN CHOICE (log 73): 1 where decoding is not ok and the CRC differs too. -/
def decodeStatus (good crcOk : Bool) (pos : Nat) : Nat := pos % 2 ^ 40 * 256 + (if !good then 1 else if !crcOk then 2 else 0)

/-- The prefix that XEXPORT writes (15 Table 15-8). -/
def exportPrefix (total crc : Nat) : List Byte := leBytes 2 1 ++ leBytes 1 1 ++ leBytes 5 0 ++ leBytes 8 total ++ leBytes 4 crc ++ leBytes 12 0

/-- Host memory at consecutive addresses. -/
def State.hostBytes (s : State) (a n : Nat) : List Byte := (List.range n).map fun i => Memory.get s.hostMem (a + i)

/-- The accesses of a copy-engine operation (15 R238 to R245). -/
def State.copyJob (s : State) (xl : List XFrame) : CopyJob → State
  | .copy dst src len => s.engineMove xl (addrs dst len) (addrs src len) (addrs src len)
  | .transpose dst src e rows cols ss ds =>
    let cells := (List.range rows).flatMap fun r => (List.range cols).map fun c => (dst + c * ds + r * e, src + r * ss + c * e)
    s.engineMove xl (cells.flatMap fun x => addrs x.1 e) (cells.flatMap fun x => addrs x.2 e) (addrs src ((rows - 1) * ss + cols * e))
  | .fill dst pat len =>
    let bs := (List.range len).map fun i => pat.extractLsb' (8 * ((dst + i) % 8)) 8
    match s.engineWrite xl (addrs dst len) bs, s.heldPlaces xl (addrs dst len) with
    | some s', some ps => if pat = 0 then s'.zeroBlocks ps bs else s'
    | _, _ => s
  | .decode dst hdr stat n raw extent dataoff datalen crc check freq =>
    match s.engineRead xl (addrs (hdr + dataoff) (128 + datalen)) with
    | none => s
    | some (bs, s) =>
      let r := ransDecode freq n raw (unitsOf 4 32 bs) (unitsOf 2 (datalen / 2) (bs.drop 128))
      let st := decodeStatus r.2.1 (!check || crc32c r.1 == crc) r.2.2
      let y := s.unaliased xl (addrs dst raw) (addrs hdr extent) r.1
      match y.2.engineWrite xl (addrs dst raw) y.1 with
      | none => y.2
      | some s => (s.engineWrite xl (addrs stat 8) (leBytes 8 st)).getD s
  | .exportTo dst src total =>
    match s.engineRead xl (addrs src total) with
    | none => s
    | some (bs, s) =>
      let y := s.unaliased xl (addrs dst (32 + total)) (addrs src total) (exportPrefix total (crc32c bs) ++ bs)
      (y.2.engineWrite xl (addrs dst (32 + total)) y.1).getD y.2
  | .toHost host dev len =>
    match s.engineRead xl (addrs dev len) with
    | none => s
    | some (bs, s) => { s with hostMem := (bs.foldl (fun (x : Nat × List Host.Cell) b => (x.1 + 1, Memory.set x.2 x.1 b)) (host, s.hostMem)).2 }
  | .fromHost host dev len => (s.engineWrite xl (addrs dev len) (s.hostBytes host len)).getD s

/-! ### Issue -/

/-- Whether an operation is in the plane's engine queue (15 R236). -/
def OpKind.isCopy : OpKind → Bool
  | .copy _ _ => true
  | _ => false

/-- The issue of a copy instruction whose limits hold: the walks, the queue, the sequence number (15 R236). -/
def copyIssue (w : IWord) (n : TReg) (walks : List (Except MemErr (List XFrame))) (ok : List XFrame → Bool) (job : CopyJob) (s : State) : State :=
  match joinWalks walks with
  | .error e => s.memTrap e
  | .ok xl =>
    if !ok xl || !s.canIssue n 1 then s.illOp w
    else if 16 ≤ (s.ops.filter fun o => o.plane == s.cur && o.kind.isCopy).length || !s.releaseReady then s
    else (s.issueOp n (.copy job xl)).advance 4

/-- Whether two extents overlap in virtual address (15 R237). -/
def extentsMeet (a n b m : Nat) : Bool := n != 0 && m != 0 && groupsMeet a n b m
/-- The largest length or extent (15 R237). -/
def maxExtent : Nat := 2 ^ 40

/-- XCOPY (15 R238). -/
def execXcopy (d a b : XReg) (n : TReg) (s : State) : Out :=
  let w := packR 53#6 d a b 0#5 (0#2 ++ n)
  let dst := (s.getX d).toNat
  let src := (s.getX a).toNat
  let len := (s.getX b).toNat
  .next (
    if maxExtent < len || extentsMeet dst len src len then s.illOp w
    else copyIssue w n [s.walkRange s.myAgent .read src len, s.walkRange s.myAgent .write dst len] (fun _ => true) (.copy dst src len) s)

/-- XCOPYT (15 R239). -/
def execXcopyt (d a b : XReg) (z : Size) (n : TReg) (s : State) : Out :=
  let w := packR 53#6 d a b 1#5 (z.code ++ n)
  let e := sizeBytes z
  let dst := (s.getX d).toNat
  let src := (s.getX a).toNat
  .next (
    if (s.getX b).toNat % 8 != 0 then s.illOp w
    else match s.readBytes (s.getX b) 32 with
      | .error x => s.memTrap x
      | .ok (bs, s') =>
        let rows := fieldAt bs 0 4
        let cols := fieldAt bs 4 4
        let ss := fieldAt bs 8 8
        let ds := fieldAt bs 16 8
        let se := (rows - 1) * ss + cols * e
        let de := (cols - 1) * ds + rows * e
        if rows == 0 || 65536 < rows || cols == 0 || 65536 < cols || ss < cols * e || ds < rows * e || !zeroAt bs 24 8 ||
            ss % e != 0 || ds % e != 0 || dst % e != 0 || src % e != 0 || maxExtent < se || maxExtent < de ||
            extentsMeet dst de src se then s.illOp w
        else copyIssue w n [s'.walkRange s'.myAgent .read src se, s'.walkRange s'.myAgent .write dst de] (fun _ => true)
          (.transpose dst src e rows cols ss ds) s')

/-- A tensor's header and frequencies read and checked at issue (15 R241), then k of them. -/
def withTensor (w : IWord) (a : XReg) (s : State) (k : Tensor → List Nat → State → State) : State :=
  let hdr := s.getX a
  if hdr.toNat % 64 != 0 then s.illOp w
  else match s.readBytes hdr 64 with
    | .error x => s.memTrap x
    | .ok (bs, s') =>
      match tensorOf bs with
      | none => s.illOp w
      | some t =>
        if maxExtent < t.extent then s.illOp w
        else match s'.readBytes (hdr + BitVec.ofNat 64 t.freqoff) 512 with
          | .error x => s.memTrap x
          | .ok (fs, s') =>
            let freq := unitsOf 2 256 fs
            if freq.foldl (· + ·) 0 != 2 ^ t.n then s.illOp w else k t freq s'

/-- Whether every held frame of a range has one of some forms. -/
def State.formsIn (s : State) (xl : List XFrame) (va n : Nat) (fs : List Nat) : Bool :=
  xl.all fun f => !(va / 65536 ≤ f.vframe && decide (f.vframe * 65536 < va + n)) || fs.contains (s.formOf f.pframe)

/-- XDECODE (15 R243). DESIGN CHOICE (log 74): the status word is no extent for the overlap of 15 R237. -/
def execXdecode (d a b : XReg) (n : TReg) (s : State) : Out :=
  let w := packR 53#6 d a b 2#5 (0#2 ++ n)
  let dst := (s.getX d).toNat
  let src := (s.getX a).toNat
  let stat := (s.getX b).toNat
  .next (
    if stat % 8 != 0 then s.illOp w
    else withTensor w a s fun t freq s' =>
      if extentsMeet dst t.raw src t.extent then s.illOp w
      else copyIssue w n [s'.walkRange s'.myAgent .read src t.extent, s'.walkRange s'.myAgent .write dst t.raw,
          s'.walkRange s'.myAgent .write stat 8]
        (fun xl => s'.formsIn xl src t.extent [1] && s'.formsIn xl dst t.raw [0, 2])
        (.decode dst src stat t.n t.raw t.extent t.dataoff t.datalen t.crc t.check freq) s')

/-- XEXPORT (15 R244). -/
def execXexport (d a b : XReg) (n : TReg) (s : State) : Out :=
  let w := packR 53#6 d a b 3#5 (0#2 ++ n)
  let dst := (s.getX d).toNat
  let src := (s.getX a).toNat
  .next (withTensor w a s fun t _ s' =>
    let total := t.extent
    if maxExtent < total + 32 || (s.getX b).toNat < total + 32 || extentsMeet dst (total + 32) src total then s.illOp w
    else copyIssue w n [s'.walkRange s'.myAgent .read src total, s'.walkRange s'.myAgent .write dst (total + 32)]
      (fun xl => s'.formsIn xl src total [1] && s'.formsIn xl dst (total + 32) [0]) (.exportTo dst src total) s')

/-- XFILL (15 R240). -/
def execXfill (d a b : XReg) (n : TReg) (s : State) : Out :=
  let w := packR 53#6 d a b 4#5 (0#2 ++ n)
  let dst := (s.getX d).toNat
  let len := (s.getX b).toNat
  .next (
    if maxExtent < len then s.illOp w
    else copyIssue w n [s.walkRange s.myAgent .write dst len] (fun _ => true) (.fill dst (s.getX a) len) s)

/-- XHOST in either direction: the region must exist, permit it, and contain the range (15 R245). -/
def opXhost (w : IWord) (d a b : XReg) (n : TReg) (toh : Bool) (s : State) : State :=
  let x := (s.getX a).toNat
  let off := x % 2 ^ 48
  let len := (s.getX b).toNat
  let dev := (s.getX d).toNat
  match s.hostRegions.find? fun g => g.num == x / 2 ^ 48 with
  | none => s.illOp w
  | some g =>
    if maxExtent < len || g.len < off + len || !(if toh then g.toh else g.fromh) then s.illOp w
    else copyIssue w n [s.walkRange s.myAgent (if toh then .read else .write) dev len] (fun _ => true)
      (if toh then .toHost (g.base + off) dev len else .fromHost (g.base + off) dev len) s
/-- XHOST: host to device (15 R245). -/
def execXhost (d a b : XReg) (n : TReg) (s : State) : Out := .next (opXhost (packR 53#6 d a b 5#5 (0#2 ++ n)) d a b n false s)
/-- XHOST.TOH: device to host (15 R245). -/
def execXhostToh (d a b : XReg) (n : TReg) (s : State) : Out := .next (opXhost (packR 53#6 d a b 5#5 (1#2 ++ n)) d a b n true s)

/-- Event COPY_COMPLETE: the operation makes its accesses, and its completion is counted (15 R237, 07 R99). -/
def execCopyComplete (p : PlaneId) (n : TReg) (seq : Nat) (s : State) : Out :=
  .next (match s.op? p n seq with
    | some o => match o.kind with
      | .copy job xl => (s.copyJob xl job).completeOp p n seq
      | _ => s
    | none => s)

end Sys2Proof.Machine
end

