-- ==== Sys2Proof/Machine/Fabric.lean ====
section
/-! DEFINITION. The Trellis fabric: images and their checks, frames, node arithmetic, ports and the firing of runs (19 R270 to R297). -/
namespace Sys2Proof.Machine

/-! ### Stream program images -/

/-- The element type a port may name for a section kind (19 Table 19-6). -/
def portTag? (kind code : Nat) : Option Tag :=
  if kind == 2 then (if code == 0x05 then some .s32 else if code == 0x11 then some .m32 else none)
  else if code == 0x10 then some .b16 else if code == 0x0A then some .fp32 else if code == 0x0B then some .bf16 else none

/-- Whether a PWISE operation has two inputs (19 Table 19-7). -/
def pwiseTwo (op : Nat) : Bool := op == 1 || op == 2 || op == 3 || op == 9 || op == 10 || op == 11
/-- Whether a PWISE operation exists for a section kind (19 Table 19-7). -/
def pwiseKind (op kind : Nat) : Bool :=
  match op with
  | 0 | 1 | 2 | 3 => kind != 2
  | 4 => kind == 0
  | 5 => true
  | 8 | 9 | 10 | 11 => kind == 2
  | _ => false

/-- Whether a node takes two inputs (19 R276). -/
def NodeRec.two (n : NodeRec) : Bool := n.mode == 2 && pwiseTwo n.op
/-- Whether a BFLY node is radix-4. -/
def NodeRec.radix4 (n : NodeRec) : Bool := n.mode == 0 && n.op % 2 == 1
/-- CFORM of a BFLY node: 0 full, 1 DIT, 2 DIF. -/
def NodeRec.cform (n : NodeRec) : Nat := n.op / 2
/-- Bytes of one coefficient value, twiddle size (19 R275). -/
def valueBytes (kind : Nat) : Nat := if kind == 1 then 2 else 4
/-- Bytes of a coefficient entry; 0 where the node has none (19 R275). -/
def NodeRec.entryBytes (n : NodeRec) (kind : Nat) : Nat :=
  match n.mode with
  | 0 => valueBytes kind * (if n.cform != 0 then 1 else if n.radix4 then 16 else 4)
  | 2 => if n.op == 0 then valueBytes kind else 0
  | _ => 0
/-- The largest entry or root index that a node with 2^logn elements can form (19 R279 to R281). -/
def NodeRec.topIndex (n : NodeRec) (logn : Nat) : Nat :=
  match n.mode with
  | 2 => n.cbase + min n.repl (2 ^ logn - 1)
  | _ => n.cbase + min (2 ^ n.clog - 1) ((2 ^ logn / (if n.radix4 then 4 else 2) - 1) / 2 ^ n.cshift)

/-- A section record of 16 bytes; none where it breaks 19 Table 19-3. -/
def secRec? (bs : List Byte) (o : Nat) : Option SecRec :=
  let f (i : Nat) : Nat := fieldAt bs (o + i) 1
  let r : SecRec := ⟨f 0, f 1, f 2, f 3 == 1, f 4, f 5⟩
  if r.logn < 3 || 16 < r.logn || 2 < r.kind || 2 < r.grow || (r.kind == 2 && r.grow != 0) || 1 < f 3 || (r.check && r.kind != 2) ||
      (!r.check && (r.chka != 0 || r.chkb != 0)) || !zeroAt bs (o + 6) 10 then none
  else some r

/-- A node record of 16 bytes with its coefficient bytes; none where it breaks 19 Table 19-4 or does not suit its section (R276). DESIGN
CHOICE (log 78): COFF must lie within the image even where CLEN is 0. -/
def nodeRec? (secs : List SecRec) (coffs size : Nat) (bs : List Byte) (o : Nat) : Option NodeRec :=
  let f (i : Nat) : Nat := fieldAt bs (o + i) 1
  let coff := fieldAt bs (o + 12) 2 * 16
  let clen := fieldAt bs (o + 14) 2
  let n : NodeRec := ⟨f 0, f 1, f 2, f 3, f 4, f 5, f 6, f 7, f 8, fieldAt bs (o + 10) 2, clen, (bs.drop (coffs + coff)).take clen, []⟩
  match secs[n.sec]? with
  | none => none
  | some c =>
    let ranges := n.stn < 48 && 1 ≤ n.span && n.span ≤ 8 && n.stn + n.span ≤ 48 && n.mode ≤ 3 && n.cshift ≤ 15 && n.clog ≤ 11 &&
      f 9 == 0 && clen % 16 == 0 && clen ≤ 8192 && decide (coffs + coff + clen ≤ size)
    let suits := match n.mode with
      | 0 => c.kind != 2 && n.op < 6 && (!n.radix4 || n.cform == 0) && n.logs ≤ 11 &&
          n.logs + (if n.radix4 then 2 else 1) ≤ c.logn && n.repl == 0
      | 1 => c.kind == 2 && n.op ≤ 1 && n.logs ≤ 11 && n.logs + 1 ≤ c.logn && n.repl == 0 && clen == 0
      | 2 => pwiseKind n.op c.kind && n.logs == 0 && n.repl ≤ 63 && (c.kind != 2 || clen == 0)
      | _ => n.op == 0 && n.logs == 0 && n.repl == 0
    let es := n.entryBytes c.kind
    if ranges && suits && (es == 0 || decide (n.topIndex c.logn < clen / es)) then some n else none

/-- A port-slot record of 8 bytes; none where it breaks 19 Table 19-6. -/
def slotRec? (secs : List SecRec) (bs : List Byte) (o : Nat) : Option SlotRec :=
  let sec := fieldAt bs (o + 2) 1
  match secs[sec]? with
  | none => none
  | some c =>
    match portTag? c.kind (fieldAt bs (o + 1) 1) with
    | none => none
    | some t => if 1 < fieldAt bs o 1 || !zeroAt bs (o + 3) 5 then none else some ⟨fieldAt bs o 1 == 1, t, sec⟩

/-- The section of a channel's end: a node, or a port slot of a direction (19 Table 19-5). -/
def endSection (nodes : List NodeRec) (slots : List SlotRec) (out : Bool) (x : Nat) : Option Nat :=
  if x < 0x40 then (nodes[x]?).map (·.sec)
  else match slots[x - 0x40]? with
    | some p => if p.out == out then some p.sec else none
    | none => none

/-- A channel record of 8 bytes; none where it breaks 19 Table 19-5 or joins two sections (R276). -/
def chanRec? (secs : List SecRec) (nodes : List NodeRec) (slots : List SlotRec) (bs : List Byte) (o : Nat) : Option ChanRec :=
  let f (i : Nat) : Nat := fieldAt bs (o + i) 1
  let c : ChanRec := ⟨f 0, f 1, f 2, f 3, f 4⟩
  match endSection nodes slots false c.src, endSection nodes slots true c.dst with
  | some a, some b =>
    let logn := ((secs[a]?).map (·.logn)).getD 0
    let twoIn := ((nodes[c.dst]?).map (·.two)).getD false && c.dst < 0x40
    if a == b && c.toin ≤ (if twoIn then 1 else 0) && c.perm ≤ 2 && (if c.perm == 2 then 1 ≤ c.rot && c.rot < logn else c.rot == 0) &&
        zeroAt bs (o + 5) 3 then some c else none
  | _, _ => none

/-- Nodes left after removing, n times, those that no remaining node feeds: empty exactly where the channels have no cycle. -/
def peel (chans : List ChanRec) : Nat → List Nat → List Nat
  | 0, ns => ns
  | n + 1, ns => peel chans n (ns.filter fun x => chans.any fun c => c.dst == x && ns.contains c.src)

/-- The conditions of 19 R276 on the image as a whole. -/
def StreamImage.ok (m : StreamImage) : Bool :=
  let fed (x i : Nat) : Nat := (m.chans.filter fun c => c.dst == x && c.toin == i).length
  let fan (x : Nat) : Nat := (m.chans.filter fun c => c.src == x).length
  let stns := m.nodes.flatMap fun n => (List.range n.span).map (n.stn + ·)
  (List.range m.nodes.length).all (fun k =>
    fed k 0 == 1 && (match m.nodes[k]? with | some n => !n.two || fed k 1 == 1 | none => false) && 1 ≤ fan k && fan k ≤ 2) &&
  (List.range m.slots.length).all (fun k =>
    match m.slots[k]? with
    | some p => if p.out then fed (0x40 + k) 0 == 1 else 1 ≤ fan (0x40 + k) && fan (0x40 + k) ≤ 2
    | none => false) &&
  (List.range m.secs.length).all (fun k =>
    m.slots.any (fun p => p.sec == k && p.out) && m.slots.any (fun p => p.sec == k && !p.out) &&
    (match m.secs[k]? with
     | some c => !c.check || [c.chka, c.chkb].all fun x => match m.slots[x]? with | some p => p.sec == k && !p.out | none => false
     | none => false)) &&
  (peel m.chans m.nodes.length (List.range m.nodes.length)).isEmpty && stns.eraseDups.length == stns.length

/-- SIZE of an image from its header; none where it breaks 19 Table 19-2. -/
def imageSize (h : List Byte) : Option Nat :=
  let size := fieldAt h 8 4
  if size % 64 != 0 || size < 64 || 0x80000 < size then none else some size

/-- The image in `size` bytes; none where it breaks 19 R276. DESIGN CHOICE (log 77): COFFS may be any multiple of 64 from the end of the
records on, and a byte between them that is not zero breaks the image (19 R273). -/
def streamImage? (bs : List Byte) : Option StreamImage :=
  let f (i : Nat) : Nat := fieldAt bs i 1
  let ns := f 2
  let nn := f 3
  let nc := f 4
  let np := f 5
  let size := fieldAt bs 8 4
  let coffs := fieldAt bs 12 4
  let oNode := 64 + 16 * ns
  let oChan := oNode + 16 * nn
  let oSlot := oChan + 8 * nc
  let oEnd := oSlot + 8 * np
  if fieldAt bs 0 2 != 1 || ns < 1 || 8 < ns || nn < 1 || 48 < nn || nc < 1 || 128 < nc || np < 2 || 16 < np ||
      fieldAt bs 6 2 != 0 || !zeroAt bs 16 48 || coffs % 64 != 0 || size < coffs || coffs < oEnd || !zeroAt bs oEnd (coffs - oEnd)
  then none
  else match (List.range ns).mapM fun i => secRec? bs (64 + 16 * i) with
    | none => none
    | some secs =>
      match (List.range np).mapM fun i => slotRec? secs bs (oSlot + 8 * i) with
      | none => none
      | some slots =>
        match (List.range nn).mapM fun i => nodeRec? secs coffs size bs (oNode + 16 * i) with
        | none => none
        | some nodes =>
          match (List.range nc).mapM fun i => chanRec? secs nodes slots bs (oChan + 8 * i) with
          | none => none
          | some chans =>
            let m : StreamImage := ⟨secs, nodes, chans, slots⟩
            if m.ok && (nodes.any (fun n => n.clen != 0) || coffs == size) then some m else none

/-- Tokens of a frame (19 R272). -/
def SecRec.tokens (c : SecRec) : Nat := max 1 (2 ^ c.logn / (if c.kind == 1 then 32 else 16))

/-- The paths that end at x: origin, capacity and count of working nodes, the origin's own included; n bounds their length
(19 R277). -/
def StreamImage.pathsTo (m : StreamImage) : (n x cap h : Nat) → List (Nat × Nat × Nat)
  | 0, _, _, _ => []
  | n + 1, x, cap, h =>
    match (if x < 0x40 then m.nodes[x]? else none) with
    | none => [(x, cap, h)]
    | some d =>
      let cap := if d.mode == 3 then cap + 256 else cap
      let h := if d.mode == 3 then h else h + 1
      (x, cap, h) :: (m.chans.filter fun c => c.dst == x).flatMap fun c => m.pathsTo n c.src (cap + 16) h

/-- The progress condition of 19 R277. -/
def StreamImage.progresses (m : StreamImage) : Bool :=
  (List.range m.nodes.length).all fun x =>
    match m.nodes[x]? with
    | none => true
    | some d =>
      if !d.two then true
      else
        let t := ((m.secs[d.sec]?).map SecRec.tokens).getD 1
        let paths (i : Nat) := (m.chans.filter fun c => c.dst == x && c.toin == i).flatMap fun c => m.pathsTo 64 c.src 16 0
        (paths 0).all fun p => (paths 1).all fun q =>
          p.1 != q.1 || (decide (t * (q.2.2 + 1) ≤ p.2.1) && decide (t * (p.2.2 + 1) ≤ q.2.1))

/-- Coefficient bytes that an image takes in station t, where it uses it (19 R271). -/
def StreamImage.bytesIn (m : StreamImage) (t : Nat) : Option Nat :=
  (m.nodes.find? fun n => n.stn ≤ t && t < n.stn + n.span).map (·.clen)

/-- The images that stations of plane p are bound to or reserved for (19 R299). -/
def State.imagesOf (s : State) (p : PlaneId) : List StreamImage :=
  (match (s.plane p).fab.bound with | some b => [b.2] | none => []) ++
    s.ops.filterMap fun o => if o.plane == p then (match o.kind with | .sload _ m => some m | _ => none) else none

/-- The stations of plane p that its graph holds or a GLOAD has reserved (21 R331). -/
def State.graphStations (s : State) (p : PlaneId) : List Nat :=
  (match (s.plane p).graph with | some g => g.2 | none => []) ++
    s.ops.flatMap fun o => if o.plane == p then (match o.kind with | .gload _ ss => ss | _ => []) else []

/-- Coefficient bytes that plane p has in station t: the larger of its images' (19 R299). -/
def State.coefBytes (s : State) (p : PlaneId) (t : Nat) : Nat :=
  (s.imagesOf p).foldl (fun a m => max a ((m.bytesIn t).getD 0)) 0

/-- Whether an image meets the capacity of the issuing plane's core (19 R277). -/
def State.fits (s : State) (m : StreamImage) : Bool :=
  (List.range 48).all fun t =>
    match m.bytesIn t with
    | none => true
    | some n =>
      let others := (planeIdx.filter fun i => planeOf (coreOf s.cur) i != s.cur).foldl (fun a i => a + s.coefBytes (planeOf (coreOf s.cur) i) t) 0
      s.me.mx.isNone && !(s.graphStations s.cur).contains t && (n == 0 || decide (n + others ≤ 8192))

/-! ### Arithmetic of the nodes -/

/-- y / 2^k rounded half to even (19 R284). -/
def rheShift (y : Int) (k : Nat) : Int :=
  let q := y / (2 ^ k : Nat)
  let r := 2 * (y % (2 ^ k : Nat))
  if r < (2 ^ k : Nat) then q else if (2 ^ k : Nat) < r then q + 1 else q + q % 2

/-- A pair shifted. -/
def rhePair (k : Nat) (x : Int × Int) : Int × Int := (rheShift x.1 k, rheShift x.2 k)
/-- The product of complex numbers. -/
def cMul (a b : Int × Int) : Int × Int := (a.1 * b.1 - a.2 * b.2, a.1 * b.2 + a.2 * b.1)
/-- The sum of complex numbers. -/
def cAdd (a b : Int × Int) : Int × Int := (a.1 + b.1, a.2 + b.2)
/-- The difference of complex numbers. -/
def cSub (a b : Int × Int) : Int × Int := (a.1 - b.1, a.2 - b.2)
/-- A complex number scaled. -/
def cScale (k : Int) (a : Int × Int) : Int × Int := (k * a.1, k * a.2)

/-- Whether a mantissa is below 2^14 in magnitude. -/
def mantOk (m : Int) : Bool := decide (m.natAbs < 2 ^ 14)
/-- A mantissa held to the range (19 R284). -/
def mantSat (m : Int) : Int := if mantOk m then m else if m < 0 then -16383 else 16383

/-- The growth rule: exact outputs y × 2^(−sc) on the mantissa scale under exponent f (19 R284). -/
def growFrame (ys : List (Int × Int)) (sc : Nat) (f : Int) (mode : Nat) (r4 : Bool) : FabFrame × Flags :=
  let fits (g : Nat) : Bool := ys.all fun y => mantOk (rheShift y.1 (sc + g)) && mantOk (rheShift y.2 (sc + g))
  let g := match mode with
    | 0 => if fits 0 then 0 else if fits 1 then 1 else if fits 2 then 2 else 3
    | 1 => if r4 then 2 else 1
    | _ => 0
  let ms := ys.map (rhePair (sc + g))
  let bgs := if ms.all fun m => mantOk m.1 && mantOk m.2 then flNone else flBGS
  let ms := ms.map fun m => (mantSat m.1, mantSat m.2)
  let nf := f + g
  if 254 < nf then (.bad, bgs ||| flBGS)
  else
    let low := (1 - nf).toNat
    let ms := if nf < 1 then ms.map (rhePair low) else ms
    if ms.all fun m => m.1 == 0 && m.2 == 0 then (.zero, bgs) else (.blk (if nf < 1 then 1 else nf.toNat) ms, bgs)

/-- Coefficient value at a byte offset (19 R275). -/
def coefAt (kind : Nat) (bs : List Byte) (o : Nat) : Int × Int :=
  (patternInt true 16 (fieldAt bs o 2), if kind == 0 then patternInt true 16 (fieldAt bs (o + 2) 2) else 0)

/-- The entry index of butterfly position p (19 R279). -/
def NodeRec.entryOf (n : NodeRec) (p : Nat) : Nat := n.cbase + p / 2 ^ n.cshift % 2 ^ n.clog

/-- The coefficient entries that a node reads for a frame of `len` elements (19 R279, R281). -/
def NodeRec.entriesRead (n : NodeRec) (len : Nat) : List Nat :=
  let r := if n.radix4 then 4 else 2
  let st := 2 ^ n.logs
  match n.mode with
  | 0 => (List.range len).map fun i => let j := i - i / st % r * st; n.entryOf (j / (st * r) * st + j % st)
  | 2 => if n.op == 0 then (List.range len).map fun i => n.cbase + i % (n.repl + 1) else []
  | _ => []
/-- Whether a node reads a poisoned granule of its coefficients for a frame (27 R399, R400). -/
def NodeRec.meetsPoison (n : NodeRec) (kind : Nat) : FabFrame → Bool
  | .blk _ m =>
    let es := n.entryBytes kind
    !n.bad.isEmpty && (n.entriesRead m.length).any fun e => n.bad.any fun g => groupsMeet (e * es) es (16 * g) 16
  | _ => false

/-- The outputs of a BFLY node, scaled by 2^14, output by output (19 R279). -/
def bflyOut (n : NodeRec) (kind : Nat) (x : List (Int × Int)) : List (Int × Int) :=
  let r := if n.radix4 then 4 else 2
  let st := 2 ^ n.logs
  let vs := valueBytes kind
  (List.range x.length).map fun i =>
    let k := i / st % r
    let j := i - k * st
    let p := j / (st * r) * st + j % st
    let e := n.entryOf p * n.entryBytes kind
    let xs (b : Nat) : Int × Int := (x[j + b * st]?).getD (0, 0)
    match n.cform with
    | 0 => (List.range r).foldl (fun a b => cAdd a (cMul (coefAt kind n.coef (e + (k * r + b) * vs)) (xs b))) (0, 0)
    | 1 =>
      let u := cScale 16384 (xs 0)
      let v := cMul (coefAt kind n.coef e) (xs 1)
      if k == 0 then cAdd u v else cSub u v
    | _ => if k == 0 then cScale 16384 (cAdd (xs 0) (xs 1)) else cMul (coefAt kind n.coef e) (cSub (xs 0) (xs 1))

/-- The outputs of a MOD node (19 R280). -/
def modOut (n : NodeRec) (q : Nat) (roots x : List Nat) : List Nat :=
  let st := 2 ^ n.logs
  (List.range x.length).map fun i =>
    let k := i / st % 2
    let j := i - k * st
    let w := (roots[n.entryOf (j / (2 * st) * st + j % st)]?).getD 0
    let a : Int := ((x[j]?).getD 0 : Nat)
    let b : Int := ((x[j + st]?).getD 0 : Nat)
    let y : Int := if n.op == 1 then (if k == 0 then a + b else (a - b) * w) else (if k == 0 then a + w * b else a - w * b)
    (y % (q : Int)).toNat

/-- The outputs of an M32 PWISE node (19 R281). -/
def pwiseMod (n : NodeRec) (q : Nat) (roots x y : List Nat) : List Nat :=
  (List.range x.length).map fun i =>
    let a : Int := ((x[i]?).getD 0 : Nat)
    let b : Int := ((y[i]?).getD 0 : Nat)
    let v : Int := match n.op with
      | 8 => a * ((roots[n.cbase + i % (n.repl + 1)]?).getD 0 : Nat)
      | 9 => a * b
      | 10 => a + b
      | 11 => a - b
      | _ => a
    (v % (q : Int)).toNat

/-- Frames brought to the larger exponent (19 Table 19-7). -/
def alignTo (f : Nat) : FabFrame → Nat → List (Int × Int)
  | .blk g m, _ => m.map (rhePair (f - g))
  | _, n => List.replicate n (0, 0)

/-- The exponent of a frame, 0 for a zero frame. -/
def FabFrame.exp : FabFrame → Nat
  | .blk f _ => f
  | _ => 0

/-- A MOD node or an M32 PWISE node on residues (19 R280, R281). -/
def NodeRec.fireRes (n : NodeRec) (q : Nat) (roots x : List Nat) (b : FabFrame) : FabFrame :=
  let y := match b with | .res y => y | _ => []
  .res (if n.mode == 1 then modOut n q roots x else pwiseMod n q roots x y)

/-- The mantissas of a frame; none in a zero frame. -/
def FabFrame.mants : FabFrame → List (Int × Int)
  | .blk _ m => m
  | _ => []

/-- A PWISE node of two inputs on mantissa frames (19 R281, R282). -/
def NodeRec.fireTwo (n : NodeRec) (mode : Nat) (a b : FabFrame) : FabFrame × Flags :=
  let len := max a.mants.length b.mants.length
  let f := max a.exp b.exp
  if b = .bad then (.bad, flNone)
  else if a = .zero ∧ b = .zero then (.zero, flNone)
  else if n.op ≠ 1 then
    growFrame (((alignTo f a len).zip (alignTo f b len)).map fun z => if n.op = 2 then cAdd z.1 z.2 else cSub z.1 z.2) 0 f mode false
  else if a.mants = [] ∨ b.mants = [] then (.zero, flNone)
  else growFrame ((a.mants.zip b.mants).map fun z => cMul z.1 z.2) 14 ((a.exp : Int) + b.exp - 127) mode false

/-- A BFLY node, or a PWISE node of one input, on a mantissa frame (19 R279, R281). -/
def NodeRec.fireOne (n : NodeRec) (kind mode f : Nat) (x : List (Int × Int)) : FabFrame × Flags :=
  if n.mode == 0 then growFrame (bflyOut n kind x) 14 f mode n.radix4
  else if n.op == 0 then
    growFrame (x.mapIdx fun i v => cMul (coefAt kind n.coef ((n.cbase + i % (n.repl + 1)) * valueBytes kind)) v) 14 f mode false
  else growFrame (if n.op == 4 then x.map fun v => (v.1, -v.2) else x) 0 f mode false

/-- What a node makes of its input frames in growth mode `mode` (19 R278 to R284). -/
def NodeRec.fire (n : NodeRec) (kind mode q : Nat) (roots : List Nat) (a b : FabFrame) : FabFrame × Flags :=
  if n.mode == 3 then (a, flNone)
  else match a with
    | .res x => (n.fireRes q roots x b, flNone)
    | .bad => (.bad, flNone)
    | .zero => if n.two then n.fireTwo mode .zero b else (.zero, flNone)
    | .blk f x => if n.two then n.fireTwo mode (.blk f x) b else n.fireOne kind mode f x

/-- Bits reversed within n. -/
def bitRev : Nat → Nat → Nat
  | 0, _ => 0
  | n + 1, j => j % 2 * 2 ^ n + bitRev n (j / 2)

/-- The index whose element a channel puts at place i: the inverse of π (19 R274). -/
def ChanRec.source (c : ChanRec) (logn i : Nat) : Nat :=
  match c.perm with
  | 1 => bitRev logn i
  | 2 => i / 2 ^ c.rot + i % 2 ^ c.rot * 2 ^ (logn - c.rot)
  | _ => i

/-- A frame as a channel carries it (19 R274). -/
def ChanRec.carry (c : ChanRec) (logn : Nat) : FabFrame → FabFrame
  | .blk f m => .blk f ((List.range m.length).map fun i => (m[c.source logn i]?).getD (0, 0))
  | .res r => .res ((List.range r.length).map fun i => (r[c.source logn i]?).getD 0)
  | x => x

/-! ### Ports -/

/-- Bytes of an element (19 R286). -/
def elemBytes (t : Tag) (kind : Nat) : Nat :=
  match t with
  | .s32 => 4
  | .m32 => 4
  | .fp32 => if kind == 1 then 4 else 8
  | _ => if kind == 1 then 2 else 4

/-- An address with a signed displacement. -/
def addrPlus (b : Nat) (o : Int) : Nat := (((b : Int) + o) % (2 ^ 64 : Nat)).toNat
/-- Consecutive addresses modulo 2^64. -/
def ringAddrs (va n : Nat) : List Nat := (List.range n).map fun i => (va + i) % 2 ^ 64

/-- One part of a frame in memory: its first element, its count, where its data and exponents are, and whether it is switched off
(19 R285, R287). -/
structure PortPart where
  first : Nat
  count : Nat
  va : Nat
  ea : Nat
  off : Bool

/-- The parts of the frame of tile t with n elements (19 R285, R287). -/
def PortDesc.parts (d : PortDesc) (n t : Nat) : List PortPart :=
  let o := (t : Int) * d.tstride
  let e := (t : Int) * d.etstride
  if d.halves then
    [⟨0, n / 2, addrPlus d.base o, addrPlus d.ebase e, d.h0off⟩, ⟨n / 2, n / 2, addrPlus d.base2 o, addrPlus d.ebase2 e, d.h1off⟩]
  else [⟨0, n, addrPlus d.base o, addrPlus d.ebase e, false⟩]

/-- Mantissas of a part: two an element in a complex section. -/
def PortPart.mants (p : PortPart) (kind : Nat) : Nat := if kind == 1 then p.count else 2 * p.count
/-- B16 blocks of a part (19 R286). -/
def PortPart.blocks (p : PortPart) (kind : Nat) : Nat := (p.mants kind + 31) / 32
/-- Addresses of the data bytes of a part, in order (19 R285, R286). -/
def PortPart.dataAddrs (p : PortPart) (d : PortDesc) (t : Tag) (kind : Nat) : List Nat :=
  if t == .b16 then ringAddrs p.va (64 * p.blocks kind)
  else (List.range p.count).flatMap fun j => ringAddrs (p.va + j * d.pstride) (elemBytes t kind)
/-- Addresses of the exponent bytes of a part. -/
def PortPart.expAddrs (p : PortPart) (t : Tag) (kind : Nat) : List Nat := if t == .b16 then ringAddrs p.ea (p.blocks kind) else []
/-- The extents of a part, from its first element to its last: first address and bytes (19 R301, log 38). -/
def PortPart.extents (p : PortPart) (d : PortDesc) (t : Tag) (kind : Nat) : List (Nat × Nat) :=
  if p.off then []
  else if t == .b16 then [(p.va, 64 * p.blocks kind), (p.ea, p.blocks kind)]
  else [(p.va, if p.count == 0 then 0 else (p.count - 1) * d.pstride + elemBytes t kind)]

/-- The mantissas of a part, block by block, with the block exponents. -/
def partBlocks (k : Nat) (bs es : List Byte) : List (Nat × List Int) :=
  (List.range es.length).map fun b =>
    (((es[b]?).getD 0).toNat, (List.range (min 32 (k - 32 * b))).map fun i => patternInt true 16 (fieldAt bs (64 * b + 2 * i) 2))

/-- Pairs from components: real sections take a zero imaginary part. -/
def pairUp (kind : Nat) : List Int → List (Int × Int)
  | [] => []
  | a :: rest => if kind == 1 then (a, 0) :: pairUp kind rest else match rest with
    | b :: r => (a, b) :: pairUp kind r
    | [] => [(a, 0)]

/-- A frame from B16 blocks (19 R283). -/
def frameOfBlocks (kind : Nat) (bl : List (Nat × List Int)) : FabFrame × Flags :=
  if bl.any fun b => b.1 == 255 then (.bad, flNV)
  else if bl.all fun b => b.1 == 0 then (.zero, flNone)
  else
    let f := bl.foldl (fun a b => max a b.1) 0
    (.blk f (pairUp kind (bl.flatMap fun b => if b.1 == 0 then b.2.map fun _ => 0 else b.2.map fun m => rheShift m (f - b.1))), flNone)

/-- A frame from values (19 R283, by 03 R31). -/
def frameOfValues (kind : Nat) (vs : List FVal) : FabFrame × Flags :=
  let r := b16Block .rne vs
  let fl := r.2.foldl (fun a x => a ||| x.2) flNone
  if r.1 == 255 then (.bad, fl)
  else if r.1 == 0 then (.zero, fl)
  else (.blk r.1 (pairUp kind (r.2.map fun x => patternInt true 16 x.1)), fl)

/-- lift(r, q) (03 R35). -/
def liftMod (q r : Nat) : Int := if r ≤ (q - 1) / 2 then r else (r : Int) - q

/-- A frame of residues with the signed integers that the bound check sees, and whether an element was reported (19 R295, R296). -/
def frameOfInts (q : Nat) (t : Tag) (ps : List Nat) : FabFrame × List Int × Bool :=
  if t == .s32 then
    let vs := ps.map (patternInt true 32)
    let rs := vs.map (intToM32 q true)
    (.res (rs.map (·.1)), vs, rs.any (·.2))
  else
    let rs := ps.map (· % q)
    (.res rs, rs.map (liftMod q), ps.any fun p => decide (q ≤ p))

/-- Components of the elements of a part of a frame. -/
def partComps (kind : Nat) (p : PortPart) (m : List (Int × Int)) : List Int :=
  ((m.drop p.first).take p.count).flatMap fun x => if kind == 1 then [x.1] else [x.1, x.2]

/-- A component converted by an output port to FP32 or BF16: BF16 overflow saturates (19 R286). -/
def portRound (t : Tag) (v : FVal) : Nat × Flags :=
  if t == .fp32 then Fp.fp32.round .rne true v.toRV
  else
    let r := Fp.bf16.round .rne true v.toRV
    if r.2 &&& flOF = 0 then r else (Fp.bf16.signed (match v with | .fin neg _ _ => neg | .inf neg => neg | _ => false) Fp.bf16.maxPattern, flSAT ||| flNX)

/-- The data bytes, the exponent bytes and the flags that an output port writes for a part of a frame (19 R286, R295). -/
def portBytes (q : Nat) (t : Tag) (kind n : Nat) (p : PortPart) (fr : FabFrame) : List Byte × List Byte × Flags :=
  let f : Nat := match fr with | .bad => 255 | x => x.exp
  let m : List (Int × Int) := match fr with | .blk _ m => m | _ => List.replicate n (0, 0)
  let cs := partComps kind p m
  match t with
  | .b16 =>
    let pad := 32 * p.blocks kind - cs.length
    ((cs ++ List.replicate pad 0).flatMap fun c => leBytes 2 (intPattern 16 c), List.replicate (p.blocks kind) (BitVec.ofNat 8 f), flNone)
  | .s32 => (match fr with | .res r => ((r.drop p.first).take p.count).flatMap fun x => leBytes 4 (intPattern 32 (liftMod q x)) | _ => [], [], flNone)
  | .m32 => (match fr with | .res r => ((r.drop p.first).take p.count).flatMap fun x => leBytes 4 x | _ => [], [], flNone)
  | _ =>
    let fmt : Fp := if t == .fp32 then .fp32 else .bf16
    let rs := cs.map fun c => if fr == .bad then (fmt.canonicalNan, flNone) else portRound t (b16Value f (intPattern 16 c))
    (rs.flatMap fun r => leBytes (tagBytes t) r.1, [], rs.foldl (fun a r => a ||| r.2) flNone)

/-! ### Runs -/

/-- The section run that an operation is. -/
def OpKind.run? : OpKind → Option SecRun
  | .run r => some r
  | _ => none
/-- The run of a plane, counter and number. -/
def State.run? (s : State) (p : PlaneId) (n : TReg) (seq : Nat) : Option SecRun :=
  match s.op? p n seq with
  | some o => o.kind.run?
  | none => none
/-- A run replaced. -/
def State.setRun (s : State) (p : PlaneId) (n : TReg) (seq : Nat) (r : SecRun) : State := s.modOp p n seq fun _ => .run r

/-- The operations of plane p issued before one of them. -/
def State.opsBefore (s : State) (p : PlaneId) (n : TReg) (seq : Nat) : List AOp :=
  (s.ops.filter fun o => o.plane == p).takeWhile fun o => !(o.n == n && o.seq == seq)

/-- Whether an operation is an SLOAD or a TWLOAD. -/
def OpKind.isImageLoad : OpKind → Bool
  | .sload _ _ => true
  | .twload _ _ _ => true
  | _ => false

/-- The slots of a section in one direction. -/
def StreamImage.slotsOf (m : StreamImage) (sec : Nat) (out : Bool) : List Nat :=
  (List.range m.slots.length).filter fun k => match m.slots[k]? with | some p => p.sec == sec && p.out == out | none => false

/-- Tiles done by a slot. -/
def SecRun.doneBy (r : SecRun) (slot : Nat) : Nat := (r.done[slot]?).getD 0

/-- The image, section and slot or node context of a run that may work now: the plane has its core's slot, no SLOAD or TWLOAD issued
before the run is pending, and every earlier run of the section has taken its last tile (05 R59, 19 R290, R291, R299, R302). -/
def State.runContext (s : State) (p : PlaneId) (n : TReg) (seq : Nat) (r : SecRun) : Option (StreamImage × SecRec) :=
  match (s.plane p).fab.bound with
  | none => none
  | some b =>
    let earlier := s.opsBefore p n seq
    let started := earlier.all fun o => !o.kind.isImageLoad && (match o.kind with
      | .run q => q.gen != r.gen || q.sec != r.sec || (b.2.slotsOf r.sec false).all fun k => decide (q.limit ≤ q.doneBy k)
      | _ => true)
    if s.holdsSlot p && b.1 == r.gen && started then (b.2.secs[r.sec]?).map fun c => (b.2, c) else none

/-- Whether every channel from a source is empty. -/
def SecRun.roomFrom (r : SecRun) (m : StreamImage) (src : Nat) : Bool :=
  (List.range m.chans.length).all fun k =>
    match m.chans[k]? with
    | some c => c.src != src || (r.chans[k]?).join.isNone
    | none => true
/-- A frame put on every channel from a source. -/
def SecRun.put (r : SecRun) (m : StreamImage) (logn src : Nat) (f : FabFrame) : SecRun :=
  { r with chans := r.chans.mapIdx fun k old => match m.chans[k]? with | some c => if c.src == src then some (c.carry logn f) else old | none => old }
/-- The frame waiting at an input. -/
def SecRun.at (r : SecRun) (m : StreamImage) (dst toin : Nat) : Option FabFrame :=
  (List.range m.chans.length).findSome? fun k =>
    match m.chans[k]? with
    | some c => if c.dst == dst && c.toin == toin then (r.chans[k]?).join else none
    | none => none
/-- The channels into a destination emptied. -/
def SecRun.take (r : SecRun) (m : StreamImage) (dst : Nat) : SecRun :=
  { r with chans := r.chans.mapIdx fun k old => match m.chans[k]? with | some c => if c.dst == dst then none else old | none => old }

/-- A run that meets an uncorrectable error at its tile t: it takes no later tile (19 R292). -/
def SecRun.failAt (r : SecRun) (t : Nat) : SecRun := { r with limit := min r.limit t, status := if r.status == 1 then 1 else 2 }

/-- The granules that hold bytes at consecutive addresses from va on: their own addresses, ascending. -/
def granulesOf (va n : Nat) : List Nat :=
  (List.range ((va % 16 + n + 15) / 16)).map fun g => (va / 16 * 16 + 16 * g) % 2 ^ 64

/-- The addresses of the granules that an FE input port reads for a frame, in order, those included that the frame covers in part (19 R288). -/
def granuleAddrs (d : PortDesc) (t : Tag) (kind n tile : Nat) : List Nat :=
  ((d.parts n tile).flatMap fun p => granulesOf p.va (if t == .b16 then 64 * p.blocks kind else p.count * elemBytes t kind)).eraseDups

/-- What an input port makes of its bytes: a frame, the flags, and the norms of a checked frame (19 R283, R295, R296). -/
def inputFrame (q : Nat) (t : Tag) (kind : Nat) (parts : List PortPart) (data exps : List (List Byte)) : FabFrame × Flags × (Nat × Nat × Bool) :=
  let bytes := data.flatten
  match t with
  | .b16 =>
    let r := frameOfBlocks kind (((parts.zip (data.zip exps)).map fun x => partBlocks (x.1.mants kind) x.2.1 x.2.2).flatten)
    (r.1, r.2, 0, 0, false)
  | .fp32 => let r := frameOfValues kind ((unitsOf 4 (bytes.length / 4) bytes).map Fp.fp32.value); (r.1, r.2, 0, 0, false)
  | .bf16 => let r := frameOfValues kind ((unitsOf 2 (bytes.length / 2) bytes).map Fp.bf16.value); (r.1, r.2, 0, 0, false)
  | _ =>
    let r := frameOfInts q t (unitsOf 4 (bytes.length / 4) bytes)
    (r.1, if r.2.2 then flMOV else flNone, r.2.1.foldl (fun a v => a + v.natAbs) 0, r.2.1.foldl (fun a v => max a v.natAbs) 0, r.2.2)

/-- Bytes at lists of addresses, one list each. -/
def State.unitReads (s : State) (xl : List XFrame) : List (List Nat) → Option (List (List Byte) × State)
  | [] => some ([], s)
  | as :: rest =>
    match s.engineRead xl as with
    | none => none
    | some (bs, s) => match s.unitReads xl rest with
      | none => none
      | some (bss, s) => some (bs :: bss, s)

/-- An input port takes its frame (19 R283, R288, R290, R295). -/
def State.fireIn (s : State) (p : PlaneId) (n : TReg) (seq : Nat) (r : SecRun) (m : StreamImage) (c : SecRec) (slot : Nat) : State :=
  match m.slots[slot]?, (r.descs[slot]?).join with
  | some sl, some d =>
    let rel := r.doneBy slot
    let tile := r.first + rel
    let parts := d.parts (2 ^ c.logn) tile
    let grans := granuleAddrs d sl.tag c.kind (2 ^ c.logn) tile
    let mine := fun g => r.got.find? fun x => x.1 == slot && x.2.1 == g
    if sl.out || sl.sec != r.sec || r.limit ≤ rel || !r.roomFrom m (0x40 + slot) then s
    else if d.fe && !((List.range grans.length).all fun g => (mine g).isSome) then s
    else
      let data : Option (List (List Byte) × State) :=
        if d.fe then
          let byte (a : Nat) : Byte := (((grans.findIdx? (· == a / 16 * 16)).bind mine).bind fun x => x.2.2[a % 16]?).getD 0
          some (parts.map fun x => (x.dataAddrs d sl.tag c.kind).map byte, s)
        else s.unitReads r.xl (parts.map fun x => x.dataAddrs d sl.tag c.kind)
      match data with
      | none => s.setRun p n seq (r.failAt rel)
      | some (bss, s1) =>
        match s1.unitReads r.xl (parts.map fun x => x.expAddrs sl.tag c.kind) with
        | none => s1.setRun p n seq (r.failAt rel)
        | some (ess, s2) =>
          let f := inputFrame r.q sl.tag c.kind parts bss ess
          let r1 := { (r.put m c.logn (0x40 + slot) f.1) with
            done := r.done.set slot (rel + 1), got := r.got.filter fun x => x.1 != slot, fl := r.fl ||| f.2.1
            norms := if c.check && (slot == c.chka || slot == c.chkb) then r.norms ++ [(slot, tile, f.2.2)] else r.norms }
          s2.setRun p n seq r1
  | _, _ => s

/-- The tile of the frame that waits at a node's first input: tiles read by the input slot it comes from, less the frames on the way
(19 R290). -/
def SecRun.tileAt (r : SecRun) (m : StreamImage) : Nat → Nat → Nat
  | 0, _ => 0
  | n + 1, x =>
    match (List.range m.chans.length).find? fun k => match m.chans[k]? with | some c => c.dst == x && c.toin == 0 | none => false with
    | none => 0
    | some k => match m.chans[k]? with
      | some c => (if c.src < 0x40 then r.tileAt m n c.src else r.doneBy (c.src - 0x40)) - b2n (r.chans[k]?).join.isSome
      | none => 0

/-- A node fires; a poisoned coefficient ends the run at its tile (19 R290, R292, 27 R400). -/
def State.fireNode (s : State) (p : PlaneId) (n : TReg) (seq : Nat) (r : SecRun) (m : StreamImage) (c : SecRec) (k : Nat) : State :=
  match m.nodes[k]?, r.at m k 0 with
  | some d, some a =>
    let b := r.at m k 1
    if d.sec != r.sec || (d.two && b.isNone) || !r.roomFrom m k then s
    else if d.meetsPoison c.kind a then s.setRun p n seq (r.failAt (r.tileAt m 64 k))
    else
      let y := d.fire c.kind r.grow r.q r.roots a (b.getD .zero)
      let r1 := (r.take m k).put m c.logn k y.1
      s.setRun p n seq { r1 with fl := r1.fl ||| y.2 }
  | _, _ => s

/-- Whether a place is in the partition of an evicted plane, which a remote port waits for (19 R289). -/
def Place.isSaved (p : Place) : Bool := match p.kind with | .saved _ _ => true | _ => false

/-- Whether an output port waits for a remote target: its frame is there and a byte to be written, data or exponent, lies in an evicted
partition (19 R289). -/
def State.remoteWaits (s : State) (r : SecRun) (m : StreamImage) (c : SecRec) (slot : Nat) : Bool :=
  match m.slots[slot]?, (r.descs[slot]?).join with
  | some sl, some d =>
    sl.out && d.fe && (r.at m (0x40 + slot) 0).isSome &&
      ((d.parts (2 ^ c.logn) (r.first + r.doneBy slot)).any fun x => !x.off &&
        match s.heldPlaces r.xl (x.expAddrs sl.tag c.kind ++ x.dataAddrs d sl.tag c.kind) with
        | some ps => ps.any Place.isSaved
        | none => false)
  | _, _ => false

/-- The writes of an output port for the parts of a frame: exponents before the mantissas, and FULL after the data at an FE port
(19 R286 to R288); none where a target is not there or a message fails. -/
def State.portWrites (s : State) (r : SecRun) (d : PortDesc) (t : Tag) (c : SecRec) (fr : FabFrame) : List PortPart → Option (State × Flags)
  | [] => some (s, flNone)
  | x :: rest =>
    if x.off then s.portWrites r d t c fr rest
    else
      let y := portBytes r.q t c.kind (2 ^ c.logn) x fr
      let as := x.dataAddrs d t c.kind
      match s.unitWrite r.xl (x.expAddrs t c.kind) y.2.1 with
      | none => none
      | some s =>
        match s.unitWrite r.xl as y.1, s.heldPlaces r.xl as with
        | some s, some ps =>
          let s := if d.fe then ps.foldl (fun s q => if s.feGet q then s else s.feSet q true) s else s
          (s.portWrites r d t c fr rest).map fun z => (z.1, z.2 ||| y.2.2)
        | _, _ => none

/-- An output port writes its frame (19 R286 to R290). -/
def State.fireOut (s : State) (p : PlaneId) (n : TReg) (seq : Nat) (r : SecRun) (m : StreamImage) (c : SecRec) (slot : Nat) : State :=
  match m.slots[slot]?, (r.descs[slot]?).join, r.at m (0x40 + slot) 0 with
  | some sl, some d, some fr =>
    let rel := r.doneBy slot
    if !sl.out || sl.sec != r.sec || r.limit ≤ rel || s.remoteWaits r m c slot then s
    else match s.portWrites r d sl.tag c fr (d.parts (2 ^ c.logn) (r.first + rel)) with
      | none => s.setRun p n seq (r.failAt rel)
      | some (s1, fl) =>
        let r1 := r.take m (0x40 + slot)
        s1.setRun p n seq { r1 with done := r1.done.set slot (rel + 1), fl := r1.fl ||| fl }
  | _, _, _ => s

/-- Event NODE_FIRE: a node or port of a run fires, where it can (19 R290). -/
def execNodeFire (p : PlaneId) (n : TReg) (seq : Nat) (u : FabUnit) (s : State) : Out :=
  .next (match s.run? p n seq with
    | none => s
    | some r => match s.runContext p n seq r with
      | none => s
      | some (m, c) => match u with
        | .node k => s.fireNode p n seq r m c k
        | .inPort k => s.fireIn p n seq r m c k
        | .outPort k => s.fireOut p n seq r m c k)

/-- Event INPUT_PORT_FE_READ: an FE input port reads granule g of its tile once it is FULL, clearing it with CLR in the same step
(19 R288). -/
def execInputPortFeRead (p : PlaneId) (n : TReg) (seq slot g : Nat) (s : State) : Out :=
  .next (match s.run? p n seq with
    | none => s
    | some r => match s.runContext p n seq r with
      | none => s
      | some (m, c) => match m.slots[slot]?, (r.descs[slot]?).join with
        | some sl, some d =>
          let rel := r.doneBy slot
          match (granuleAddrs d sl.tag c.kind (2 ^ c.logn) (r.first + rel))[g]? with
          | none => s
          | some va =>
            if sl.out || sl.sec != r.sec || !d.fe || r.limit ≤ rel || r.got.any (fun x => x.1 == slot && x.2.1 == g) then s
            else match s.heldPlace r.xl va with
              | none => s.setRun p n seq (r.failAt rel)
              | some pl =>
                if !s.feGet pl then s
                else match s.engineRead r.xl (ringAddrs va 16) with
                  | none => s.setRun p n seq (r.failAt rel)
                  | some (bs, s1) =>
                    (if d.clr then s1.feSet pl false else s1).setRun p n seq { r with got := r.got ++ [(slot, g, bs)] }
        | _, _ => s)

/-- Whether an aborted run waits on a consuming input port or a remote target (19 R307). -/
def State.runWaits (s : State) (r : SecRun) (m : StreamImage) (c : SecRec) : Bool :=
  (List.range m.slots.length).any fun k =>
    match m.slots[k]?, (r.descs[k]?).join with
    | some sl, some d =>
      sl.sec == r.sec && decide (r.doneBy k < r.limit) &&
        (if sl.out then s.remoteWaits r m c k
         else d.fe && (let as := granuleAddrs d sl.tag c.kind (2 ^ c.logn) (r.first + r.doneBy k)
           (List.range as.length).any fun g => !(r.got.any fun x => x.1 == k && x.2.1 == g) &&
             match s.heldPlace r.xl ((as[g]?).getD 0) with
             | some pl => !s.feGet pl
             | none => false))
    | _, _ => false

/-- The tiles of a run that the bound check flags, with their bounds B, in tile order (19 R296). -/
def SecRun.flagged (r : SecRun) (c : SecRec) : List (Nat × Nat) :=
  if !c.check then []
  else
    let of (slot tile : Nat) := r.norms.find? fun x => x.1 == slot && x.2.1 == tile
    ((r.norms.map (·.2.1)).eraseDups.mergeSort).filterMap fun t =>
      match of c.chka t, of c.chkb t with
      | some a, some b =>
        let bd := min (a.2.2.1 * b.2.2.2.1) (a.2.2.2.1 * b.2.2.1)
        if decide ((r.q - 1) / 2 < bd) || a.2.2.2.2 || b.2.2.2.2 then some (t, bd) else none
      | _, _ => none

/-- The section's record after a run has completed (19 R297, Table 19-11). -/
def SecState.after (x : SecState) (flagged : List (Nat × Nat)) (fl : BitVec 8) (status : Nat) : SecState :=
  let y : SecState := match flagged with
    | [] => x
    | f :: _ =>
      let cnt := min (x.count + flagged.length) (2 ^ 24 - 1)
      if x.valid then { x with count := cnt } else { x with count := cnt, valid := true, first := f.1, bound := min f.2 (2 ^ 63 - 1) }
  { y with fl := fl, last := status }

/-- The state of a section of the addressed image changed. -/
def Plane.modSec (p : Plane) (k : Nat) (f : SecState → SecState) : Plane := { p with fab := { p.fab with secs := p.fab.secs.modify k f } }

/-- A run records its status, flags and check record, and completes (19 R291, R292, R297). -/
def State.finishRun (s : State) (p : PlaneId) (n : TReg) (seq : Nat) (r : SecRun) (c : SecRec) : State :=
  let fg := r.flagged c
  let fl := r.fl ||| (if fg.isEmpty then flNone else flMOV)
  (s.modPlane p fun pl =>
    let pl := pl.orFlags fl
    if pl.fab.gen == r.gen then pl.modSec r.sec fun x => x.after fg fl r.status else pl).completeOp p n seq

/-- Whether a run has written its last tile. -/
def SecRun.written (r : SecRun) (m : StreamImage) : Bool := (m.slotsOf r.sec true).all fun k => decide (r.limit ≤ r.doneBy k)

/-- Whether eviction may stop an operation of the fabric of plane p where it stands: a run at a tile boundary, with no tile on its way, or
waiting on a consuming input port or a remote target (19 R293, 17 Table 17-7). -/
def State.runMayStop (s : State) (p : PlaneId) (o : OpKind) : Bool :=
  match o, (s.plane p).fab.bound with
  | .run r, some b =>
    b.1 != r.gen || r.written b.2 || (match b.2.secs[r.sec]? with | some c => s.runWaits r b.2 c | none => true) ||
      (r.got.isEmpty && r.chans.all Option.isNone &&
        (b.2.slotsOf r.sec false ++ b.2.slotsOf r.sec true).all fun k => r.doneBy k == ((b.2.slotsOf r.sec true).head?.map r.doneBy).getD 0)
  | _, _ => true

/-- Event SECTION_RUN_COMPLETE: a run whose last tile is written, or an aborted run that waits, records its status, flags and check
record and completes (19 R291, R292, R297, R307). -/
def execSectionRunComplete (p : PlaneId) (n : TReg) (seq : Nat) (s : State) : Out :=
  .next (match s.run? p n seq with
    | none => s
    | some r => match s.runContext p n seq r with
      | none => s
      | some (m, c) =>
        if r.written m || (r.status == 1 && s.runWaits r m c) then s.finishRun p n seq r c else s)

end Sys2Proof.Machine
end

