-- ==== Sys2Proof/Machine/Trellis.lean ====
section
/-! DEFINITION. The instructions of major 0x30 and the events that complete them (19 R298 to R308). -/
namespace Sys2Proof.Machine

/-- A word of major 0x30. -/
def trellisWord (d a b : XReg) (fn : BitVec 5) (mod : BitVec 6) : IWord := packR 48#6 d a b fn mod

/-- The state of a section under a new image (19 R299). -/
def SecState.fresh (c : SecRec) : SecState := ⟨c.grow, false, 0, 0, 0, 0, 0⟩

/-- The addressed image with a section of it, where Xa names one. -/
def State.section? (s : State) (a : XReg) : Option (StreamImage × SecRec × SecState) :=
  match s.me.fab.image with
  | none => none
  | some m => match m.secs[(s.getX a).toNat]?, s.me.fab.secs[(s.getX a).toNat]? with
    | some c, some x => some (m, c, x)
    | _, _ => none

/-- Runs of a section of the addressed image that have not completed, oldest first. -/
def State.runsOf (s : State) (sec : Nat) : List SecRun :=
  s.ops.filterMap fun o => if o.plane == s.cur then (match o.kind with
    | .run r => if r.sec == sec && r.gen == s.me.fab.gen then some r else none
    | _ => none) else none

/-- Whether plane p has a run, SLOAD or TWLOAD that has not completed (19 R308). -/
def State.fabricBusy (s : State) (p : PlaneId) : Bool :=
  s.ops.any fun o => o.plane == p && (o.kind.isImageLoad || o.kind.run?.isSome)

/-- SLOAD (19 R299). -/
def execSload (a : XReg) (n : TReg) (s : State) : Out :=
  let w := trellisWord 0 a 0 0 (0#2 ++ n)
  let xa := s.getX a
  .next (
    if xa.toNat % 64 != 0 then s.trap causeIllop xa
    else match s.readBytes xa 64 with
      | .error e => s.memTrap e
      | .ok (h, _) => match imageSize h with
        | none => s.illOp w
        | some size => match s.readBytes xa size with
          | .error e => s.memTrap e
          | .ok (bs, s') => match streamImage? bs with
            | none => s.illOp w
            | some m =>
              if !s'.fits m || !m.progresses then s.trap causeCapacity (w.zeroExtend 64)
              else if !s'.canIssue n 1 then s.illOp w
              else if !s'.releaseReady then s
              else
                let g := s'.me.fab.gen + 1
                let s' := s'.issueOp n (.sload g m)
                (s'.modMe fun p => { p with fab := { p.fab with
                  gen := g, image := some m, secs := m.secs.map SecState.fresh, descs := List.replicate m.slots.length none } }).advance 4)

/-- Whether every run, SLOAD and TWLOAD that plane p issued before an operation has completed (19 R299, R302). -/
def State.fabricTurn (s : State) (o : AOp) : Bool :=
  (s.opsBefore o.plane o.n o.seq).all fun x => !x.kind.isImageLoad && x.kind.run?.isNone

/-- Event SLOAD_INSTALL: the plane's oldest SLOAD installs its image, once the fabric work before it has completed (19 R299). -/
def execSloadInstall (p : PlaneId) (s : State) : Out :=
  .next (match s.ops.find? fun o => o.plane == p && o.kind.isImageLoad with
    | some o => match o.kind with
      | .sload g m =>
        if s.fabricTurn o then (s.modPlane p fun pl => { pl with fab := { pl.fab with bound := some (g, m) } }).completeOp p o.n o.seq else s
      | _ => s
    | none => s)

/-- TWLOAD (19 R302). -/
def execTwload (a b : XReg) (n : TReg) (s : State) : Out :=
  let w := trellisWord 0 a b 3 (0#2 ++ n)
  .next (match s.me.fab.image with
    | none => s.illOp w
    | some m => match m.nodes[(s.getX a).toNat]? with
      | none => s.illOp w
      | some d =>
        if d.clen == 0 then s.illOp w
        else match s.readBytes (s.getX b) d.clen with
          | .error e => s.memTrap e
          | .ok (bs, s') =>
            if !s'.canIssue n 1 then s.illOp w
            else if !s'.releaseReady then s
            else (s'.issueOp n (.twload s'.me.fab.gen (s.getX a).toNat bs)).advance 4)

/-- Event TWLOAD_APPLY: the plane's oldest TWLOAD writes its bytes into the stations of its node, once the fabric work before it has
completed (19 R302). -/
def execTwloadApply (p : PlaneId) (s : State) : Out :=
  .next (match s.ops.find? fun o => o.plane == p && o.kind.isImageLoad with
    | some o => match o.kind with
      | .twload g k bs =>
        if s.fabricTurn o then
          (s.modPlane p fun pl => match pl.fab.bound with
            | some (h, m) => if h == g then
                { pl with fab := { pl.fab with bound := some (h, { m with nodes := m.nodes.modify k fun d => { d with coef := bs, bad := [] } }) } } else pl
            | none => pl).completeOp p o.n o.seq
        else s
      | _ => s
    | none => s)

/-- The descriptor in 64 bytes for a slot of a section; none where it breaks 19 Table 19-8 or R300. -/
def portDesc? (bs : List Byte) (sl : SlotRec) (c : SecRec) : Option PortDesc :=
  let f (o n : Nat) : Nat := fieldAt bs o n
  let fl := f 0x14 1
  let bit (i : Nat) : Bool := fl / 2 ^ i % 2 == 1
  let d : PortDesc := ⟨f 0 8, patternInt true 64 (f 8 8), f 0x10 4, bit 0, bit 1, bit 2, bit 3, bit 4, f 0x18 8,
    patternInt true 64 (f 0x20 8), f 0x28 8, f 0x30 8⟩
  let es := elemBytes sl.tag c.kind
  let b16 := sl.tag == .b16
  let bytes := (if d.halves then 2 ^ c.logn / 2 else 2 ^ c.logn) * es
  if 32 ≤ fl || !zeroAt bs 0x15 3 || !zeroAt bs 0x38 8 || d.pstride % es != 0 || ((b16 || d.fe) && d.pstride != es) ||
      (!b16 && (d.ebase != 0 || d.etstride != 0)) || (!d.halves && d.base2 != 0) || ((!d.halves || !b16) && d.ebase2 != 0) ||
      (d.clr && (!d.fe || sl.out)) || ((d.h0off || d.h1off) && (!d.halves || !sl.out)) || (d.h0off && d.h1off) ||
      (d.fe && (d.base % 16 != 0 || d.base2 % 16 != 0 || (!b16 && bytes % 16 != 0)))
  then none else some d

/-- SPORT (19 R300). -/
def execSport (a b : XReg) (s : State) : Out :=
  let w := trellisWord 0 a b 2 0
  let k := (s.getX a).toNat
  .next (match s.me.fab.image with
    | none => s.illOp w
    | some m => match m.slots[k]? with
      | none => s.illOp w
      | some sl => match m.secs[sl.sec]? with
        | none => s.illOp w
        | some c =>
          if (s.getX b).toNat % 8 != 0 then s.illOp w
          else match s.readBytes (s.getX b) 64 with
            | .error e => s.memTrap e
            | .ok (bs, s') => match portDesc? bs sl c with
              | none => s.illOp w
              | some d => (s'.modMe fun p => { p with fab := { p.fab with descs := p.fab.descs.set k (some d) } }).advance 4)

/-- The roots that a section's nodes can name, one past the largest (19 R301). -/
def StreamImage.rootsNeeded (m : StreamImage) (sec : Nat) (c : SecRec) : Nat :=
  m.nodes.foldl (fun a n =>
    if n.sec == sec && (n.mode == 1 || (n.mode == 2 && n.op == 8)) then max a (n.topIndex c.logn + 1) else a) 0

/-- The walks of SARM for one tile: every page of every extent of every port of the section (19 R301). -/
def State.walkTile (s : State) (m : StreamImage) (sec : Nat) (c : SecRec) (descs : List (Option PortDesc)) (tile : Nat) :
    List (Except MemErr (List XFrame)) :=
  (List.range m.slots.length).flatMap fun k =>
    match m.slots[k]?, (descs[k]?).join with
    | some sl, some d =>
      if sl.sec != sec then []
      else (d.parts (2 ^ c.logn) tile).flatMap fun x => (x.extents d sl.tag c.kind).map fun e =>
        s.walkExtent s.myAgent (if sl.out then .write else .read) d.fe e.1 e.2
    | _, _ => []

/-- SARM (19 R301). -/
def execSarm (d a b : XReg) (n : TReg) (s : State) : Out :=
  let w := trellisWord d a b 1 (0#2 ++ n)
  let sec := (s.getX a).toNat
  let first := (s.getX d).toNat
  let count := (s.getX b).toNat
  .next (match s.section? a with
    | none => s.illOp w
    | some (m, c, x) =>
      let fab := s.me.fab
      let slots := m.slotsOf sec false ++ m.slotsOf sec true
      if count == 0 || 2 ^ 32 < first + count || slots.any (fun k => (fab.descs[k]?).join.isNone) ||
          s.me.roots.length < m.rootsNeeded sec c then s.illOp w
      else match joinWalks ((List.range count).flatMap fun t => s.walkTile m sec c fab.descs (first + t)) with
        | .error e => s.memTrap e
        | .ok xl =>
          if !s.canIssue n 1 then s.illOp w
          else if 4 ≤ (s.runsOf sec).length || !s.releaseReady then s
          else (s.issueOp n (.run
            { sec := sec, gen := fab.gen, kind := c.kind, first := first, count := count, descs := fab.descs, grow := x.grow
              q := s.me.modulus, roots := s.me.roots, xl := xl, done := List.replicate m.slots.length 0, got := []
              chans := List.replicate m.chans.length none, norms := [], fl := 0, limit := count, status := 0 })).advance 4)

/-- The number of a growth mode (19 Table 19-3). -/
def growthNum : Growth → Nat
  | .cond => 0 | .always => 1 | .none => 2

/-- SGROW (19 R303). -/
def execSgrow (a : XReg) (g : Growth) (s : State) : Out :=
  let w := trellisWord 0 a 0 4 (g.code ++ 0#4)
  .next (match s.section? a with
    | none => s.illOp w
    | some (_, c, _) =>
      if c.kind == 2 && g != .cond then s.illOp w
      else (s.modMe fun p => p.modSec (s.getX a).toNat fun x => { x with grow := growthNum g }).advance 4)

/-- The modulus and the number and address of roots in a MODCFG descriptor; none where it breaks 19 Table 19-9 or R294. -/
def modDesc? (bs : List Byte) : Option (Nat × Nat × Nat) :=
  let q := fieldAt bs 0 4
  let nroot := fieldAt bs 0x10 2
  let roots := fieldAt bs 0x18 8
  if q % 2 == 0 || q < 3 || 2 ^ 31 ≤ q || q * fieldAt bs 4 4 % 2 ^ 32 != 2 ^ 32 - 1 || fieldAt bs 8 8 != 2 ^ 64 % q ||
      1024 < nroot || !zeroAt bs 0x12 6 || roots % 4 != 0 || !zeroAt bs 0x20 32 then none else some (q, nroot, roots)

/-- MODCFG with its values read: set once older vector work and M32 runs have completed (19 R304). -/
def modcfgWait (q : Nat) (roots : List Nat) (s : State) : State :=
  if s.queueEmpty && !(s.ops.any fun o => o.plane == s.cur && match o.kind with | .run r => r.kind == 2 | _ => false) then
    (s.modMe fun p => { p with modulus := q, roots := roots }).advance 4
  else s.stallOn (.modcfg q roots)

/-- MODCFG (19 R304). -/
def execModcfg (a : XReg) (s : State) : Out :=
  let w := trellisWord 0 a 0 5 0
  .next (match s.me.wait with
    | some (.modcfg q roots) => modcfgWait q roots s
    | _ =>
      if (s.getX a).toNat % 8 != 0 then s.illOp w
      else match s.readBytes (s.getX a) 64 with
        | .error e => s.memTrap e
        | .ok (bs, s') => match modDesc? bs with
          | none => s.illOp w
          | some (q, nroot, ra) => match s'.readBytes (addr64 ra) (4 * nroot) with
            | .error e => s.memTrap e
            | .ok (rs, s') =>
              let roots := unitsOf 4 nroot rs
              if roots.any fun r => decide (q ≤ r) then s.illOp w else modcfgWait q roots s')

/-- Event MODCFG_APPLY: a MODCFG that waits on plane p sets its values, where it may (19 R304). -/
def execModcfgApply (p : PlaneId) (s : State) : Out :=
  .next (match s.waitOf p with | some (.modcfg q roots) => s.asPlane p (modcfgWait q roots) | _ => s)

/-- MODCHK (19 R305). -/
def execModchk (d a : XReg) (c b : Bool) (s : State) : Out :=
  .next (match s.section? a with
    | none => s.retX d 0 4
    | some (_, _, x) =>
      let v := if b then (if x.valid then x.bound else 0) else b2n x.valid * 2 ^ 63 + x.count * 2 ^ 32 + x.first % 2 ^ 32
      let s := if c then s.modMe fun p => p.modSec (s.getX a).toNat fun x => { x with valid := false, count := 0, first := 0, bound := 0 } else s
      s.retX d (BitVec.ofNat 64 v) 4)

/-- Tiles whose writes a run has performed on every output port. -/
def SecRun.tiles (r : SecRun) (m : StreamImage) : Nat := ((m.slotsOf r.sec true).map r.doneBy).foldl min r.count

/-- SSTAT (19 R306). -/
def execSstat (d a : XReg) (s : State) : Out :=
  .next (match s.section? a with
    | none => s.retX d 0 4
    | some (m, _, x) =>
      let rs := s.runsOf (s.getX a).toNat
      let tiles := match rs with | r :: _ => r.tiles m | [] => 0
      s.retX d (BitVec.ofNat 64 (2 ^ 63 + x.fl.toNat * 2 ^ 48 + x.last * 2 ^ 40 + rs.length * 2 ^ 32 + tiles % 2 ^ 32)) 4)

/-- A run that SABORT ends: it takes no tile that has not begun (19 R307). -/
def SecRun.aborted (r : SecRun) (m : StreamImage) : SecRun :=
  let begun := ((m.slotsOf r.sec false).map fun k => r.doneBy k + b2n (r.got.any fun x => x.1 == k)).foldl max 0
  { r with limit := min r.limit begun, status := 1 }

/-- The section runs of cohorts that have ended: each ends where it stands at a pre-emption point, and until then it takes no tile that has
not begun (17 R260, Table 17-7). -/
def State.stopEnded (s : State) : State :=
  let ending (p : PlaneId) : Bool := (s.plane p).st != .free && s.cohorts.any fun k => k.num == (s.plane p).coh && k.ended.isSome
  let stop (o : AOp) : Option AOp := match o.kind with
    | .run r =>
      if !ending o.plane then some o
      else if s.runMayStop o.plane o.kind then none
      else some (match (s.plane o.plane).fab.bound with | some b => { o with kind := .run (r.aborted b.2) } | none => o)
    | _ => some o
  if s.cohorts.any fun k => k.ended.isSome then { s with ops := s.ops.filterMap stop } else s

/-- Runs that SABORT has ended and that wait on a consuming input port or a remote target are abandoned at once (19 R307). -/
def State.abandon (s : State) (sec : Nat) (m : StreamImage) (c : SecRec) : State :=
  s.ops.foldl (fun s o => match o.kind with
    | .run r => if o.plane == s.cur && r.sec == sec && r.gen == s.me.fab.gen && r.status == 1 && s.runWaits r m c
      then s.finishRun o.plane o.n o.seq r c else s
    | _ => s) s

/-- SABORT (19 R307). -/
def execSabort (d a : XReg) (s : State) : Out :=
  .next (match s.section? a with
    | none => s.retX d 0 4
    | some (m, c, _) =>
      let sec := (s.getX a).toNat
      let gen := s.me.fab.gen
      let k := (s.runsOf sec).length
      let ops := s.ops.map fun o => if o.plane == s.cur then (match o.kind with
        | .run r => if r.sec == sec && r.gen == gen then { o with kind := .run (r.aborted m) } else o
        | _ => o) else o
      let s : State := ({ s with ops := ops } : State).abandon sec m c
      s.retX d (BitVec.ofNat 64 k) 4)

/-- SFREE (19 R308). -/
def execSfree (s : State) : Out :=
  .next (
    if s.fabricBusy s.cur then s.stallOn .sfree
    else (s.modMe fun p => { p with fab := { p.fab with image := none, secs := [], descs := [], bound := none } }).advance 4)

/-- Event FABRIC_RELEASE: an SFREE that waits on plane p releases the image, where it may (19 R308). -/
def execFabricRelease (p : PlaneId) (s : State) : Out :=
  .next (match s.waitOf p with
    | some .sfree => if s.fabricBusy p then s else s.asPlane p fun s =>
        (s.modMe fun p => { p with fab := { p.fab with image := none, secs := [], descs := [], bound := none } }).advance 4
    | _ => s)

end Sys2Proof.Machine
end

