-- ==== Sys2Proof/Machine/Matrix.lean ====
section
/-! DEFINITION. Matrix bindings, groups and operations, major 0x31 (21 R310 to R328). -/
namespace Sys2Proof.Machine

/-- A word of major 0x31. -/
def matrixWord (d a b : XReg) (fn : BitVec 5) (mod : BitVec 6) : IWord := packR 49#6 d a b fn mod

/-! ### Formats and bindings -/

/-- The depth Kp of a K-panel (21 Table 21-1). -/
def panelDepth (t : Tag) : Nat := match t with | .bf16 => 48 | .q4 => 192 | _ => 96
/-- The indices Ks of a station row (21 Table 21-1). -/
def rowDepth (t : Tag) : Nat := match t with | .bf16 => 8 | .q4 => 32 | _ => 16
/-- The panel stride P of an A tile (21 R317). -/
def panelStride (t : Tag) : Nat := if t == .q4 then 9984 else 9216
/-- Bytes of k elements of a matrix format. -/
def matBytes (t : Tag) (k : Nat) : Nat := match t with | .bf16 => 2 * k | .q4 => k / 2 | _ => k

/-- The value of an element: a pattern of the format, or 16 × scale byte + code for Q4. -/
def matValue (t : Tag) (x : Nat) : FVal := match tagFp? t with | some f => f.value x | none => q4Value (x / 16) (x % 16)

/-- Elements 0 to k − 1 of a row of bytes with its scale bytes (21 Tables 21-3, 21-4). -/
def matElems (t : Tag) (k : Nat) (bs scales : List Byte) : List Nat :=
  match t with
  | .q4 => (List.range k).map fun i =>
      16 * ((scales[i / 32]?).getD 0).toNat + ((bs[i / 2]?).getD 0).toNat / (if i % 2 == 1 then 16 else 1) % 16
  | .bf16 => unitsOf 2 k bs
  | _ => unitsOf 1 k bs

/-- A list of numbers lengthened with zeros to n. -/
def padTo (n : Nat) (xs : List Nat) : List Nat := xs ++ List.replicate (n - xs.length) 0

/-- Members of a binding's group in ascending rank; of a SOLO binding, the plane itself (21 R315). -/
def State.matMembers (s : State) (p : PlaneId) (b : Binding) : List PlaneId := if b.solo then [p] else (s.group b.entry).members

/-- The formats of 21 Table 21-1 by tag code. -/
def matrixTag? (c : Nat) : Option Tag :=
  match c with
  | 0x0D => some .e4m3 | 0x0E => some .e5m2 | 0x0B => some .bf16 | 0x0F => some .q4 | _ => none

/-- Whether plane p holds stations for a stream image or an adder graph. -/
def State.fabricHeld (s : State) (p : PlaneId) : Bool := !(s.imagesOf p).isEmpty || !(s.graphStations p).isEmpty

/-- MGRP (21 R313). -/
def execMgrp (d a : XReg) (s : State) : Out :=
  let w := matrixWord d a 0 0 0
  let x := (s.getX a).toNat
  let slot : BitVec 2 := (s.getX a).extractLsb' 0 2
  let solo := x / 4 % 2 == 1
  let rm1 := x / 16 % 4
  let cm1 := x / 256 % 8
  let others := (planeIdx.map (planeOf (coreOf s.cur))).filter (· != s.cur)
  let go (t : Tag) (entry : Nat) (members : List PlaneId) : State :=
    if others.any fun q => (s.plane q).mx.isSome then s.retX d 1 4
    else if s.fabricHeld s.cur then s.retX d 2 4
    else
      let k := (members.findIdx? (· == s.cur)).getD 0
      let zero : List (List Nat) := List.replicate 96 (List.replicate 128 0)
      let b : Binding := ⟨t, solo, entry, rm1, cm1, k / (cm1 + 1), k % (cm1 + 1),
        List.replicate 8 (List.replicate 128 (List.replicate (panelDepth t) 0)), zero, zero, 0, []⟩
      (s.modMe fun p => { p with mx := some b }).retX d 0 4
  .next (
    match matrixTag? (x / 2 ^ 16 % 32) with
    | none => s.illOp w
    | some t =>
      if x &&& 0x1F0737 != x || s.me.mx.isSome then s.illOp w
      else if solo then (if slot != 0 || rm1 != 0 || cm1 != 0 then s.illOp w else go t 0 [s.cur])
      else match s.me.groupSlot slot with
        | none => s.illOp w
        | some e =>
          let ms := (s.group e).members
          if 4 < cm1 || ms.length != (rm1 + 1) * (cm1 + 1) || (ms.map coreOf).eraseDups.length != ms.length then s.illOp w
          else go t e ms)

/-! ### The queue of matrix operations -/

/-- The matrix operation that an operation is. -/
def OpKind.mat? : OpKind → Option MatOp
  | .mat m => some m
  | _ => none

/-- Whether a job is a group operation (21 R316). -/
def MatJob.group : MatJob → Bool
  | .mwload .. => true
  | .mma .. => true
  | _ => false

/-- The accumulator buffer that a job names. -/
def MatJob.buffer : MatJob → Option Bool
  | .mma a .. => some a
  | .maccz a => some a
  | .maccst a .. => some a
  | .maccld a .. => some a
  | _ => none

/-- The weight slots that a job writes, and those it reads: first and count. -/
def MatJob.slots : MatJob → Option (Bool × Nat × Nat)
  | .mwload _ _ _ _ first n _ _ => some (true, first, n)
  | .mma _ n first _ _ => some (false, first, n)
  | _ => none

/-- The A tile extent of a job, and whether it writes it. -/
def MatJob.tile (t : Tag) : MatJob → Option (Bool × Nat × Nat)
  | .mma _ n _ _ (some a) => some (false, a, n * panelStride t)
  | .maload _ _ _ _ _ dst n _ _ => some (true, dst, n * panelStride t)
  | _ => none

/-- Whether two jobs of a plane conflict (21 R319). -/
def MatJob.conflicts (t : Tag) (a b : MatJob) : Bool :=
  (a.buffer.isSome && a.buffer == b.buffer) ||
  (match a.slots, b.slots with
   | some (w, i, n), some (v, j, m) => (w || v) && groupsMeet i n j m
   | _, _ => false) ||
  (match a.tile t, b.tile t with
   | some (w, i, n), some (v, j, m) => (w || v) && groupsMeet i n j m
   | _, _ => false) ||
  (a.group && b.group)

/-- Whether every earlier operation of plane p that conflicts with one has completed (21 R319). -/
def State.matReady (s : State) (o : AOp) (m : MatOp) : Bool :=
  match (s.plane o.plane).mx with
  | none => false
  | some b => (s.opsBefore o.plane o.n o.seq).all fun x =>
      match x.kind.mat? with
      | some y => !(y.job.conflicts b.tag m.job)
      | none => true

/-- Matrix operations of plane p that have not completed. -/
def State.matOps (s : State) (p : PlaneId) : List (AOp × MatOp) :=
  s.ops.filterMap fun o => if o.plane == p then o.kind.mat?.map fun m => (o, m) else none

/-- The issue of a matrix operation whose checks have passed: the walks, the queue of eight, the sequence number, and for a group
operation its ordinal (21 R316, R319, R320); `fin` is what the instruction does besides. -/
def matIssueThen (w : IWord) (n : TReg) (walks : List (Except MemErr (List XFrame))) (job : MatJob) (fin : State → State) (s : State) : State :=
  match joinWalks walks with
  | .error e => s.memTrap e
  | .ok xl =>
    if !s.canIssue n 1 then s.illOp w
    else if 8 ≤ (s.matOps s.cur).length || !s.releaseReady then s
    else match s.me.mx with
      | none => s
      | some b =>
        let ord := if job.group then b.ord + 1 else 0
        ((s.modMe fun p => { p with mx := some { b with ord := if job.group then ord else b.ord } }).issueOp n (.mat ⟨job, xl, ord, none, 0⟩) |> fin).advance 4

/-- The issue of a matrix operation that does nothing besides. -/
def matIssue (w : IWord) (n : TReg) (walks : List (Except MemErr (List XFrame))) (job : MatJob) (s : State) : State :=
  matIssueThen w n walks job id s

/-- An instruction that needs the plane's binding (21 R320). -/
def withBinding (w : IWord) (s : State) (k : Binding → State) : State :=
  match s.me.mx with
  | none => s.illOp w
  | some b => k b

/-- MWLOAD (21 R322). -/
def execMwload (a : XReg) (n : TReg) (s : State) : Out :=
  let w := matrixWord 0 a 0 1 (0#2 ++ n)
  .next (withBinding w s fun b =>
    if (s.getX a).toNat % 8 != 0 then s.illOp w
    else match s.readBytes (s.getX a) 64 with
      | .error e => s.memTrap e
      | .ok (bs, s') =>
        let q4 := b.tag == .q4
        let base := fieldAt bs 0 8
        let npitch := patternInt true 64 (fieldAt bs 8 8)
        let sbase := fieldAt bs 16 8
        let spitch := patternInt true 64 (fieldAt bs 24 8)
        let first := fieldAt bs 0x20 1
        let npanel := fieldAt bs 0x21 1
        let ncols := fieldAt bs 0x22 2
        let klen := fieldAt bs 0x24 4
        if (!q4 && (sbase != 0 || spitch != 0)) || 7 < first || npanel < 1 || 8 < first + npanel || ncols < 1 || 128 < ncols || klen < 1 ||
            npanel * panelDepth b.tag < klen || (q4 && klen % 32 != 0) || !zeroAt bs 0x28 24 then s.illOp w
        else
          let cols := if b.i == 0 then List.range ncols else []
          let walks := cols.map fun (c : Nat) => s'.walkRange s'.myAgent .read (addrPlus base (c * npitch)) (matBytes b.tag klen)
          let scales := if q4 then cols.map fun (c : Nat) => s'.walkRange s'.myAgent .read (addrPlus sbase (c * spitch)) (klen / 32) else []
          matIssue w n (walks ++ scales) (.mwload base npitch sbase spitch first npanel ncols klen) s')

/-- MMA (21 R323); the reserved bits of its control word are ignored (00 R5). -/
def execMma (a b : XReg) (c : Bool) (n : TReg) (s : State) : Out :=
  let w := matrixWord 0 a b 2 (0#1 ++ BitVec.ofBool c ++ n)
  let x := (s.getX b).toNat
  let kcount := x / 2 ^ 12 % 8 + 1
  let first := x / 256 % 8
  let mrows := x % 128
  let ta := (s.getX a).toNat
  .next (withBinding w s fun bd =>
    if 8 < first + kcount || mrows < 1 || 96 < mrows then s.illOp w
    else if bd.j != 0 then matIssue w n [] (.mma c kcount first mrows none) s
    else if ta < 2 ^ 63 || ta % 256 != 0 then s.illOp w
    else match s.quotaFault? ta (kcount * panelStride bd.tag) with
      | some e => s.memTrap e
      | none => matIssue w n [s.walkRange s.myAgent .read ta (kcount * panelStride bd.tag)] (.mma c kcount first mrows (some ta)) s)

/-- MACCZ (21 R325). -/
def execMaccz (c : Bool) (n : TReg) (s : State) : Out :=
  let w := matrixWord 0 0 0 3 (0#1 ++ BitVec.ofBool c ++ n)
  .next (withBinding w s fun _ => matIssue w n [] (.maccz c) s)

/-- The fields of an accumulator layout word: rows, tag, pitch (21 Table 21-8); its reserved bits are ignored (00 R5). -/
def layoutWord? (x : Nat) : Option (Nat × Tag × Nat) :=
  let rows := x / 2 ^ 56 % 128
  let t : Option Tag := match x / 2 ^ 48 % 32 with
    | 0x0A => some .fp32 | 0x0B => some .bf16 | 0x0C => some .fp16 | 0x0D => some .e4m3 | 0x0E => some .e5m2 | _ => none
  match t with
  | none => none
  | some t => if rows < 1 || 96 < rows then none else some (rows, t, x % 2 ^ 40)

/-- MACCST (21 R326). -/
def execMaccst (a b : XReg) (c : Bool) (n : TReg) (s : State) : Out :=
  let w := matrixWord 0 a b 4 (0#1 ++ BitVec.ofBool c ++ n)
  let dst := (s.getX a).toNat
  .next (withBinding w s fun _ =>
    match layoutWord? (s.getX b).toNat with
    | none => s.illOp w
    | some (rows, t, pitch) =>
      let walks := (List.range rows).map fun m => s.walkRange s.myAgent .write ((dst + m * pitch) % 2 ^ 64) (128 * tagBytes t)
      match dynMode? s.me.rm with
      | none => if t == .fp32 then matIssue w n walks (.maccst c dst rows t pitch .rne s.me.sat) s else s.illInsn w
      | some rm => matIssue w n walks (.maccst c dst rows t pitch rm s.me.sat) s)

/-- MACCLD (21 R326). -/
def execMaccld (a b : XReg) (c : Bool) (n : TReg) (s : State) : Out :=
  let w := matrixWord 0 a b 5 (0#1 ++ BitVec.ofBool c ++ n)
  let src := (s.getX a).toNat
  .next (withBinding w s fun _ =>
    match layoutWord? (s.getX b).toNat with
    | none => s.illOp w
    | some (rows, t, pitch) =>
      if t != .fp32 && t != .bf16 then s.illOp w
      else matIssue w n ((List.range rows).map fun m => s.walkRange s.myAgent .read ((src + m * pitch) % 2 ^ 64) (128 * tagBytes t))
        (.maccld c src rows t pitch) s)

/-- The extents of row m of the source of a MALOAD: first address and bytes (21 R327). -/
def matRow (t : Tag) (col : Bool) (src : Nat) (pitch : Int) (ssrc : Nat) (spitch : Int) (klen m : Nat) : List (Nat × Nat) :=
  let es := tagBytes t
  (if col then (List.range klen).map fun (k : Nat) => (addrPlus src (k * pitch + (m * es : Nat)), es)
   else [(addrPlus src (m * pitch), matBytes t klen)]) ++ (if t == .q4 then [(addrPlus ssrc (m * spitch), klen / 32)] else [])

/-- The rows of a MALOAD that have no faulting address, from row m, n at most, with their translations (21 R327). -/
def State.grantRows (s : State) (row : Nat → List (Nat × Nat)) : (n m : Nat) → Nat × List XFrame × Option MemErr
  | 0, m => (m, [], none)
  | n + 1, m =>
    match joinWalks ((row m).map fun e => s.walkRange s.myAgent .read e.1 e.2) with
    | .error e => (m, [], some e)
    | .ok xl => let r := s.grantRows row n (m + 1); (r.1, xl ++ r.2.1, r.2.2)

/-- MALOAD (21 R327). -/
def execMaload (d a b : XReg) (k f : Bool) (n : TReg) (s : State) : Out :=
  let w := matrixWord d a b 6 (BitVec.ofBool k ++ BitVec.ofBool f ++ n)
  let rows := (s.getX b).toNat
  .next (withBinding w s fun bd =>
    if (s.getX a).toNat % 8 != 0 then s.illOp w
    else match s.readBytes (s.getX a) 64 with
      | .error e => s.memTrap e
      | .ok (bs, s') =>
        let q4 := bd.tag == .q4
        let src := fieldAt bs 0 8
        let pitch := patternInt true 64 (fieldAt bs 8 8)
        let ssrc := fieldAt bs 16 8
        let spitch := patternInt true 64 (fieldAt bs 24 8)
        let dst := fieldAt bs 0x20 8
        let npanel := fieldAt bs 0x28 1
        let klen := fieldAt bs 0x2C 4
        let size := npanel * panelStride bd.tag
        if rows < 1 || 96 < rows || (k && q4) || (!q4 && (ssrc != 0 || spitch != 0)) || dst < 2 ^ 63 || dst % 256 != 0 || s'.me.qsize * 65536 < dst % 2 ^ 63 + size || npanel < 1 ||
            8 < npanel || klen < 1 || npanel * panelDepth bd.tag < klen || (q4 && klen % 32 != 0) || !zeroAt bs 0x29 3 || !zeroAt bs 0x30 16
        then s.illOp w
        else
          let g := s'.grantRows (matRow bd.tag k src pitch ssrc spitch klen) rows 0
          let issue := matIssueThen w n [.ok g.2.1, s'.walkRange s'.myAgent .write dst size]
            (.maload k src pitch ssrc spitch dst npanel klen g.1) (fun s => s.setX d (BitVec.ofNat 64 g.1)) s'
          match g.2.2 with
          | some e => if !f || g.1 == 0 then s.memTrap e else issue
          | none => issue)

/-! ### What operations do -/

/-- A list of rows with its first `rows.length` replaced. -/
def replaceRows (old rows : List (List Nat)) : List (List Nat) := rows ++ old.drop rows.length

/-- A binding's buffer. -/
def Binding.acc (b : Binding) (a1 : Bool) : List (List Nat) := if a1 then b.acc1 else b.acc0
/-- A binding's buffer replaced. -/
def Binding.setAcc (b : Binding) (a1 : Bool) (v : List (List Nat)) : Binding := if a1 then { b with acc1 := v } else { b with acc0 := v }
/-- Whether a row of a buffer below `rows` has a poisoned granule (27 R399). -/
def Binding.accPoisoned (b : Binding) (a1 : Bool) (rows : Nat) : Bool := b.bad.any fun x => x.1 == a1 && decide (x.2.1 < rows)
/-- The rows of a buffer below `rows` written whole: they are poisoned no more (27 R400). -/
def Binding.cleaned (b : Binding) (a1 : Bool) (rows : Nat) : Binding := { b with bad := b.bad.filter fun x => !(x.1 == a1 && decide (x.2.1 < rows)) }
/-- The binding of plane p changed. -/
def State.modBinding (s : State) (p : PlaneId) (f : Binding → Binding) : State := s.modPlane p fun pl => { pl with mx := pl.mx.map f }

/-- The 256-byte blocks of an A tile, in order, from the elements and scales of its rows (21 Table 21-3). -/
def tileBytes (t : Tag) (npanel : Nat) (rows : List (List Nat)) : List Byte :=
  let kp := panelDepth t
  let ks := rowDepth t
  let el (m k : Nat) : Nat := ((rows[m]?).bind (·[k]?)).getD 0
  let slice (m p r : Nat) : List Byte :=
    let xs := (List.range ks).map fun i => el m (p * kp + r * ks + i)
    match t with
    | .q4 => (List.range 16).map fun i => BitVec.ofNat 8 ((xs[2 * i]?).getD 0 % 16 + (xs[2 * i + 1]?).getD 0 % 16 * 16)
    | .bf16 => xs.flatMap (leBytes 2)
    | _ => xs.flatMap (leBytes 1)
  (List.range npanel).flatMap fun p =>
    ((List.range 6).flatMap fun r => (List.range 96).flatMap fun m => slice m p r) ++
    (if t == .q4 then
      ((List.range 6).flatMap fun r => (List.range 96).map fun m => BitVec.ofNat 8 (el m (p * kp + r * ks) / 16)) ++ List.replicate 192 0
     else [])

/-- The elements of row m of an A tile of `n` panels (21 Table 21-3). -/
def tileRow (t : Tag) (n : Nat) (bs : List Byte) (m : Nat) : List Nat :=
  (List.range n).flatMap fun p => (List.range 6).flatMap fun r =>
    matElems t (rowDepth t) ((bs.drop (p * panelStride t + 256 * (6 * r + m / 16) + 16 * (m % 16))).take 16)
      ((bs.drop (p * panelStride t + 9216 + 96 * r + m)).take 1)

/-- Rows read for a MALOAD: their elements, zero beyond KLEN. -/
def State.readRows (s : State) (xl : List XFrame) (t : Tag) (col : Bool) (klen width : Nat) (row : Nat → List (Nat × Nat)) :
    List Nat → Option (List (List Nat) × State)
  | [] => some ([], s)
  | m :: rest =>
    match s.unitReads xl ((row m).map fun e => ringAddrs e.1 e.2) with
    | none => none
    | some (bss, s) =>
      let q4 := t == .q4
      let data := if q4 then (bss.headD []) else if col then bss.flatten else bss.headD []
      match s.readRows xl t col klen width row rest with
      | none => none
      | some (rs, s) => some (padTo width (matElems t klen data (if q4 then bss.getLastD [] else [])) :: rs, s)

/-- A row of a buffer converted to memory (21 R326). -/
def storeRow (t : Tag) (rm : RMode) (sat : Bool) (row : List Nat) : List Byte × Flags :=
  let xs := row.map fun x => if t == .fp32 then (x, flNone) else elConvert 3 rm sat .fp32 t x
  (xs.flatMap fun x => leBytes (tagBytes t) x.1, xs.foldl (fun a x => a ||| x.2) flNone)

/-- Rows of a buffer written to memory; none where a write fails. -/
def State.storeRows (s : State) (xl : List XFrame) (dst pitch : Nat) : Nat → List (List Byte) → Option State
  | _, [] => some s
  | m, bs :: rest =>
    match s.unitWrite xl (ringAddrs (dst + m * pitch) bs.length) bs with
    | none => none
    | some s => s.storeRows xl dst pitch (m + 1) rest

/-- A member-local operation performed on plane p: its status, its flags, and the state (21 R320, R325 to R327). One that reads a poisoned
granule of a buffer ends with status MEMERR (27 R400). -/
def State.matLocal (s : State) (p : PlaneId) (b : Binding) (m : MatOp) : Nat × Flags × State :=
  match m.job with
  | .maccz a1 => (0, flNone, s.modBinding p fun b => (b.setAcc a1 (List.replicate 96 (List.replicate 128 0))).cleaned a1 96)
  | .maccst a1 dst rows t pitch rm sat =>
    let rs := ((b.acc a1).take rows).map (storeRow t rm sat)
    let fl := rs.foldl (fun a r => a ||| r.2) flNone
    if b.accPoisoned a1 rows then (3, flNone, s)
    else match s.storeRows m.xl dst pitch 0 (rs.map (·.1)) with
    | some s => (0, fl, s)
    | none => (3, fl, s)
  | .maccld a1 src rows t pitch =>
    match s.unitReads m.xl ((List.range rows).map fun r => ringAddrs (src + r * pitch) (128 * tagBytes t)) with
    | none => (3, flNone, s)
    | some (bss, s) =>
      let rs := bss.map fun bs => (unitsOf (tagBytes t) 128 bs).map fun x => if t == .fp32 then (x, flNone) else elConvert 3 .rne false t .fp32 x
      (0, rs.foldl (fun a r => r.foldl (fun a x => a ||| x.2) a) flNone,
        s.modBinding p fun b => (b.setAcc a1 (replaceRows (b.acc a1) (rs.map fun r => r.map (·.1)))).cleaned a1 rows)
  | .maload col src pitch ssrc spitch dst npanel klen granted =>
    match s.readRows m.xl b.tag col klen (npanel * panelDepth b.tag) (matRow b.tag col src pitch ssrc spitch klen) (List.range granted) with
    | none => (3, flNone, s)
    | some (rows, s) =>
      let bs := tileBytes b.tag npanel rows
      let as := ringAddrs dst bs.length
      match s.unitWrite m.xl as bs, s.heldPlaces m.xl as with
      | some s, some ps => (0, flNone, s.zeroBlocks ps bs)
      | _, _ => (3, flNone, s)
  | _ => (0, flNone, s)

/-- The weights that a weight source reads for its column: 128 columns of NPANEL × Kp elements (21 R318). -/
def State.weights (s : State) (t : Tag) (m : MatOp) : Option (List (List Nat) × State) :=
  match m.job with
  | .mwload base npitch sbase spitch _ npanel ncols klen =>
    let row (c : Nat) : List (Nat × Nat) :=
      (addrPlus base (c * npitch), matBytes t klen) :: (if t == .q4 then [(addrPlus sbase (c * spitch), klen / 32)] else [])
    match s.readRows m.xl t false klen (npanel * panelDepth t) row (List.range ncols) with
    | none => none
    | some (cols, s) => some (cols ++ List.replicate (128 - ncols) (List.replicate (npanel * panelDepth t) 0), s)
  | _ => none

/-- Columns split into panels of depth kp, panel p. -/
def panelOf (kp p : Nat) (cols : List (List Nat)) : List (List Nat) := cols.map fun c => (c.drop (p * kp)).take kp

/-- One element of an MMA: the old value plus the products, in unspecified order, zero being +0 (21 R323, 03 R36). -/
def mmaElem (t : Tag) (free old : Nat) (xs ys : List Nat) : Nat × Flags :=
  let v := Fp.fp32.value old
  let prods := (xs.zip ys).map fun z => fpMul (matValue t z.1) (matValue t z.2)
  let r := sumFree .fp32 free ((v.toRV, nvOf [v]) :: prods)
  (if r.1 == 2 ^ 31 then 0 else r.1, r.2)

/-- The effect of an MMA on a member's buffer: rows below MROWS (21 R323). -/
def Binding.mma (b : Binding) (free : Nat) (a1 : Bool) (kcount first : Nat) (rows : List (List Nat)) : Binding × Flags :=
  let col (n : Nat) : List Nat := (List.range kcount).flatMap fun p => ((b.slots[first + p]?).bind (·[n]?)).getD []
  let cols := (List.range 128).map col
  let new := (rows.zip (b.acc a1)).mapIdx fun m x => (x.2.zip cols).mapIdx fun n y => mmaElem b.tag (free + 128 * m + n) y.1 x.1 y.2
  (b.setAcc a1 (replaceRows (b.acc a1) (new.map fun r => r.map (·.1))), new.foldl (fun a r => r.foldl (fun a x => a ||| x.2) a) flNone)

/-- The group operation of ordinal `ord` that plane p has issued and that has not started. -/
def State.groupOp (s : State) (p : PlaneId) (ord : Nat) : Option (AOp × MatOp) :=
  (s.matOps p).find? fun x => x.2.job.group && x.2.ord == ord && x.2.st.isNone

/-- The fields of a group operation that members must agree on (21 R316). -/
def sharedFields (b : Binding) : MatJob → List Nat
  | .mwload _ _ _ _ first npanel _ klen => [0, b2n b.solo, b.entry, b.rm1, b.cm1, b.tag.code.toNat, first, npanel, klen]
  | .mma a1 kcount first mrows _ => [1, b2n b.solo, b.entry, b.rm1, b.cm1, b.tag.code.toNat, b2n a1, kcount, first, mrows]
  | _ => []

/-- A matrix operation's work is done with a status and flags; it has still to complete. -/
def State.matDone (s : State) (o : AOp) (m : MatOp) (st : Nat) (fl : Flags) : State :=
  s.modOp o.plane o.n o.seq fun _ => .mat { m with st := some st, fl := fl }

/-- The effect of a matched group operation on one member (21 R315, R322, R323). -/
def State.groupMember (members : List PlaneId) (x : PlaneId × AOp × MatOp) (ord : Nat) (s : State) : State :=
  match (s.plane x.1).mx with
  | none => s
  | some b =>
    let src := match x.2.2.job with | .mwload .. => members[b.j]? | _ => members[b.i * (b.cm1 + 1)]?
    match src.bind fun q => (s.matOps q).find? fun y => y.2.job.group && y.2.ord == ord with
    | none => s
    | some (_, sm) =>
      match x.2.2.job, sm.job with
      | .mwload _ _ _ _ first npanel _ _, _ =>
        match s.weights b.tag sm with
        | none => s.matDone x.2.1 x.2.2 3 flNone
        | some (cols, s) =>
          let new := (List.range 8).map fun k =>
            if first ≤ k && k < first + npanel then panelOf (panelDepth b.tag) (k - first) cols else (b.slots[k]?).getD []
          (s.modBinding x.1 fun b => { b with slots := new }).matDone x.2.1 x.2.2 0 flNone
      | .mma a1 kcount first mrows _, .mma _ _ _ _ (some ta) =>
        if b.accPoisoned a1 mrows then s.matDone x.2.1 x.2.2 3 flNone
        else match s.engineRead sm.xl (ringAddrs ta (kcount * panelStride b.tag)) with
        | none => s.matDone x.2.1 x.2.2 3 flNone
        | some (bs, s) =>
          let r := b.mma s.free a1 kcount first ((List.range mrows).map (tileRow b.tag kcount bs))
          let s : State := { s with free := s.free + 96 * 128 }
          (s.modBinding x.1 fun _ => r.1).matDone x.2.1 x.2.2 0 r.2
      | _, _ => s

/-- Event MATRIX_GROUP_START: the next group operation of plane p starts once every member has issued its own of that ordinal and
none waits for an earlier operation; members that disagree take MISMATCH and nothing changes (21 R316). The stations work for a member only
while it holds its core's slot (05 R59). -/
def execMatrixGroupStart (p : PlaneId) (s : State) : Out :=
  .next (match (s.plane p).mx, (s.matOps p).find? fun x => x.2.job.group && x.2.st.isNone with
    | some b, some (_, m) =>
      let members := s.matMembers p b
      match members.mapM fun q => (s.groupOp q m.ord).map fun x => (q, x) with
      | none => s
      | some xs =>
        if !(xs.all fun x => s.holdsSlot x.1 && s.matReady x.2.1 x.2.2) then s
        else
          let keys := xs.map fun x => ((s.plane x.1).mx.map fun b => sharedFields b x.2.2.job).getD []
          if keys.all (· == sharedFields b m.job) then xs.foldl (fun s x => s.groupMember members x m.ord) s
          else xs.foldl (fun s x => s.matDone x.2.1 x.2.2 1 flNone) s
    | _, _ => s)

/-- Event MATRIX_OP_COMPLETE: a member-local operation that waits for no other does its work, and it, or a group operation whose
work is done, records its status and flags and completes (21 R319, R320). -/
def execMatrixOpComplete (p : PlaneId) (n : TReg) (seq : Nat) (s : State) : Out :=
  let finish (st : Nat) (fl : Flags) (s : State) : State :=
    (s.modPlane p fun pl => { pl.orFlags fl with mxLast := some st }).completeOp p n seq
  .next (match s.op? p n seq with
    | none => s
    | some o => match o.kind with
      | .mat m =>
        if !s.holdsSlot p then s
        else match m.st with
          | some st => finish st m.fl s
          | none =>
            if m.job.group || !s.matReady o m then s
            else match (s.plane p).mx with
              | none => s
              | some b => let r := s.matLocal p b m; finish r.1 r.2.1 r.2.2
      | _ => s)

/-- Plane p gives up its binding: the unmatched group operations that its partners hold take UNBOUND. Those they issue later wait (21 R314,
R316). -/
def State.unbind (s : State) (p : PlaneId) : State :=
  match (s.plane p).mx with
  | none => s
  | some b =>
    let partners := (s.matMembers p b).filter (· != p)
    let s := partners.foldl (fun s q =>
      let paired := match (s.plane q).mx with | some c => !c.solo && !b.solo && c.entry == b.entry | none => false
      if paired then
        ((s.matOps q).filter fun x => x.2.job.group && x.2.st.isNone).foldl (fun s x => s.matDone x.1 x.2 2 flNone) s
      else s) s
    s.modPlane p fun pl => { pl with mx := none }

/-- MGRP.REL (21 R314). -/
def execMgrpRel (s : State) : Out :=
  .next (if !(s.matOps s.cur).isEmpty then s.stallOn .mgrpRel else (s.unbind s.cur).advance 4)

/-- Event MGRP_RELEASE_DONE: an MGRP.REL that waits on plane p releases the binding, where it may (21 R314). -/
def execMgrpReleaseDone (p : PlaneId) (s : State) : Out :=
  .next (match s.waitOf p with
    | some .mgrpRel => if (s.matOps p).isEmpty then s.asPlane p fun s => (s.unbind s.cur).advance 4 else s
    | _ => s)

/-- MSTAT (21 R328). -/
def execMstat (d : XReg) (s : State) : Out :=
  let last := (s.me.mxLast.getD 0) * 2 ^ 48
  .next (s.retX d (BitVec.ofNat 64 (match s.me.mx with
    | none => last
    | some b => 2 ^ 63 + last + (s.matOps s.cur).length * 2 ^ 40 + b.tag.code.toNat * 2 ^ 32 + b.entry * 2 ^ 24 + b.cm1 * 2 ^ 20 + b.rm1 * 2 ^ 16 +
        b.j * 2 ^ 8 + b.i)) 4)

end Sys2Proof.Machine
end

