-- ==== Sys2Proof/Machine/Graph.lean ====
section
/-! DEFINITION. Adder graphs, major 0x32 (21 R329 to R333). -/
namespace Sys2Proof.Machine

/-- A word of major 0x32. -/
def graphWord (d a b : XReg) (fn : BitVec 5) (mod : BitVec 6) : IWord := packR 50#6 d a b fn mod

/-- Whether a source id names an input or a node below n (21 Table 21-12). -/
def sourceOk (nin n x : Nat) : Bool := x < nin || (0x4000 ≤ x && x < 0x4000 + n)

/-- A node record with its station; none where it breaks 21 Table 21-12. -/
def gNode? (nin nstn k : Nat) (bs : List Byte) : Option (GNode × Nat) :=
  let f (o n : Nat) : Nat := fieldAt bs o n
  if !sourceOk nin k (f 0 2) || !sourceOk nin k (f 2 2) || 31 < f 4 1 || 31 < f 5 1 || 3 < f 6 1 || nstn ≤ f 7 1 then none
  else some (⟨f 0 2, f 2 2, f 4 1, f 5 1, f 6 1 % 2 == 1, f 6 1 / 2 == 1⟩, f 7 1)

/-- An output record; none where it breaks 21 Table 21-13. -/
def gOut? (nin nnode : Nat) (bs : List Byte) : Option (Nat × Bool) :=
  let x := fieldAt bs 0 2
  if !(sourceOk nin nnode x || x == 0xFFFF) || 1 < fieldAt bs 2 1 || !zeroAt bs 3 1 then none else some (x, fieldAt bs 2 1 == 1)

/-- SIZE, WIDTH and NSTN of a graph image from its header; none where it breaks 21 Table 21-11. -/
def graphHeader (h : List Byte) : Option (Nat × Nat × Nat) :=
  let ty := fieldAt h 2 1
  let nin := fieldAt h 4 2
  let nout := fieldAt h 6 2
  let nnode := fieldAt h 8 2
  let nstn := fieldAt h 10 1
  let size := fieldAt h 12 4
  if fieldAt h 0 2 != 1 || (ty != 1 && ty != 3 && ty != 5) || fieldAt h 3 1 == 0 || nin < 1 || 256 < nin || nout < 1 || 256 < nout ||
      nnode < 1 || 12288 < nnode || nstn < 1 || 48 < nstn || fieldAt h 11 1 != 0 || !zeroAt h 16 48 ||
      size != (64 + 8 * nnode + 4 * nout + 7) / 8 * 8 then none
  else some (size, fieldAt h 3 1, nstn)

/-- The graph in an image whose header is good, with the stations of its nodes; none where it breaks 21 R331. -/
def graphOf (bs : List Byte) : Option (Graph × List Nat) :=
  let ty := fieldAt bs 2 1
  let nin := fieldAt bs 4 2
  let nout := fieldAt bs 6 2
  let nnode := fieldAt bs 8 2
  let nstn := fieldAt bs 10 1
  let o := 64 + 8 * nnode
  match (List.range nnode).mapM fun k => gNode? nin nstn k ((bs.drop (64 + 8 * k)).take 8) with
  | none => none
  | some ns => match (List.range nout).mapM fun k => gOut? nin nnode ((bs.drop (o + 4 * k)).take 4) with
    | none => none
    | some os =>
      if !zeroAt bs (o + 4 * nout) 7 then none
      else some (⟨if ty == 1 then 1 else if ty == 3 then 2 else 4, nin, ns.map (·.1), os⟩, ns.map (·.2))

/-- The stations whose configuration plane for plane p no stream image and no matrix binding holds, ascending (21 R331). -/
def State.freeStations (s : State) (p : PlaneId) : List Nat :=
  if (s.plane p).mx.isSome then []
  else (List.range 48).filter fun t => !((s.imagesOf p).any fun m => (m.bytesIn t).isSome)

/-- Whether an operation is a GLOAD or a graph run. -/
def OpKind.isGraph : OpKind → Bool
  | .gload _ _ => true
  | .grun _ => true
  | _ => false
/-- Graph runs of plane p that have not completed, oldest first. -/
def State.graphRuns (s : State) (p : PlaneId) : List GraphRun :=
  s.ops.filterMap fun o => if o.plane == p then (match o.kind with | .grun r => some r | _ => none) else none

/-- GLOAD (21 R331). -/
def execGload (a : XReg) (n : TReg) (s : State) : Out :=
  let w := graphWord 0 a 0 0 (0#2 ++ n)
  let xa := s.getX a
  .next (
    if xa.toNat % 8 != 0 then s.illOp w
    else match s.readBytes xa 64 with
      | .error e => s.memTrap e
      | .ok (h, _) => match graphHeader h with
        | none => s.illOp w
        | some (size, width, nstn) => match s.readBytes xa size with
          | .error e => s.memTrap e
          | .ok (bs, s') => match graphOf bs with
            | none => s.illOp w
            | some (g, stns) =>
              let free := s'.freeStations s'.cur
              if 32 < width || (List.range nstn).any (fun t => decide (256 < (stns.filter (· == t)).length)) || free.length < nstn then
                s.trap causeCapacity (w.zeroExtend 64)
              else if !s'.canIssue n 1 then s.illOp w
              else if !s'.releaseReady then s
              else (s'.issueOp n (.gload g (free.take nstn))).advance 4)

/-- Event GLOAD_INSTALL: the plane's oldest GLOAD installs its graph once the graph work before it has completed (21 R331). -/
def execGloadInstall (p : PlaneId) (s : State) : Out :=
  .next (match s.ops.find? fun o => o.plane == p && o.kind.isGraph with
    | some o => match o.kind with
      | .gload g stns => (s.modPlane p fun pl => { pl with graph := some (g, stns) }).completeOp p o.n o.seq
      | _ => s
    | none => s)

/-- GRUN (21 R332). -/
def execGrun (d a b : XReg) (n : TReg) (s : State) : Out :=
  let w := graphWord d a b 1 (0#2 ++ n)
  let v := (s.getX d).toNat
  let src := (s.getX a).toNat
  let dst := (s.getX b).toNat
  .next (match s.me.graph with
    | none => s.illOp w
    | some (g, _) =>
      let ni := v * g.nin * g.isize
      let no := v * 4 * g.outs.length
      if v < 1 || 2 ^ 32 < v || groupsMeet src ni dst no then s.illOp w
      else match joinWalks [s.walkRange s.myAgent .read src ni, s.walkRange s.myAgent .write dst no] with
        | .error e => s.memTrap e
        | .ok xl =>
          if !s.canIssue n 1 then s.illOp w
          else if 4 ≤ (s.graphRuns s.cur).length || !s.releaseReady then s
          else (s.issueOp n (.grun ⟨g, src, dst, v, xl, 0, false⟩)).advance 4)

/-- A 32-bit two's complement value (21 R330). -/
def wrap32 (v : Int) : Int := patternInt true 32 (intPattern 32 v)

/-- The values of the nodes in order, after those already known (21 R330). -/
def graphNodes (x : List Int) : List GNode → List Int → List Int
  | [], vals => vals
  | n :: rest, vals =>
    let val (k : Nat) : Int := if k < 0x4000 then (x[k]?).getD 0 else (vals[k - 0x4000]?).getD 0
    let u := val n.srca * (2 ^ n.sha : Nat)
    let v := val n.srcb * (2 ^ n.shb : Nat)
    graphNodes x rest (vals ++ [wrap32 ((if n.nega then -u else u) + (if n.negb then -v else v))])

/-- The outputs of a graph for one input vector (21 R330). -/
def Graph.eval (g : Graph) (x : List Int) : List Int :=
  let vals := graphNodes x g.nodes []
  g.outs.map fun o =>
    let v : Int := if o.1 == 0xFFFF then 0 else if o.1 < 0x4000 then (x[o.1]?).getD 0 else (vals[o.1 - 0x4000]?).getD 0
    wrap32 (if o.2 then -v else v)

/-- A graph run takes up to k vectors more (21 R332). -/
def State.graphSteps (s : State) : Nat → GraphRun → State × GraphRun
  | 0, r => (s, r)
  | k + 1, r =>
    if r.bad || r.count ≤ r.done then (s, r)
    else
      let g := r.graph
      let ib := g.nin * g.isize
      let ob := 4 * g.outs.length
      match s.engineRead r.xl (ringAddrs (r.src + r.done * ib) ib) with
      | none => (s, { r with bad := true })
      | some (bs, s) =>
        let y := g.eval ((unitsOf g.isize g.nin bs).map (patternInt true (8 * g.isize)))
        match s.unitWrite r.xl (ringAddrs (r.dst + r.done * ob) ob) (y.flatMap fun v => leBytes 4 (intPattern 32 v)) with
        | none => (s, { r with bad := true })
        | some s => s.graphSteps k { r with done := r.done + 1 }

/-- Event GRAPH_RUN_COMPLETE: a graph run takes up to k vectors, and completes after its last or at an error (21 R332). -/
def execGraphRunComplete (p : PlaneId) (n : TReg) (seq k : Nat) (s : State) : Out :=
  .next (match s.op? p n seq with
    | none => s
    | some o => match o.kind with
      | .grun r =>
        if !s.holdsSlot p then s
        else
          let y := s.graphSteps k r
          if y.2.bad || y.2.count ≤ y.2.done then
            (y.1.modPlane p fun pl => { pl with grLast := if y.2.bad then 3 else 0 }).completeOp p n seq
          else y.1.modOp p n seq fun _ => .grun y.2
      | _ => s)

/-- GSTAT (21 R333). -/
def execGstat (d : XReg) (s : State) : Out :=
  let rs := s.graphRuns s.cur
  let done := match rs with | r :: _ => r.done % 2 ^ 32 | [] => 0
  .next (s.retX d (BitVec.ofNat 64 (b2n s.me.graph.isSome * 2 ^ 63 + s.me.grLast * 2 ^ 48 + rs.length * 2 ^ 32 + done)) 4)

/-- Whether plane p has a GLOAD or a graph run that has not completed. -/
def State.graphBusy (s : State) (p : PlaneId) : Bool := s.ops.any fun o => o.plane == p && o.kind.isGraph

/-- GFREE (21 R333). -/
def execGfree (s : State) : Out :=
  .next (if s.graphBusy s.cur then s.stallOn .gfree else (s.modMe fun p => { p with graph := none }).advance 4)

/-- Event GRAPH_RELEASE: a GFREE that waits on plane p releases the graph, where it may (21 R333). -/
def execGraphRelease (p : PlaneId) (s : State) : Out :=
  .next (match s.waitOf p with
    | some .gfree => if s.graphBusy p then s else s.asPlane p fun s => (s.modMe fun p => { p with graph := none }).advance 4
    | _ => s)

end Sys2Proof.Machine
end

