-- ==== Sys2Proof/Machine/Coll.lean ====
section
/-! DEFINITION. Communicators, their operations and streams, major 0x34 (25 R362 to R379). -/
namespace Sys2Proof.Machine

/-- A word of major 0x34. -/
def collWord (d a b : XReg) (fn : BitVec 5) (mod : BitVec 6) : IWord := packR 52#6 d a b fn mod

/-! ### Communicators -/

/-- The part of a number. -/
def State.comm? (s : State) (num : Nat) : Option CommPart := s.comms.find? fun c => c.num == num
/-- The part of a number changed. -/
def State.modComm (s : State) (num : Nat) (f : CommPart → CommPart) : State :=
  { s with comms := s.comms.map fun c => if c.num == num then f c else c }

/-- Whether a member record is that of the strand on plane p. -/
def State.isMember (s : State) (p : PlaneId) (m : CommMember) : Bool := m.plane == p && m.coh == (s.plane p).coh
/-- The record of the strand on plane p in a part. -/
def State.member? (s : State) (p : PlaneId) (c : CommPart) : Option CommMember := c.members.find? (s.isMember p)
/-- The part of a number that the strand on plane p is a member of. -/
def State.commOf (s : State) (p : PlaneId) (num : Nat) : Option (CommPart × CommMember) :=
  match s.comm? num with
  | none => none
  | some c => match s.member? p c with
    | some m => if m.inn then some (c, m) else none
    | none => none
/-- The record of the strand on plane p changed. -/
def State.modMember (s : State) (p : PlaneId) (num : Nat) (f : CommMember → CommMember) : State :=
  s.modComm num fun c => { c with members := c.members.map fun m => if s.isMember p m then f m else m }

/-- Members of a communicator on a package: this package's group, or what the other package's group has (25 R362). -/
def CommPart.on (c : CommPart) (own k : Nat) : Nat := if k == own then c.planes.length else Config.peerMembers c.key k
/-- Members of a communicator in all packages. -/
def CommPart.size (c : CommPart) (own : Nat) : Nat := (c.pkgs.map (c.on own)).foldl (· + ·) 0
/-- Members on packages numbered below k. -/
def CommPart.below (c : CommPart) (own k : Nat) : Nat := ((c.pkgs.filter (· < k)).map (c.on own)).foldl (· + ·) 0
/-- Members on lower-numbered packages. -/
def CommPart.base (c : CommPart) (own : Nat) : Nat := c.below own own
/-- The rank of a plane of the group (25 R362). -/
def CommPart.rank (c : CommPart) (own : Nat) (p : PlaneId) : Nat := c.base own + (c.planes.findIdx? (· == p)).getD 0
/-- Whether the parts of all packages exist (25 R362). -/
def CommPart.isJoined (c : CommPart) (own : Nat) : Bool := c.pkgs.all fun k => k == own || c.joined.contains k

/-- The element types of collectives by code (25 Table 25-3). -/
def collTag? (code : Nat) : Option Tag :=
  match code with
  | 0x09 => some .fp64 | 0x0A => some .fp32 | 0x0B => some .bf16
  | 0x05 => some .s32 | 0x06 => some .z32 | 0x07 => some .s64 | 0x08 => some .z64
  | _ => none

/-- Whether the switches can reduce an operator on a type (25 R364). -/
def switchReduces (op : Nat) (t : Tag) : Bool := op ≤ 2 && t != .fp64

/-- The part that a descriptor describes, without its number, mode and place; none where it breaks 25 Table 25-1 or R369. -/
def commDesc? (bs : List Byte) : Option (Nat × Nat × CommPart) :=
  let f (o n : Nat) : Nat := fieldAt bs o n
  let fl := f 7 1
  let op := f 8 1
  let pk := f 0x10 8
  match collTag? (f 9 1) with
  | none => none
  | some t =>
    let fp := (tagFp? t).isSome
    let lc := f 6 1
    if f 0 2 != 1 || 3 < f 2 1 || 7 < f 3 1 || 7 < f 4 1 || f 5 1 < 1 || 16 < f 5 1 || !(lc == 0 || (12 ≤ lc && lc ≤ 19)) || 32 ≤ fl ||
        5 < op || (fp && 2 < op) || (fl / 8 % 2 == 1 && !fp) || f 0x0A 2 != 0 || f 0x0C 4 == 0 || !zeroAt bs 0x18 40 then none
    else some (f 2 1, fl,
      { num := 0, entry := 0, raw := bs.take 2 ++ bs.drop 3, vc := f 3 1, prio := f 4 1, weight := f 5 1,
        chunk := 2 ^ (if lc == 0 then 16 else lc), nanskip := fl / 8 % 2 == 1, cntblk := fl / 16 % 2 == 1, op := op, tag := t,
        key := f 0x0C 4, pkgs := (List.range 64).filter fun k => pk / 2 ^ k % 2 == 1, mode := false, die := 0, planes := [],
        members := [], joined := [], jobs := [], streams := [] })

/-- The mode of a new part, or the status that refuses it (25 R364). -/
def commMode (fl op : Nat) (t : Tag) : Except Nat Bool :=
  let fallback := fl / 4 % 2 == 1
  if fl % 2 == 0 then .ok false
  else if fl / 2 % 2 == 1 then (if fallback then .ok false else .error 2)
  else if switchReduces op t && fl / 8 % 2 == 0 then .ok true
  else if fallback then .ok false else .error 3

/-- Bytes that parts reserve in a virtual channel's pool of a die's engine (25 R366). -/
def State.poolUsed (s : State) (die vc : Nat) : Nat :=
  (s.comms.filter fun c => c.die == die && c.vc == vc).foldl (fun a c => a + 2 * c.chunk) 0

/-- What CCOMM writes (25 R363). -/
def ccommResult (own : Nat) (c : CommPart) (p : PlaneId) : Word :=
  BitVec.ofNat 64 (c.num * 256 + b2n c.mode * 2 ^ 16 + c.rank own p % 2 ^ 16 * 2 ^ 32)

/-- The issuing strand joins a part. -/
def CommPart.join (c : CommPart) (p : PlaneId) (coh : Nat) : CommPart :=
  if c.members.any fun m => m.plane == p && m.coh == coh then
    { c with members := c.members.map fun m => if m.plane == p && m.coh == coh then { m with inn := true } else m }
  else { c with members := c.members ++ [⟨p, coh, 0, 0, 0, true⟩] }

/-- CCOMM (25 R362, R363). -/
def execCcomm (d a : XReg) (s : State) : Out :=
  let w := collWord d a 0 0 0
  .next (
    if (s.getX a).toNat % 8 != 0 then s.illOp w
    else match s.readBytes (s.getX a) 64 with
      | .error e => s.memTrap e
      | .ok (bs, s') => match commDesc? bs with
        | none => s.illOp w
        | some (slot, fl, c0) => match s'.me.groupSlot (BitVec.ofNat 2 slot) with
          | none => s.illOp w
          | some e =>
            if !c0.pkgs.contains s'.pkg then s.illOp w
            else match s'.comms.find? fun c => c.entry == e && c.key == c0.key with
              | some c =>
                if c.raw != c0.raw then s'.retX d 4 4
                else
                  let s := s'.modComm c.num fun c => c.join s'.cur s'.me.coh
                  s.retX d (ccommResult s.pkg c s.cur) 4
              | none =>
                let planes := (s'.group e).members
                let die := if planes.any fun p => decide (p.val < 256) then 0 else 1
                match commMode fl c0.op c0.tag, (List.range 64).find? fun k => s'.comms.all fun c => c.num != k with
                | .error st, _ => s'.retX d (BitVec.ofNat 64 st) 4
                | .ok _, none => s'.retX d 1 4
                | .ok mode, some num =>
                  if 2 ^ 20 < s'.poolUsed die c0.vc + 2 * c0.chunk then s'.retX d 5 4
                  else
                    let c := { c0 with num := num, entry := e, mode := mode, die := die, planes := planes }
                    let s : State := { s' with comms := s'.comms ++ [c.join s'.cur s'.me.coh] }
                    s.retX d (ccommResult s.pkg c s.cur) 4)

/-- Event COMMUNICATOR_JOIN: the part of a package has come to exist with an equal descriptor (25 R362). -/
def execCommunicatorJoin (c pkg : Nat) (s : State) : Out :=
  .next (s.modComm c fun x => if x.pkgs.contains pkg && !x.joined.contains pkg then { x with joined := x.joined ++ [pkg] } else x)

/-! ### Operations -/

/-- The communicator that an operation of plane p is on. -/
def State.commOfOp (s : State) (o : AOp) : Option Nat :=
  match o.kind with
  | .cstart c => some c.comm
  | .csend k _ _ => (((s.plane o.plane).streams[k]?).join).map (·.comm)
  | .cfetch k _ _ => (((s.plane o.plane).streams[k]?).join).map (·.comm)
  | _ => none
/-- Whether plane p has an operation or an open stream on a communicator (25 R365). -/
def State.commBusy (s : State) (p : PlaneId) (num : Nat) : Bool :=
  s.ops.any (fun o => o.plane == p && s.commOfOp o == some num) ||
    (s.plane p).streams.toList.any fun o => match o with | some st => st.comm == num && !st.shut | none => false

/-- The ordinal's job in a part. -/
def CommPart.job? (c : CommPart) (ord : Nat) : Option CollJob := c.jobs.find? fun j => j.ord == ord
/-- A job changed, made where it is not there. -/
def CommPart.modJob (c : CommPart) (ord : Nat) (f : CollJob → CollJob) : CommPart :=
  if c.jobs.any fun j => j.ord == ord then { c with jobs := c.jobs.map fun j => if j.ord == ord then f j else j }
  else { c with jobs := c.jobs ++ [f ⟨ord, none, [], [], 0, []⟩] }
/-- The stream of an ordinal. -/
def CommPart.stream? (c : CommPart) (ord : Nat) : Option CommStream := c.streams.find? fun j => j.ord == ord
/-- A stream changed, made where it is not there. -/
def CommPart.modStream (c : CommPart) (ord : Nat) (f : CommStream → CommStream) : CommPart :=
  if c.streams.any fun j => j.ord == ord then { c with streams := c.streams.map fun j => if j.ord == ord then f j else j }
  else { c with streams := c.streams ++ [f ⟨ord, none, [], []⟩] }

/-- The operations of an ordinal end with a status, where none has ended them before. -/
def CollJob.stop (st : Nat) (j : CollJob) : CollJob := if j.status.isSome then j else { j with status := some st }
/-- A record of PATTERN, ROOT and COUNT joins a job: MISMATCH where one differs (25 R370). -/
def CollJob.record (rank : Nat) (r : List Nat) (j : CollJob) : CollJob :=
  let j' := { j with recs := j.recs ++ [(rank, r)] }
  if j.recs.all fun x => x.2 == r then j' else j'.stop 1
/-- A stream's record joins (25 R372). -/
def CommStream.record (rank : Nat) (r : List Nat) (j : CommStream) : CommStream :=
  { j with recs := j.recs ++ [(rank, r)], status := if (j.recs.all fun x => x.2 == r) || j.status.isSome then j.status else some 1 }

/-- The streams of the planes that a communicator's stream ends: reads return zero pieces, contributions are discarded (25 R372, R377,
R378). -/
def State.endStream (s : State) (num ord : Nat) : State :=
  { s with planes := s.planes.map fun p => { p with streams := p.streams.map fun o => match o with
      | some st => if st.comm == num && st.ord == ord then some { st with zero := true, arrived := [], out := [] } else o
      | none => none } }
/-- A stream of a communicator ends with a status. -/
def State.stopStream (s : State) (num ord st : Nat) : State :=
  (s.modComm num fun c => c.modStream ord fun j => { j with status := some (j.status.getD st) }).endStream num ord

/-- Elements of the data that an operation's chunks divide, and elements of a member's SRC and DST (25 R367, R370). -/
def collData (pat n count : Nat) : Nat := if pat == 1 then n * count else if pat == 5 then 0 else count
def collSrc (pat root rank n count : Nat) : Nat := if pat == 5 || (pat == 3 && rank != root) then 0 else collData pat n count
def collDst (pat root rank n count : Nat) : Nat :=
  if pat == 5 || (pat == 4 && rank != root) then 0 else if pat == 2 then n * count else count

/-- CSTART (25 R370, R371). -/
def execCstart (d a b : XReg) (n : TReg) (s : State) : Out :=
  let w := collWord d a b 4 (0#2 ++ n)
  .next (match s.commOf s.cur ((s.getX a).toNat % 256) with
    | none => s.illOp w
    | some (c, m) =>
      if (s.getX b).toNat % 8 != 0 then s.illOp w
      else match s.readBytes (s.getX b) 64 with
        | .error e => s.memTrap e
        | .ok (bs, s') =>
          let f (o n : Nat) : Nat := fieldAt bs o n
          let pat := f 0 1
          let root := f 2 2
          let src := f 8 8
          let dst := f 16 8
          let count := f 24 8
          let tile := f 32 4
          let acnt := f 40 8
          let cnt := f 48 8
          let es := tagBytes c.tag
          let size := c.size s'.pkg
          let rank := c.rank s'.pkg s'.cur
          let sb := collSrc pat root rank size count * es
          let db := collDst pat root rank size count * es
          let counts := if cnt == 0 then 0 else if c.cntblk then (db / es + 31) / 32 else db / es
          if 5 < pat || f 1 1 != 0 || f 4 4 != 0 || f 36 4 != 0 || f 56 8 != 0 || size ≤ root || (root != 0 && pat != 3 && pat != 4) ||
              src % es != 0 || dst % es != 0 || 2 ^ 34 < count || (count == 0) != (pat == 5) || (pat == 5 && (src != 0 || dst != 0)) ||
              (pat == 3 && rank != root && src != 0) || (pat == 4 && rank != root && dst != 0) || tile % 64 != 0 || acnt % 8 != 0 ||
              cnt % 2 != 0 || (cnt != 0 && !c.nanskip) || (extentsMeet src sb dst db && !(pat == 0 && src == dst)) then s.illOp w
          else match joinWalks [s'.walkRange s'.myAgent .read src sb, s'.walkRange s'.myAgent .write dst db,
              s'.walkRange s'.myAgent .write cnt (2 * counts), s'.walkExtent s'.myAgent .rmw true acnt (if acnt == 0 then 0 else 8)] with
            | .error e => s.memTrap e
            | .ok xl =>
              if !s'.canIssue n 1 then s.illOp w
              else if !s'.releaseReady then s
              else
                let ord := m.issued + 1
                let op : CollStart := ⟨c.num, ord, pat, root, src, dst, count, tile, acnt, cnt, sb, db, [], xl⟩
                let s := (s'.issueOp n (.cstart op)).modMember s'.cur c.num fun m => { m with issued := ord }
                (s.modComm c.num fun c => c.modJob ord (CollJob.record rank [pat, root, count])).retX d (BitVec.ofNat 64 (ord % 2 ^ 32)) 4)

/-! ### Reduction -/

/-- Whether an element of the communicator's type is a NaN. -/
def CommPart.isNan (c : CommPart) (x : Nat) : Bool := match tagFp? c.tag with | some f => (f.value x).isNan | none => false

/-- Whether a contribution counts under NANSKIP: element by element, or by blocks of 32 (25 R369). -/
def validAt (c : CommPart) (xs : List Nat) (i : Nat) : Bool :=
  if !c.nanskip then true
  else if c.cntblk then !((xs.drop (i / 32 * 32)).take 32).any c.isNan
  else match xs[i]? with | some x => !c.isNan x | none => true

/-- How many of the contributions to an output that is copied are valid at element i; `ys` are the elements from `lo` on, each with the
rank it comes from (25 R369). -/
def CommPart.validCopies (c : CommPart) (ys : List (Nat × Nat)) (lo i : Nat) : Nat :=
  if c.cntblk then
    let block := (ys.drop (i / 32 * 32 - lo)).take 32
    ((block.map (·.1)).eraseDups.filter fun r => block.all fun y => y.1 != r || !c.isNan y.2).length
  else match ys[i - lo]? with | some y => b2n !(c.isNan y.2) | none => 0

/-- The reduction of the contributions to one element, each with whether it is valid (25 R368, R369). -/
def reduceElem (c : CommPart) (free : Nat) (vs : List (Nat × Bool)) : Nat :=
  let good := (vs.filter (·.2)).map (·.1)
  match tagFp? c.tag with
  | none =>
    match good with
    | [] => 0
    | v :: us => combine free c.op c.tag v (us.map fun u => ⟨u, 0, 0, 0, []⟩)
  | some f =>
    if good.isEmpty then 0
    else if good.any fun x => (f.value x).isNan then f.canonicalNan
    else if c.op == 0 then
      let terms := vs.map fun x => if x.2 then x.1 else 0
      match terms with
      | [] => 0
      | v :: us => combine free 0 c.tag v (us.map fun u => ⟨u, 0, 0, 0, []⟩)
    else match good with
      | [] => 0
      | v :: us => us.foldl (fun a u => fpMinMaxQuiet f (c.op == 2) a u) v

/-- The bytes of SRC read so far of a rank. -/
def CollJob.gotOf (j : CollJob) (rank : Nat) : List Byte := match j.got.find? fun x => x.1 == rank with | some x => x.2 | none => []

/-- Elements lo to hi − 1 of the output of the member of a rank, and the number of valid contributions to each; none where a
contribution has not come (25 R368 to R370). -/
def CommPart.output (c : CommPart) (own free : Nat) (j : CollJob) (pat root rank count lo hi : Nat) : Option (List (Nat × Nat)) :=
  let es := tagBytes c.tag
  let size := c.size own
  let elems (r : Nat) : List Nat := let bs := j.gotOf r; unitsOf es (bs.length / es) bs
  let total := if pat == 2 then size * count else count
  let need := if c.cntblk then min total ((hi + 31) / 32 * 32) else hi
  let copied (of : Nat → Nat × Nat) : Option (List (Nat × Nat)) :=
    let lo' := if c.cntblk then lo / 32 * 32 else lo
    ((List.range (need - lo')).mapM fun i => let x := of (lo' + i); ((elems x.1)[x.2]?).map fun v => (x.1, v)).map fun ys =>
      ((ys.drop (lo - lo')).take (hi - lo)).mapIdx fun i y => (y.2, c.validCopies ys lo' (lo + i))
  match pat with
  | 2 => copied fun i => (i / count, i % count)
  | 3 => copied fun i => (root, i)
  | _ =>
    let off := if pat == 1 then rank * count else 0
    let parts := (List.range size).map fun r => ((elems r).drop off).take count
    if parts.all fun p => decide (need ≤ p.length) then
      some ((List.range (hi - lo)).map fun i =>
        let vs := parts.map fun p => ((p[lo + i]?).getD 0, validAt c p (lo + i))
        (reduceElem c (free + i) vs, (vs.filter (·.2)).length))
    else none

/-! ### The engine -/

/-- The member's operation of an ordinal on plane p. -/
def State.collOp (s : State) (p : PlaneId) (num ord : Nat) : Option CollStart :=
  s.ops.findSome? fun o => if o.plane == p then (match o.kind with
    | .cstart x => if x.comm == num && x.ord == ord then some x else none
    | _ => none) else none

/-- The part of a queued item. -/
def QItem.comm : QItem → Nat
  | .op c _ => c
  | .stream c _ _ _ => c

/-- Chunks of an operation; one that is empty where it has no data (25 R367). -/
def CollStart.chunks (x : CollStart) (c : CommPart) (own : Nat) : Nat :=
  max 1 ((collData x.pat (c.size own) x.count * tagBytes c.tag + c.chunk - 1) / c.chunk)

/-- Whether the next chunk of an operation is ready: every local member, resident, has issued it, and nothing has ended it (25 R367,
R378). -/
def State.jobReady (s : State) (c : CommPart) (j : CollJob) : Bool :=
  j.status.isNone && c.planes.all fun p => match s.collOp p c.num j.ord with
    | some x => decide (j.chunks < x.chunks c s.pkg)
    | none => false

/-- Bytes of a piece. -/
def Stream.pieceBytes (st : Stream) : Nat := st.piece * tagBytes st.tag
/-- Bytes of a stream's data that the strand has contributed. -/
def Stream.offered (st : Stream) : Nat := (st.gone / st.pieceBytes + st.out.length) * st.pieceBytes
/-- Where the chunks of a stream that are ready end at the latest. A chunk is ready as soon as some of its bytes are contributed, and
carries those (log 43): a strand that reads piece n before it contributes piece n + 1 need not wait for a chunk to fill. -/
def Stream.chunkEnds (st : Stream) (chunk : Nat) : List Nat :=
  if st.offered ≤ st.gone then []
  else (List.range ((st.offered - 1) / chunk + 1 - st.gone / chunk)).map fun i => (st.gone / chunk + i + 1) * chunk

/-- What is ready of a communicator, once it is joined (25 R362, R367, R378). -/
def State.readyItems (s : State) (c : CommPart) : List QItem :=
  if !c.isJoined s.pkg then []
  else ((c.jobs.filter (s.jobReady c)).map fun j => .op c.num j.ord) ++
    c.planes.flatMap fun p => (s.plane p).streams.toList.zipIdx.flatMap fun x => match x.1 with
      | some st => if st.comm == c.num then (st.chunkEnds c.chunk).map fun hi => .stream c.num p x.2 hi else []
      | none => []

/-- The queues of the engines after a step: what is no longer ready leaves, and what has become ready joins at the end, lower communicator
numbers first (25 R367). -/
def State.readyQueues (s : State) : State :=
  if s.comms.isEmpty && s.engines.all (·.queue.isEmpty) then s
  else
    let ready := (List.range 64).flatMap fun n => match s.comm? n with
      | some c => (s.readyItems c).map fun i => (c.die, i)
      | none => []
    let next (d : Fin 2) : CollEngine :=
      let e := s.engines.get d
      let mine := (ready.filter fun x => x.1 == d.val).map (·.2)
      { e with queue := e.queue.filter mine.contains ++ mine.filter fun i => !e.queue.contains i }
    { s with engines := (s.engines.set 0 (next 0)).set 1 (next 1) }

/-- The arbiter's choice among eligible queues, each a virtual channel with the priority and weight of its head's communicator: the
channel, the set and the credits after it (25 R367). -/
def arbitrate (e : CollEngine) (qs : List (Nat × Nat × Nat)) : Option (Nat × List Nat × List Int) :=
  let top := qs.foldl (fun a q => max a q.2.1) 0
  let es := qs.filter fun q => q.2.1 == top
  let set := es.map (·.1)
  let cred : List Int := if set == e.prev then e.cred else List.replicate 8 0
  let cred : List Int := cred.mapIdx fun v c => match es.find? fun q => q.1 == v with | some q => c + (q.2.2 : Nat) | none => c
  let best := es.foldl (fun (b : Option Nat) q => match b with
    | none => some q.1
    | some v => if (cred[v]?).getD 0 < (cred[q.1]?).getD 0 then some q.1 else b) none
  let total : Int := (es.foldl (fun a q => a + q.2.2) 0 : Nat)
  best.map fun v => (v, set, cred.modify v (· - total))

/-- Whether a package holds the member of a rank. -/
def CommPart.holdsRank (c : CommPart) (own rank k : Nat) : Bool :=
  decide (c.below own k ≤ rank) && decide (rank < c.below own k + c.on own k)

/-- Whether a message of an operation cannot be delivered: to the root of a REDUCE, from the root of a BCAST, to every other package of
another pattern (25 R370, 27 R392). -/
def State.sendFails (s : State) (c : CommPart) (pat root : Nat) : Bool :=
  c.pkgs.any fun k => k != s.pkg && s.failing.contains k &&
    (if pat == 3 then c.holdsRank s.pkg root s.pkg else pat != 4 || c.holdsRank s.pkg root k)

/-- One chunk of an operation is sent: the next bytes of every local member's SRC are read (25 R367, R368). An error of a read, or a
message that fails, ends it with MEMERR (25 R378, 27 R392). -/
def State.sendChunk (s : State) (c : CommPart) (ord : Nat) : State :=
  match c.job? ord with
  | none => s
  | some j =>
    let lo := j.chunks * c.chunk
    let fails := c.planes.any fun p => match s.collOp p c.num ord with | some x => s.sendFails c x.pat x.root | none => false
    let s := s.modComm c.num fun x => x.modJob ord fun j => { j with chunks := j.chunks + 1 }
    if fails then s.modComm c.num fun y => y.modJob ord (CollJob.stop 3)
    else c.planes.foldl (fun s p => match s.collOp p c.num ord with
      | none => s
      | some x =>
        let n := min c.chunk (x.srcBytes - lo)
        if n == 0 then s
        else match s.engineRead x.xl (ringAddrs (x.src + lo) n) with
          | none => s.modComm c.num fun y => y.modJob ord (CollJob.stop 3)
          | some (bs, s) => s.modComm c.num fun y => y.modJob ord fun j =>
              let r := c.rank s.pkg p
              { j with got := (j.got.filter fun g => g.1 != r) ++ [(r, j.gotOf r ++ bs)] }) s

/-- A piece of rank `rank` reaches the communicator. -/
def CommStream.receive (rank : Nat) (xs : List Nat) (j : CommStream) : CommStream :=
  let old := match j.got.find? fun g => g.1 == rank with | some g => g.2 | none => []
  { j with got := (j.got.filter fun g => g.1 != rank) ++ [(rank, old ++ [xs])] }

/-- One chunk of a stream is sent, up to an offset of its data: the pieces whose last bytes it carries leave the plane. A message that
fails ends the stream with MEMERR (25 R367, R378, 27 R392). -/
def State.sendStream (s : State) (c : CommPart) (p : PlaneId) (k hi : Nat) : State :=
  match ((s.plane p).streams[k]?).join with
  | none => s
  | some st =>
    if s.sendFails c 0 0 then s.stopStream c.num st.ord 3
    else
      let end_ := min st.offered hi
      let n := end_ / st.pieceBytes - st.gone / st.pieceBytes
      let s := s.modPlane p fun pl => { pl with
        streams := pl.streams.setIfInBounds k (some { st with out := st.out.drop n, gone := end_ }) }
      (st.out.take n).foldl (fun s x => s.modComm c.num fun y => y.modStream st.ord (CommStream.receive (c.rank s.pkg p) x)) s

/-- Event CHUNK_SEND: at a chunk boundary the engine of a die chooses a queue and sends its head chunk (25 R367). -/
def execChunkSend (die : Bool) (s : State) : Out :=
  let d : Fin 2 := if die then 1 else 0
  let e := s.engines.get d
  let queue := e.queue.filterMap fun i => match s.comm? i.comm with
    | some c => if (s.readyItems c).contains i then some (c, i) else none
    | none => none
  let heads := (List.range 8).filterMap fun v => queue.find? fun x => x.1.vc == v
  .next (match arbitrate e (heads.map fun x => (x.1.vc, x.1.prio, x.1.weight)) with
    | none => s
    | some (v, set, cred) =>
      match heads.find? fun x => x.1.vc == v with
      | none => s
      | some (c, i) =>
        let s : State := { s with engines := s.engines.set d { e with prev := set, cred := cred } }
        match i with
        | .op _ ord => s.sendChunk c ord
        | .stream _ p k hi => s.sendStream c p k hi)

/-- Event CHUNK_ARRIVAL: what a member on another package sends (25 R367 to R378). -/
def execChunkArrival (c : Nat) (msg : CollMsg) (s : State) : Out :=
  .next (match s.comm? c with
    | none => s
    | some x =>
      let other (rank : Nat) : Bool := decide (rank < x.base s.pkg) || decide (x.base s.pkg + x.planes.length ≤ rank)
      match msg with
      | .issue ord rank pat root count => if other rank then s.modComm c fun x => x.modJob ord (CollJob.record rank [pat, root, count]) else s
      | .chunk ord rank data =>
        if other rank then s.modComm c fun x => x.modJob ord fun j =>
          { j with got := (j.got.filter fun g => g.1 != rank) ++ [(rank, j.gotOf rank ++ data)] } else s
      | .stop ord st => s.modComm c fun x => x.modJob ord (CollJob.stop st)
      | .bind ord rank pat root piece npiece =>
        if other rank then
          let s := s.modComm c fun x => x.modStream ord (CommStream.record rank [pat, root, piece, npiece])
          match (s.comm? c).bind fun x => x.stream? ord with
          | some j => if j.status.isSome then s.endStream c ord else s
          | none => s
        else s
      | .piece ord rank xs => if other rank then s.modComm c fun x => x.modStream ord (CommStream.receive rank xs) else s
      | .close ord st => s.stopStream c ord st)

/-- The tile size of an operation. -/
def CollStart.tileBytes (x : CollStart) : Nat := if x.tile == 0 then x.dstBytes else x.tile
/-- The tiles of an operation. -/
def CollStart.tiles (x : CollStart) : Nat := if x.dstBytes == 0 then 0 else (x.dstBytes + x.tileBytes - 1) / x.tileBytes

/-- The arrival counter one higher, in one step (25 R371). -/
def State.bump (s : State) (xl : List XFrame) (acnt : Nat) : Option State :=
  match s.engineRead xl (ringAddrs acnt 8) with
  | none => none
  | some (bs, s) => s.engineWrite xl (ringAddrs acnt 8) (leBytes 8 (leNat bs + 1))

/-- Event TILE_LAND: a tile of DST, its count entries, then the arrival counter (25 R371). -/
def execTileLand (p : PlaneId) (n : TReg) (seq tile : Nat) (s : State) : Out :=
  .next (match s.op? p n seq with
    | none => s
    | some o => match o.kind with
      | .cstart x => match s.comm? x.comm with
        | none => s
        | some c => match c.job? x.ord with
          | none => s
          | some j =>
            let es := tagBytes c.tag
            let lo := tile * x.tileBytes / es
            let hi := min ((tile + 1) * x.tileBytes) x.dstBytes / es
            if j.status.isSome || x.tiles ≤ tile || x.landed.contains tile || j.recs.length < c.size s.pkg then s
            else match c.output s.pkg s.free j x.pat x.root (c.rank s.pkg p) x.count lo hi with
              | none => s
              | some ys =>
                let s : State := { s with free := s.free + (hi - lo) }
                let fail := s.modComm c.num fun y => y.modJob x.ord (CollJob.stop 3)
                match s.engineWrite x.xl (ringAddrs (x.dst + tile * x.tileBytes) ((hi - lo) * es)) (ys.flatMap fun y => leBytes es y.1) with
                | none => fail
                | some s =>
                  let cs := if c.cntblk then
                      (List.range ((hi + 31) / 32 - lo / 32)).map fun b => (lo / 32 + b, ((ys[(lo / 32 + b) * 32 - lo]?).map (·.2)).getD 0)
                    else ys.mapIdx fun i y => (lo + i, y.2)
                  let s' := if x.cnt == 0 then some s else
                    cs.foldl (fun (o : Option State) e => o.bind fun s => s.engineWrite x.xl (ringAddrs (x.cnt + 2 * e.1) 2) (leBytes 2 e.2)) (some s)
                  match s'.bind fun s => if x.acnt == 0 then some s else s.bump x.xl x.acnt with
                  | none => fail
                  | some s => s.modOp p n seq fun _ => .cstart { x with landed := x.landed ++ [tile] }
      | _ => s)

/-! ### Streams -/

/-- Stream k of the issuing plane, open. -/
def State.stream? (s : State) (k : Nat) : Option Stream :=
  match (s.me.streams[k]?).join with
  | some st => if st.shut then none else some st
  | none => none

/-- A stream record of 32 bytes for a member of rank r of n under element type t; none where it breaks 25 Table 25-5. -/
def streamRec? (bs : List Byte) (comm ord rank n : Nat) (t : Tag) : Option Stream :=
  let f (o n : Nat) : Nat := fieldAt bs o n
  let dir := f 4 1
  let pat := f 5 1
  let root := f 6 2
  let piece := f 8 4
  let mem := f 2 1 == 0xFF
  let lg := f 3 1
  let contrib := dir % 2 == 1
  let top := if mem then 2 ^ 24 else vlmax t (2 ^ lg)
  if f 0 2 != 1 || (!mem && 63 < f 2 1) || 3 < lg || (mem && lg != 0) || dir == 0 || 3 < dir || 1 < pat || (pat == 0 && root != 0) || n ≤ root ||
      piece < 1 || top < piece || f 12 4 != 0 || f 16 8 < 1 || 2 ^ 40 < f 16 8 || f 24 8 != 0 ||
      (if pat == 0 then !contrib else contrib != (rank == root)) then none
  else some ⟨comm, ord, if mem then none else some (f 2 1), lg, contrib, 2 ≤ dir, pat, root, piece, f 16 8, t, 0, 0, [], 0, [], 0, false, false⟩

/-- CBIND (25 R372). -/
def execCbind (d a b : XReg) (s : State) : Out :=
  let w := collWord d a b 2 0
  let num := (s.getX a).toNat % 256
  .next (
    if (s.getX b).toNat % 8 != 0 then s.illOp w
    else match s.readBytes (s.getX b) 32 with
      | .error e => s.memTrap e
      | .ok (bs, s') =>
        if !s'.queueEmpty then s
        else match s'.commOf s'.cur num with
          | none => s'.retX d 6 4
          | some (c, m) =>
            let rank := c.rank s'.pkg s'.cur
            match streamRec? bs num (m.bound + 1) rank (c.size s'.pkg) c.tag with
            | none => s.illOp w
            | some st =>
              let bad := match st.vreg with
                | none => false
                | some r => r % 2 ^ st.lg != 0 || !(s'.me.boundTo [(r, 2 ^ st.lg)]).isEmpty
              if bad then s.illOp w
              else match (List.range 16).find? fun k => ((s'.me.streams[k]?).join).isNone with
                | none => s'.retX d 7 4
                | some k =>
                  let s := s'.modMember s'.cur num fun m => { m with bound := m.bound + 1 }
                  let s := s.modComm num fun c => c.modStream st.ord (CommStream.record rank [st.pattern, st.root, st.piece, st.npiece])
                  let s := s.modMe fun p => { p with streams := p.streams.setIfInBounds k (some st) }
                  let ended := match (s.comm? num).bind fun c => c.stream? st.ord with | some j => j.status.isSome | none => false
                  (if ended then s.endStream num st.ord else s).retX d (BitVec.ofNat 64 (k * 256)) 4)

/-- A stream number with its upper bits zero, open, of memory form, in a direction, with a piece left (25 R374). -/
def State.memStream? (s : State) (a : XReg) (send : Bool) : Option (Nat × Stream) :=
  let k := (s.getX a).toNat
  if 16 ≤ k then none
  else match s.stream? k with
    | none => none
    | some st => if st.vreg.isSome || !(if send then st.contrib else st.consume) || st.npiece ≤ (if send then st.sent else st.taken) then none
      else some (k, st)

/-- CSEND and CFETCH at issue (25 R374). -/
def opPiece (w : IWord) (a b : XReg) (n : TReg) (send : Bool) (s : State) : State :=
  match s.memStream? a send with
  | none => s.illOp w
  | some (k, st) =>
    let va := (s.getX b).toNat
    let es := tagBytes st.tag
    if va % es != 0 then s.illOp w
    else match s.walkRange s.myAgent (if send then .read else .write) va (st.piece * es) with
      | .error e => s.memTrap e
      | .ok xl =>
        if !s.canIssue n 1 then s.illOp w
        else if !s.releaseReady then s
        else
          let st' := if send then { st with sent := st.sent + 1 } else { st with taken := st.taken + 1 }
          ((s.modMe fun p => { p with streams := p.streams.setIfInBounds k (some st') }).issueOp n
            (if send then .csend k va xl else .cfetch k va xl)).advance 4
/-- CSEND (25 R374). -/
def execCsend (a b : XReg) (n : TReg) (s : State) : Out := .next (opPiece (collWord 0 a b 5 (0#2 ++ n)) a b n true s)
/-- CFETCH (25 R374). -/
def execCfetch (a b : XReg) (n : TReg) (s : State) : Out := .next (opPiece (collWord 0 a b 6 (0#2 ++ n)) a b n false s)

/-- Piece i of a stream as every consumer receives it; none where a contribution has not come (25 R373). -/
def CommPart.piece (c : CommPart) (own free : Nat) (j : CommStream) (st : Stream) (i : Nat) : Option (List Nat) :=
  let of (r : Nat) : Option (List Nat) := match j.got.find? fun g => g.1 == r with | some g => g.2[i]? | none => none
  if st.pattern == 1 then of st.root
  else match (List.range (c.size own)).mapM of with
    | none => none
    | some parts => some ((List.range st.piece).map fun e => reduceElem c (free + e) (parts.map fun p => ((p[e]?).getD 0, validAt c p e)))

/-- Event STREAM_PIECE_DELIVER: the next reduced piece reaches stream k of plane p, and a consuming read that waits may go on
(25 R373). -/
def execStreamPieceDeliver (p : PlaneId) (k : Nat) (s : State) : Out :=
  .next (match ((s.plane p).streams[k]?).join with
    | none => s
    | some st =>
      if (s.plane p).st == .free || !st.consume || st.zero || st.npiece ≤ st.delivered then s
      else match s.comm? st.comm with
        | none => s
        | some c => match (c.stream? st.ord).bind fun j => if c.isJoined s.pkg then c.piece s.pkg s.free j st st.delivered else none with
          | none => s
          | some xs =>
            let st' := { st with arrived := st.arrived ++ [xs], delivered := st.delivered + 1 }
            let s : State := { s with free := s.free + st.piece }
            s.modPlane p fun pl => { pl with streams := pl.streams.setIfInBounds k (some st') })

/-- Streams of plane p that CCANCEL closed go, once nothing of the plane is on them any more (25 R377). -/
def State.dropShut (s : State) (p : PlaneId) : State :=
  if !(s.plane p).vq.isEmpty then s
  else s.modPlane p fun pl => { pl with streams := pl.streams.mapIdx fun k => keptStream (s.streamBusy p k) }

/-- The status of the member of plane p after an operation, and the operation's completion. -/
def State.collDone (s : State) (p : PlaneId) (n : TReg) (seq num st : Nat) : State :=
  (s.modMember p num fun m => { m with last := st }).completeOp p n seq

/-- Whether an earlier operation of the same stream and direction has not completed (25 R374). -/
def State.pieceAhead (s : State) (p : PlaneId) (n : TReg) (seq k : Nat) (send : Bool) : Bool :=
  (s.opsBefore p n seq).any fun o => match o.kind with
    | .csend j _ _ => send && j == k
    | .cfetch j _ _ => !send && j == k
    | _ => false

/-- Event CSTART_COMPLETE: an operation whose reads, writes and bumps are done, or that has been ended, records its status and completes;
so does a CSEND, which reads its piece, and a CFETCH, which writes one that has come (25 R371, R374, R377, R378). -/
def execCstartComplete (p : PlaneId) (n : TReg) (seq : Nat) (s : State) : Out :=
  .next (match s.op? p n seq with
    | none => s
    | some o => match o.kind with
      | .cstart x => match s.comm? x.comm with
        | none => s
        | some c => match c.job? x.ord with
          | none => s
          | some j =>
            let fin (st : Nat) : State := (s.modComm c.num fun y => y.modJob x.ord fun j => { j with done := j.done ++ [p] }).collDone p n seq c.num st
            match j.status with
            | some st => fin st
            | none =>
              if x.chunks c s.pkg ≤ j.chunks && x.landed.length == x.tiles && c.size s.pkg ≤ j.recs.length then fin 0 else s
      | .csend k va xl => match ((s.plane p).streams[k]?).join with
        | none => s.completeOp p n seq
        | some st =>
          if s.pieceAhead p n seq k true then s
          else if st.zero then
            let code := ((s.comm? st.comm).bind fun c => (c.stream? st.ord).bind (·.status)).getD 0
            (s.collDone p n seq st.comm code).dropShut p
          else match s.engineRead xl (ringAddrs va (st.piece * tagBytes st.tag)) with
            | none => (s.stopStream st.comm st.ord 3).collDone p n seq st.comm 3
            | some (bs, s) => (s.sendPiece p k st st (unitsOf (tagBytes st.tag) st.piece bs)).collDone p n seq st.comm 0
      | .cfetch k va xl => match ((s.plane p).streams[k]?).join with
        | none => s.completeOp p n seq
        | some st =>
          if s.pieceAhead p n seq k false then s
          else if st.zero then
            let code := ((s.comm? st.comm).bind fun c => (c.stream? st.ord).bind (·.status)).getD 0
            (s.collDone p n seq st.comm code).dropShut p
          else match st.arrived with
            | [] => s
            | xs :: rest =>
              let s := s.modPlane p fun pl => { pl with streams := pl.streams.setIfInBounds k (some { st with arrived := rest }) }
              match s.engineWrite xl (ringAddrs va (st.piece * tagBytes st.tag)) (xs.flatMap fun x => leBytes (tagBytes st.tag) x) with
              | none => (s.stopStream st.comm st.ord 3).collDone p n seq st.comm 3
              | some s => s.collDone p n seq st.comm 0
      | _ => s)

/-- A CUNBIND of stream k of the issuing plane, where it may close (25 R375). -/
def cunbindWait (d : XReg) (k : Nat) (s : State) : State :=
  match s.stream? k with
  | none => s.retX d 0 4
  | some st =>
    if !s.queueEmpty || s.streamBusy s.cur k || !st.out.isEmpty then s.stallOn (.cunbind d k)
    else (s.modMe fun p => { p with streams := p.streams.setIfInBounds k none }).retX d (BitVec.ofNat 64 st.arrived.length) 4

/-- CUNBIND (25 R375). -/
def execCunbind (d a : XReg) (s : State) : Out :=
  .next (match s.me.wait with
    | some (.cunbind d' k) => cunbindWait d' k s
    | _ =>
      let k := (s.getX a).toNat % 16
      if (s.stream? k).isNone then s.illOp (collWord d a 0 3 0) else cunbindWait d k s)

/-- Event CUNBIND_CLOSE: a CUNBIND that waits on plane p closes its stream, where it may (25 R375). -/
def execCunbindClose (p : PlaneId) (s : State) : Out :=
  .next (match s.waitOf p with | some (.cunbind d k) => s.asPlane p (cunbindWait d k) | _ => s)

/-! ### Withdrawal, status, cancellation -/

/-- The member of a plane and cohort withdraws from a part; a part that no local member is in is freed (25 R365). -/
def State.withdraw (s : State) (num : Nat) (p : PlaneId) (coh : Nat) : State :=
  let s := s.modComm num fun c => { c with members := c.members.map fun m => if m.plane == p && m.coh == coh then { m with inn := false } else m }
  { s with comms := s.comms.filter fun c => c.num != num || c.members.any (·.inn) }

/-- A CFREE of the issuing strand, where it may withdraw (25 R365). -/
def cfreeWait (d : XReg) (num : Nat) (s : State) : State :=
  match s.commOf s.cur num with
  | none => s.retX d 6 4
  | some _ => if s.commBusy s.cur num then s.stallOn (.cfree d num) else (s.withdraw num s.cur s.me.coh).retX d 0 4

/-- CFREE (25 R365). -/
def execCfree (d a : XReg) (s : State) : Out :=
  .next (match s.me.wait with
    | some (.cfree d' num) => cfreeWait d' num s
    | _ => if 256 ≤ (s.getX a).toNat then s.illOp (collWord d a 0 1 0) else cfreeWait d (s.getX a).toNat s)

/-- Event CFREE_WITHDRAW: a CFREE that waits on plane p withdraws its member, where it may (25 R365). -/
def execCfreeWithdraw (p : PlaneId) (s : State) : Out :=
  .next (match s.waitOf p with | some (.cfree d num) => s.asPlane p (cfreeWait d num) | _ => s)

/-- Operations of the strand of plane p on a communicator that have not completed. -/
def State.commOps (s : State) (p : PlaneId) (num : Nat) : Nat := (s.ops.filter fun o => o.plane == p && s.commOfOp o == some num).length
/-- Open streams of plane p on a communicator, with their numbers. -/
def State.commStreams (s : State) (p : PlaneId) (num : Nat) : List (Nat × Stream) :=
  (List.range 16).filterMap fun k => match ((s.plane p).streams[k]?).join with
    | some st => if st.comm == num && !st.shut then some (k, st) else none
    | none => none

/-- CSTAT (25 R376). -/
def execCstat (d a : XReg) (s : State) : Out :=
  let num := (s.getX a).toNat % 256
  .next (s.retX d (BitVec.ofNat 64 (match s.commOf s.cur num with
    | none => 0
    | some (c, m) =>
      2 ^ 63 + b2n c.mode * 2 ^ 62 + b2n (c.isJoined s.pkg) * 2 ^ 61 + m.last * 2 ^ 48 +
        min 255 (s.commOps s.cur num + (s.commStreams s.cur num).length) * 2 ^ 32 + c.vc * 2 ^ 24 + c.prio * 2 ^ 16 + c.size s.pkg % 2 ^ 16)) 4)

/-- The pending operations and open streams of a member of a communicator end with a status, and with them those matched on every other
member (25 R365, R377, R378). -/
def State.stopMember (s : State) (c : CommPart) (m : CommMember) (streams : List Nat) (st : Nat) : State :=
  let s := s.modComm c.num fun c => { c with jobs := c.jobs.map fun j => if j.ord ≤ m.issued && !j.done.contains m.plane then j.stop st else j }
  streams.foldl (fun s o => s.stopStream c.num o st) s

/-- Operations of the strand of plane p on a communicator that a cancellation ends: not completed, and not ended before with another
status (25 R377). -/
def State.cancellable (s : State) (p : PlaneId) (c : CommPart) : Nat :=
  let live (k : Nat) : Bool := match ((s.plane p).streams[k]?).join with | some st => !st.zero | none => false
  (s.ops.filter fun o => o.plane == p && s.commOfOp o == some c.num && match o.kind with
    | .cstart x => (match c.job? x.ord with | some j => j.status.isNone | none => true)
    | .csend k _ _ => live k
    | .cfetch k _ _ => live k
    | _ => false).length

/-- CCANCEL (25 R377). -/
def execCcancel (d a : XReg) (s : State) : Out :=
  let num := (s.getX a).toNat % 256
  .next (match s.commOf s.cur num with
    | none => s.retX d 6 4
    | some (c, m) =>
      let k := s.cancellable s.cur c
      let open_ := s.commStreams s.cur num
      let s := s.stopMember c m (open_.map (·.2.ord)) 2
      let shut (o : Option Stream) : Option Stream := o.map fun st => if st.comm == num then { st with shut := true } else st
      let s := (s.modMe fun p => { p with streams := p.streams.map shut }).dropShut s.cur
      s.retX d (BitVec.ofNat 64 (k % 2 ^ 32 * 2 ^ 16)) 4)

end Sys2Proof.Machine
end

