-- ==== Sys2Proof/Machine/Route.lean ====
section
/-! DEFINITION. Routing: tables, inboxes, ROUTE and the riddling table, returns, major 0x33 (23 R349 to R361). -/
namespace Sys2Proof.Machine

/-! ### Routing tables -/

/-- Table k, where it exists and plane p may use it (23 R349). -/
def State.rtable? (s : State) (p : PlaneId) (k : Nat) : Option RTable :=
  match s.tables[k]? with
  | some (some t) => if t.root == s.rootOfPlane p then some t else none
  | _ => none

/-- Entries of the package's 4,096 that tables take (23 R349). -/
def State.idsUsed (s : State) : Nat := s.tables.toList.foldl (fun a t => match t with | some t => a + t.ids.length | none => a) 0

/-- The replica set of a record of 32 bytes; none where it breaks 23 Table 23-8. -/
def replicaSet (bs : List Byte) : Option (List PlaneId) :=
  let n := fieldAt bs 0 1
  let eps := unitsOf 2 8 (bs.drop 2)
  if 8 < n || !zeroAt bs 1 1 || !zeroAt bs 18 14 || eps.any (fun p => 512 ≤ p) || !((eps.drop n).all (· == 0)) then none
  else some ((eps.take n).map fun p => ⟨p % 512, Nat.mod_lt _ (by decide)⟩)

/-- The replica sets of consecutive records. -/
def replicaSets : (n : Nat) → List Byte → Option (List (List PlaneId))
  | 0, _ => some []
  | n + 1, bs => match replicaSet (bs.take 32), replicaSets n (bs.drop 32) with
    | some x, some xs => some (x :: xs)
    | _, _ => none

/-- RTCFG (23 R349). -/
def execRtcfg (d a : XReg) (s : State) : Out :=
  let w := packR 51#6 d a 0#5 0#5 0#6
  let x := s.getX a
  .next (
    if x.toNat % 8 != 0 then s.illOp w
    else match s.readBytes x 32 with
      | .error e => s.memTrap e
      | .ok (h, s') =>
        let nid := fieldAt h 2 2
        if fieldAt h 0 2 != 1 || nid == 0 || 4096 < nid || 63 < fieldAt h 12 1 || !zeroAt h 13 19 then s.illOp w
        else match s'.readBytes (x + 32) (32 * nid) with
          | .error e => s.memTrap e
          | .ok (bs, s') =>
            match replicaSets nid bs with
            | none => s.illOp w
            | some sets =>
              match s'.tables.toList.findIdx? (·.isNone) with
              | none => s'.retX d 1 4
              | some k =>
                if 4096 < s'.idsUsed + nid then s'.retX d 1 4
                else
                  let stc := fieldAt h 10 2
                  let t : RTable := ⟨s'.nextTable, s'.me.coh, s'.rootOfPlane s'.cur, fieldAt h 4 4, fieldAt h 8 2,
                    if stc == 0xFFFF then s'.me.coh else stc, fieldAt h 12 1, sets.map fun eps => ⟨eps, 0, 0, false⟩⟩
                  ({ s' with tables := s'.tables.setIfInBounds k (some t), nextTable := s'.nextTable + 1 } : State).retX d
                    (BitVec.ofNat 64 (256 * k)) 4)

/-- RTCFG.REL (23 R349). -/
def execRtcfgRel (d a : XReg) (s : State) : Out :=
  let k := (s.getX a).toNat % 256
  .next (match s.rtable? s.cur k with
    | none => s.retX d 3 4
    | some _ => ({ s with tables := s.tables.setIfInBounds k none } : State).retX d 0 4)

/-- RTUPD: the replica set of one id replaced, its version advanced, as a release (23 R350). -/
def execRtupd (d a b : XReg) (s : State) : Out :=
  let w := packR 51#6 d a b 1#5 0#6
  let x := (s.getX a).toNat
  let k := x % 256
  let id := x / 65536 % 4096
  .next (
    if x != k + 65536 * id || (s.getX b).toNat % 8 != 0 then s.illOp w
    else if !s.releaseReady then s
    else match s.readBytes (s.getX b) 32 with
      | .error e => s.memTrap e
      | .ok (bs, s') =>
        match replicaSet bs with
        | none => s.illOp w
        | some eps =>
          match s'.rtable? s'.cur k with
          | none => s'.retX d 1 4
          | some t =>
            match t.ids[id]? with
            | none => s'.retX d 2 4
            | some r =>
              let ver := (r.ver + 1) % 65536
              ({ s' with tables := s'.tables.setIfInBounds k (some { t with ids := t.ids.set id { r with eps := eps, ver := ver } }) } : State).retX d
                (BitVec.ofNat 64 (65536 * ver)) 4)

/-- RHOT: the lowest HOT id, its latch and count cleared (23 R351). -/
def execRhot (d a : XReg) (s : State) : Out :=
  let k := (s.getX a).toNat % 256
  .next (match s.rtable? s.cur k with
    | none => s.retX d 0 4
    | some t =>
      match t.ids.findIdx? (·.hot) with
      | none => s.retX d 0 4
      | some id =>
        let hits := ((t.ids[id]?).map (·.hits)).getD 0
        ({ s with tables := s.tables.setIfInBounds k (some { t with ids := t.ids.modify id fun r => { r with hot := false, hits := 0 } }) } : State).retX d
          (BitVec.ofNat 64 (2 ^ 63 + hits * 65536 + id)) 4)

/-- A delivery to id `id` of table k, where that is still the table of serial number gen: the hit count, the HOT latch and the post to the
steward (23 R351). -/
def State.hit (s : State) (k gen id : Nat) : State :=
  match s.tables[k]? with
  | some (some t) =>
    match (if t.gen == gen then t.ids[id]? else none) with
    | none => s
    | some r =>
      let hits := min (r.hits + 1) (2 ^ 32 - 1)
      let hot := t.thresh != 0 && hits == t.thresh && r.hits != hits
      let s := { s with tables := s.tables.setIfInBounds k (some { t with ids := t.ids.set id { r with hits := hits, hot := r.hot || hot } }) }
      if !hot then s
      else match s.cohort? t.stCoh with
        | some c => if t.stRank < c.rcd.nstrand then s.post c t.stRank (BitVec.ofNat 64 (2 ^ t.evbit)) else s
        | none => s
  | _ => s

/-! ### Policy and inboxes -/

/-- RSCFG: the route policy of the plane (23 R352). -/
def execRscfg (a b : XReg) (s : State) : Out :=
  let p := (s.getX a).toNat
  let t := (s.getX b).toNat
  .next (if 3 ≤ p || 2 ^ 40 ≤ t then s.illOp (packR 51#6 0#5 a b 7#5 0#6)
    else (s.modMe fun pl => { pl with policy := p, tmo := t }).advance 4)

/-- Places of a range of the issuing plane's local window. -/
def State.localPlaces (s : State) (va n : Nat) : Except MemErr (List Place) := s.places s.myAgent .write false n va none

/-- Every granule of some places set EMPTY. -/
def State.emptyAll (s : State) (ps : List Place) : State := ps.foldl (fun s p => if s.feGet p then s.feSet p false else s) s

/-- Whether an inbox has an occupied slot (23 R353). -/
def Inbox.occupied (b : Inbox) : Bool := b.slots.any fun x => x != .free

/-- RSCFG.INBOX (23 R352). -/
def execRscfgInbox (a b : XReg) (s : State) : Out :=
  let w := packR 51#6 0#5 a b 7#5 16#6
  let x := (s.getX a).toNat
  let y := (s.getX b).toNat
  let nslot := y % 512
  let sz := y / 65536 % 65536
  let busy := match s.me.inbox with | some i => i.occupied | none => false
  .next (
    if busy then s.illOp w
    else if x == 0 && y == 0 then (s.modMe fun p => { p with inbox := none }).advance 4
    else if y != nslot + 65536 * sz || nslot == 0 || 256 < nslot || sz < 2 || 257 < sz || x % 64 != 0 || x < 2 ^ 63 then s.illOp w
    else match s.quotaFault? x (nslot * sz * 64), s.localPlaces x (nslot * sz * 64) with
      | some e, _ => s.memTrap e
      | none, .error e => s.memTrap e
      | none, .ok ps =>
        ((s.emptyAll ps).modMe fun p => { p with inbox := some ⟨x % 2 ^ 63, sz * 64, List.replicate nslot .free, 0, 0⟩ }).advance 4)

/-- The local-window address of slot k of an inbox. -/
def Inbox.slotVa (b : Inbox) (k : Nat) : Nat := 2 ^ 63 + b.base + k * b.slotBytes

/-- Whether the head slot is delivered and its header granules are FULL (23 R354). -/
def State.headReady (s : State) (b : Inbox) : Bool :=
  match b.slots[b.head]? with
  | some (.delivered _) =>
    (match s.localPlaces (b.slotVa b.head) 64 with
     | .ok ps => ps.all fun p => s.feGet p
     | .error _ => false)
  | _ => false

/-- The head slot handed out: its address to Xd, the head advanced (23 R354). -/
def State.handOut (s : State) (d : XReg) (b : Inbox) : State :=
  let slots := b.slots.modify b.head fun x => match x with | .delivered h => .handed h | x => x
  (s.modMe fun p => { p with inbox := some { b with slots := slots, head := (b.head + 1) % b.slots.length } }).retX d (addr64 (b.slotVa b.head)) 4

/-- RECV: waits, RUNNABLE, until the head slot is delivered (23 R354). -/
def opRecv (d : XReg) (s : State) : State :=
  match s.me.inbox with
  | none => s.illOp (packR 51#6 d 0#5 0#5 3#5 0#6)
  | some b => if s.headReady b then s.handOut d b else s.stallOn (.recv d)
/-- RECV (23 R354). -/
def execRecv (d : XReg) (s : State) : Out := .next (opRecv d s)
/-- RECV.NB: 0 where the head slot is not delivered (23 R354). -/
def execRecvNb (d : XReg) (s : State) : Out :=
  .next (match s.me.inbox with
    | none => s.illOp (packR 51#6 d 0#5 0#5 3#5 16#6)
    | some b => if s.headReady b then s.handOut d b else s.retX d 0 4)
/-- Event RECV_WAKE of plane p: the header of the head slot has become FULL (23 R354). -/
def execRecvWake (p : PlaneId) (s : State) : Out :=
  .next (match s.waitOf p with | some (.recv d) => s.asPlane p (opRecv d) | _ => s)

/-! ### ROUTE -/

/-- The lowest free riddling-table entry of a core (23 R356). -/
def State.freeEntry (s : State) (c : CoreId) : Option Nat :=
  (List.range 64).find? fun e => !(s.routes.any fun r => r.core == c && r.e == e)

/-- The order of submission of a cohort. -/
def State.orderOf (s : State) (coh : Nat) : Nat := ((s.cohort? coh).map (·.order)).getD 0

/-- ROUTE (23 R356). -/
def execRoute (d a b : XReg) (n : TReg) (s : State) : Out :=
  let w := packR 51#6 d a b 2#5 (0#2 ++ n)
  let m := (s.getX b).toNat
  .next (
    if (s.getX a).toNat % 8 != 0 then s.illOp w
    else match s.readBytes (s.getX a) 64 with
      | .error e => s.memTrap e
      | .ok (bs, s') =>
        let src := fieldAt bs 0 8
        let spitch := (BitVec.ofNat 64 (fieldAt bs 8 8)).toInt
        let choiceAt := fieldAt bs 0x10 8
        let out := fieldAt bs 0x18 8
        let stat := fieldAt bs 0x20 8
        let opitch := fieldAt bs 0x28 4
        let rbytes := fieldAt bs 0x2C 2
        let nout := fieldAt bs 0x2E 2
        let k := fieldAt bs 0x31 1
        let kt := fieldAt bs 0x32 1
        let rettag := fieldAt bs 0x33 1
        match s'.rtable? s'.cur (fieldAt bs 0x30 1) with
        | none => s.illOp w
        | some t =>
          if m == 0 || 512 < m || choiceAt % 8 != 0 || out < 2 ^ 63 || out % 64 != 0 || opitch % 64 != 0 || opitch < 4 * nout ||
              rbytes % 64 != 0 || rbytes == 0 || 16384 < rbytes || nout % 16 != 0 || nout == 0 || 4096 < nout || k == 0 || 4 < k ||
              kt < k || 4 < kt || !(rettag == 0x0A || rettag == 0x0B) || !zeroAt bs 0x34 12 then s.illOp w
          else
            let rowVa (r : Nat) : Nat := (((src : Int) + r * spitch) % (2 ^ 64 : Nat)).toNat
            match joinWalks ((List.range m).map (fun r => s'.walkRange s'.myAgent .read (rowVa r) rbytes) ++
                [s'.walkRange s'.myAgent .read choiceAt (8 * kt * m), s'.walkRange s'.myAgent .write out (m * opitch),
                 s'.walkRange s'.myAgent .write stat m]) with
            | .error e => s.memTrap e
            | .ok xl =>
              if !s'.canIssue n 1 then s.illOp w
              else if !s'.releaseReady then s
              else match s'.freeEntry (coreOf s'.cur) with
                | none => s
                | some e =>
                  let s' := s'.issueOp n .route
                  let r : RouteEnt := {
                    core := coreOf s'.cur, e := e, plane := s'.cur, coh := s'.me.coh, ord := s'.orderOf s'.me.coh, n := n, seq := (s'.timeline s'.cur n).issue, rows := m,
                    src := src, spitch := spitch, choiceAt := choiceAt, out := out, stat := stat, opitch := opitch, rbytes := rbytes,
                    nout := nout, table := fieldAt bs 0x30 1, tgen := t.gen, k := k, kt := kt, rettag := rettag, policy := s'.me.policy, tmo := s'.me.tmo,
                    elapsed := 0, start := some s'.cycle, sets := t.ids.map fun i => (i.eps, i.ver), xl := xl, st := .routing,
                    cleared := false, row := 0, choice := 0, used := [], status := List.replicate m 0, outst := [], done := 0, drops := 0,
                    timedOut := false, holding := false }
                  ({ s' with routes := s'.routes ++ [r] } : State).retX d (BitVec.ofNat 64 e) 4)

/-- The entry e of core c in use. -/
def State.route? (s : State) (c : CoreId) (e : Nat) : Option RouteEnt := s.routes.find? fun r => r.core == c && r.e == e
/-- An entry replaced. -/
def State.setRoute (s : State) (r : RouteEnt) : State :=
  { s with routes := s.routes.map fun q => if q.core == r.core && q.e == r.e then r else q }

/-- Whether the router of an entry is resident, so that its operation and its timer proceed (23 R360). -/
def State.routerHere (s : State) (r : RouteEnt) : Bool :=
  r.start.isSome && (s.plane r.plane).st != .free && (s.plane r.plane).coh == r.coh

/-- Status bits ORed into a row's byte (23 Table 23-13). -/
def RouteEnt.mark (r : RouteEnt) (row bits : Nat) : RouteEnt := { r with status := r.status.modify row fun b => Nat.lor b bits }

/-- After placement: WAITING while a choice is outstanding, else RELEASED (23 Table 23-12). -/
def RouteEnt.settle (r : RouteEnt) : RouteEnt :=
  if r.st != .released && r.rows ≤ r.row then { r with st := if r.outst.isEmpty then .released else .waiting } else r

/-- The next choice in order (23 R357). -/
def RouteEnt.advance (r : RouteEnt) : RouteEnt :=
  if r.choice + 1 < r.k then { r with choice := r.choice + 1 } else { r with row := r.row + 1, choice := 0, used := [] }

/-- Whether plane p is a usable endpoint: it holds a strand of the router's ROOT with an inbox whose slots are large enough (23 R357). -/
def State.usable (s : State) (root rbytes : Nat) (p : PlaneId) : Bool :=
  (s.plane p).st != .free && s.rootOfPlane p == root &&
  match (s.plane p).inbox with | some b => decide (rbytes + 64 ≤ b.slotBytes) | none => false

/-- Whether plane p's inbox has a free slot: its tail slot is not occupied (23 R353). -/
def State.hasSlot (s : State) (p : PlaneId) : Bool :=
  match (s.plane p).inbox with | some b => b.slots[b.tail]? == some .free | none => false

/-- The inboxes with slots large enough of evicted strands of the root on plane p, each with its cohort's number and the index of the
strand's saved context (23 R357, R360). -/
def State.awayInboxes (s : State) (root rbytes : Nat) (p : PlaneId) : List ((Nat × Nat) × Inbox) :=
  (s.cohorts.filter fun c => c.st == .evicted && rootOf c.rcd.xroot == root).flatMap fun c =>
    (c.planes.zip c.saved).filterMap fun x =>
      if x.1 != p then none
      else ((s.parked[x.2]?).bind (·.pl.inbox)).bind fun b => if rbytes + 64 ≤ b.slotBytes then some ((c.num, x.2), b) else none
/-- Whether an endpoint of the root is away with its evicted cohort: a delivery to it waits (23 R360). -/
def State.awayAt (s : State) (root rbytes : Nat) (p : PlaneId) : Bool := !(s.awayInboxes root rbytes p).isEmpty
/-- Of the endpoints away on plane p, one that has a free slot: its cohort's number and the index of the strand's saved context (23 R353,
R360). -/
def State.awaySlot (s : State) (root rbytes : Nat) (p : PlaneId) : Option (Nat × Nat) :=
  ((s.awayInboxes root rbytes p).find? fun x => x.2.slots[x.2.tail]? == some .free).map (·.1)

/-- The bytes of a slot header (23 Table 23-10). -/
def SlotHdr.bytes (h : SlotHdr) : List Byte :=
  leBytes 4 h.weight ++ leBytes 2 h.id ++ leBytes 2 h.row ++ leBytes 1 h.choice ++ leBytes 1 h.entry ++ leBytes 2 h.router.val ++
    leBytes 2 h.rbytes ++ leBytes 2 h.nout ++ leBytes 1 h.rettag ++ leBytes 1 0 ++ leBytes 2 h.version ++ leBytes 44 0

/-- Bytes written into the local window of plane p, FULL set on every granule written (23 R353, 07 R86). -/
def State.putInbox (s : State) (p : PlaneId) (va : Nat) (bs : List Byte) : State :=
  match s.places (s.agent p) .write false bs.length va none with
  | .ok ps => ps.foldl (fun s q => if s.feGet q then s else s.feSet q true) (s.writePlaces ps bs)
  | .error _ => s

/-- The row and then the header of a delivery written to slot k of an inbox of plane p (23 R353). -/
def State.putSlot (s : State) (p : PlaneId) (b : Inbox) (k : Nat) (h : SlotHdr) (row : List Byte) : State :=
  (s.putInbox p (b.slotVa k + 64) row).putInbox p (b.slotVa k) h.bytes

/-- A delivery to plane p, as one step: the tail slot allocated, the row and the header written, FULL set on every granule, the
header's last (23 R353). -/
def State.deliver (s : State) (p : PlaneId) (h : SlotHdr) (row : List Byte) : State :=
  match (s.plane p).inbox with
  | none => s
  | some b =>
    (s.putSlot p b b.tail h row).modPlane p fun pl => { pl with inbox := some { b with slots := b.slots.set b.tail (.delivered h), tail := (b.tail + 1) % b.slots.length } }

/-- A delivery allocated in the inbox of an evicted strand, whose saved context is `idx`: it is written when the plane is restored
(23 R360). -/
def State.deliverAway (s : State) (coh idx : Nat) (p : PlaneId) (h : SlotHdr) (row : List Byte) : State :=
  match (s.parked[idx]?).bind (·.pl.inbox) with
  | none => s
  | some b =>
    let b' : Inbox := { b with slots := b.slots.set b.tail (.delivered h), tail := (b.tail + 1) % b.slots.length }
    { s with
      parked := s.parked.modify idx fun e => { e with pl := { e.pl with inbox := some b' } }
      awayRows := s.awayRows ++ [⟨coh, p, b.tail, h, row⟩] }

/-- OUT elements set to +0 before the first row is placed (23 R357). -/
def State.clearOut (s : State) (r : RouteEnt) : State :=
  let vas := (List.range r.rows).flatMap fun i => addrs (r.out + i * r.opitch) (4 * r.nout)
  match s.heldPlaces r.xl vas with
  | some ps => s.writePlaces ps (List.replicate ps.length 0)
  | none => s

/-- The choice word of a row (23 R356): weight, id, and whether bits 63:48 are zero. -/
def choiceOf (x : Nat) : Nat × Nat × Bool := (x % 2 ^ 32, x / 2 ^ 32 % 65536, x / 2 ^ 48 == 0)

/-- What placing a choice finds (23 R357). -/
inductive Place1 where
  | empty
  | noexp
  /-- a usable endpoint has a free slot -/
  | go (p : PlaneId) (w id ver : Nat)
  /-- usable endpoints, none with a free slot -/
  | full
  /-- an endpoint is away with its evicted cohort and has a free slot: the cohort's number and the strand's saved context -/
  | away (p : PlaneId) (coh idx w id ver : Nat)
  /-- an endpoint is away with its evicted cohort -/
  | hold

/-- The endpoint a choice word goes to, `pick` choosing among those with a free slot (23 R357). -/
def State.findPlace (s : State) (r : RouteEnt) (x pick : Nat) : Place1 :=
  let c := choiceOf x
  if c.2.1 == 0xFFFF then .empty
  else match (if c.2.2 then r.sets[c.2.1]? else none) with
    | none => .noexp
    | some (eps, ver) =>
      let root := s.rootOfPlane r.plane
      let us := eps.filter fun p => s.usable root r.rbytes p
      let fs := us.filter fun p => s.hasSlot p
      match fs[pick % max 1 fs.length]? with
      | some p => .go p c.1 c.2.1 ver
      | none => match eps.findSome? fun p => (s.awaySlot root r.rbytes p).map fun x => (p, x) with
        | some (p, coh, idx) => .away p coh idx c.1 c.2.1 ver
        | none => if eps.any fun p => s.awayAt root r.rbytes p then .hold else if us.isEmpty then .noexp else .full

/-- A read by the route operation: none where it meets an uncorrectable error. -/
def State.routeRead (s : State) (r : RouteEnt) (va n : Nat) : Option (List Byte × State) := s.engineRead r.xl (addrs va n)

/-- The virtual address of row i. -/
def RouteEnt.rowVa (r : RouteEnt) (i : Nat) : Nat := (((r.src : Int) + i * r.spitch) % (2 ^ 64 : Nat)).toNat

/-- Choice c of the current row delivered to p (23 R353, R357). -/
def State.deliverChoice (s : State) (r : RouteEnt) (c : Nat) (p : PlaneId) (w id ver : Nat) : State × RouteEnt :=
  match s.routeRead r (r.rowVa r.row) r.rbytes with
  | none => (s, { r with st := .released, row := r.rows })
  | some (row, s) =>
    let h : SlotHdr := ⟨w, id, r.row, c, r.e, r.plane, r.coh, r.ord, r.n, r.seq, r.rbytes, r.nout, r.rettag, ver⟩
    ((s.deliver p h row).hit r.table r.tgen id, { r with outst := r.outst ++ [⟨r.row, c, w⟩] })

/-- Choice c of the current row with its slot allocated at an evicted expert: it is outstanding, and holds the route at its row (23 R360). -/
def State.deliverHeld (s : State) (r : RouteEnt) (p : PlaneId) (coh idx w id ver : Nat) : State × RouteEnt :=
  match s.routeRead r (r.rowVa r.row) r.rbytes with
  | none => (s, { r with st := .released, row := r.rows })
  | some (row, s) =>
    let h : SlotHdr := ⟨w, id, r.row, r.choice, r.e, r.plane, r.coh, r.ord, r.n, r.seq, r.rbytes, r.nout, r.rettag, ver⟩
    ((s.deliverAway coh idx p h row).hit r.table r.tgen id, { r with outst := r.outst ++ [⟨r.row, r.choice, w⟩], holding := true })

/-- Whether a slot's delivery was of the operation of a route (23 R358). -/
def SlotHdr.isOf (h : SlotHdr) (r : RouteEnt) : Bool := r.plane == h.router && r.coh == h.rcoh && r.ord == h.rord && r.n == h.n && r.seq == h.seq

/-- The routes that deliveries to evicted experts held go on, once those are written or given up (23 R360). -/
def State.unhold (s : State) (xs : List AwayRow) : State :=
  let freed (r : RouteEnt) : Bool :=
    r.holding && xs.any fun x => x.hdr.isOf r
  { s with routes := s.routes.map fun r => if freed r then ({ r with holding := false }.advance).settle else r }

/-- The deliveries that waited for the strand of plane p of a cohort, now restored, written in the order of their slots' allocation; the
routes that they held go on (23 R360). -/
def State.landAway (s : State) (coh : Nat) (p : PlaneId) : State :=
  let mine (x : AwayRow) : Bool := x.coh == coh && x.plane == p
  let xs := s.awayRows.filter mine
  let s := xs.foldl (fun s x => match (s.plane p).inbox with | some b => s.putSlot p b x.slot x.hdr x.row | none => s) s
  ({ s with awayRows := s.awayRows.filter fun x => !mine x } : State).unhold xs

/-- The deliveries that waited for a cohort that has ended are given up: their choices stay outstanding, and the routes that they held go on
(23 R360). -/
def State.dropAway (s : State) (coh : Nat) : State :=
  ({ s with awayRows := s.awayRows.filter fun x => x.coh != coh } : State).unhold (s.awayRows.filter fun x => x.coh == coh)

/-- The spares of the current row not yet used, each with what placing it finds, until one can go (23 R357, NEXT). -/
def State.nextSpare (s : State) (r : RouteEnt) (pick : Nat) : List Nat → Option (Nat × PlaneId × Nat × Nat × Nat)
  | [] => none
  | c :: cs =>
    if r.used.contains c then s.nextSpare r pick cs
    else match s.routeRead r (r.choiceAt + 8 * (r.kt * r.row + c)) 8 with
      | none => s.nextSpare r pick cs
      | some (bs, _) => match s.findPlace r (leNat bs) pick with
        | .go p w id ver => some (c, p, w, id, ver)
        | _ => s.nextSpare r pick cs

/-- One choice placed, where it can be (23 R357). -/
def State.placeOne (s : State) (r : RouteEnt) (pick : Nat) : State :=
  match s.routeRead r (r.choiceAt + 8 * (r.kt * r.row + r.choice)) 8 with
  | none => s.setRoute { r with st := .released, row := r.rows }
  | some (bs, s) =>
    match s.findPlace r (leNat bs) pick with
    | .empty => s.setRoute r.advance.settle
    | .noexp => s.setRoute (r.mark r.row 0x40).advance.settle
    | .go p w id ver => let x := s.deliverChoice r r.choice p w id ver; x.1.setRoute (if x.2.st == .released then x.2 else x.2.advance.settle)
    | .away p coh idx w id ver => let x := s.deliverHeld r p coh idx w id ver; x.1.setRoute x.2
    | .hold => s
    | .full =>
      match r.policy with
      | 0 => s.setRoute { r.mark r.row 0x10 with drops := r.drops + 1 }.advance.settle
      | 1 =>
        match s.nextSpare r pick (indices r.k r.kt) with
        | some (c, p, w, id, ver) =>
          let x := s.deliverChoice { r with used := c :: r.used } c p w id ver
          x.1.setRoute (if x.2.st == .released then x.2 else x.2.advance.settle)
        | none => s.setRoute { r.mark r.row 0x10 with drops := r.drops + 1 }.advance.settle
      | _ => s

/-- Clk that an entry's timer has counted (23 Table 23-12). -/
def State.routeClk (s : State) (r : RouteEnt) : Nat := r.elapsed + (match r.start with | some c => s.cycle - c | none => 0)

/-- An entry released by its timer: each row with a choice unplaced or outstanding is marked (23 Table 23-12). -/
def RouteEnt.timeOut (r : RouteEnt) : RouteEnt :=
  { r with
    st := .released, timedOut := true, outst := [], holding := false
    status := r.status.mapIdx fun i b => if r.row ≤ i || r.outst.any fun o => o.row == i then Nat.lor b 0x20 else b }

/-- Whether an entry's timer, at work on it, has counted n clk and released it not yet; it is to do so at TMO, and in the clk of an event
either may come first (23 R358). -/
def State.timerAt (s : State) (r : RouteEnt) (n : Nat) : Bool :=
  r.st != .released && r.tmo != 0 && s.routerHere r && decide (n ≤ s.routeClk r)
/-- The entry as its timer has left it by now (23 R358, Table 23-12). -/
def State.timed (s : State) (r : RouteEnt) : RouteEnt := if s.timerAt r (r.tmo + 1) then r.timeOut else r
/-- An entry that its timer releases, its OUT cleared if it was not yet (23 R357, Table 23-12). -/
def State.releaseRoute (s : State) (r : RouteEnt) : State :=
  (if r.cleared then s else s.clearOut r).setRoute { r.timeOut with cleared := true }

/-- Event ROUTE_PLACEMENT: OUT is cleared, then the next choice is placed by the policy (23 R357); nothing once the timer has run out. -/
def execRoutePlacement (core : CoreId) (e pick : Nat) (s : State) : Out :=
  .next (match s.route? core e with
    | none => s
    | some r =>
      if r.st != .routing || !s.routerHere r then s
      else if s.timerAt r (r.tmo + 1) then s.releaseRoute r
      else if !r.cleared then (s.clearOut r).setRoute { r with cleared := true }
      else if r.holding then s
      else s.placeOne r pick)

/-- Event ROUTE_WAIT_DELIVERY: under WAIT, a choice that waited is delivered once a usable endpoint has a free slot (23 R357). -/
def execRouteWaitDelivery (core : CoreId) (e pick : Nat) (s : State) : Out :=
  .next (match s.route? core e with
    | none => s
    | some r =>
      if r.st != .routing || !s.routerHere r || !r.cleared || r.policy != 2 || r.holding then s
      else if s.timerAt r (r.tmo + 1) then s.releaseRoute r
      else match s.routeRead r (r.choiceAt + 8 * (r.kt * r.row + r.choice)) 8 with
        | none => s
        | some (bs, s') => match s'.findPlace r (leNat bs) pick with
          | .go p w id ver => let x := s'.deliverChoice r r.choice p w id ver; x.1.setRoute (if x.2.st == .released then x.2 else x.2.advance.settle)
          | _ => s)

/-- Event ROUTE_TIMEOUT: the timer has reached TMO; each row with a choice unplaced or outstanding is marked (23 Table 23-12). -/
def execRouteTimeout (core : CoreId) (e : Nat) (s : State) : Out :=
  .next (match s.route? core e with
    | none => s
    | some r => if s.timerAt r r.tmo then s.releaseRoute r else s)

/-- Whether eviction may stop a route where it stands: at a row boundary (23 R360, 17 Table 17-7, log 69). -/
def RouteEnt.mayStop (r : RouteEnt) : Bool := r.st != .routing || (r.choice == 0 && !r.holding)

/-- Event ROUTE_COMPLETE: STAT is written, the entry becomes FREE, and the completion is counted (23 Table 23-12). -/
def execRouteComplete (core : CoreId) (e : Nat) (s : State) : Out :=
  .next (match s.route? core e with
    | none => s
    | some r =>
      if r.st != .released || !s.routerHere r then s
      else
        let s := match s.heldPlaces r.xl (addrs r.stat r.rows) with
          | some ps => (s.pressTouch ps).writePlaces ps (r.status.map fun b => BitVec.ofNat 8 b)
          | none => s
        ({ s with routes := s.routes.filter fun q => !(q.core == core && q.e == e) } : State).completeOp r.plane r.n r.seq)

/-! ### Returns -/

/-- The slot that a local-window address names, handed out by RECV and not yet returned. -/
def Inbox.handedAt (b : Inbox) (x : Nat) : Option (Nat × SlotHdr) :=
  (List.range b.slots.length).findSome? fun k =>
    if b.slotVa k == x then (match b.slots[k]? with | some (.handed h) => some (k, h) | _ => none) else none

/-- RRET and RRET.ERR (23 R355). -/
def opRret (w : IWord) (a : Option XReg) (b : XReg) (n : TReg) (s : State) : State :=
  match s.me.inbox with
  | none => s.illOp w
  | some ib =>
    match ib.handedAt (s.getX b).toNat with
    | none => s.illOp w
    | some (k, h) =>
      let bytes := h.nout * (if h.rettag == 0x0A then 4 else 2)
      let row := match a with | some r => (s.getX r).toNat | none => 0
      match (match a with | some _ => s.walkRange s.myAgent .read row bytes | none => .ok []) with
      | .error e => s.memTrap e
      | .ok xl =>
        if !s.canIssue n 1 then s.illOp w
        else if !s.releaseReady then s
        else match s.localPlaces (ib.slotVa k) ib.slotBytes with
          | .error e => s.memTrap e
          | .ok ps =>
            (((s.emptyAll ps).modMe fun p => { p with inbox := some { ib with slots := ib.slots.set k .free } }).issueOp n
              (.rret h row a.isNone xl)).advance 4
/-- RRET (23 R355). -/
def execRret (a b : XReg) (n : TReg) (s : State) : Out := .next (opRret (packR 51#6 0#5 a b 4#5 (0#2 ++ n)) (some a) b n s)
/-- RRET.ERR (23 R355). -/
def execRretErr (b : XReg) (n : TReg) (s : State) : Out := .next (opRret (packR 51#6 0#5 0#5 b 4#5 (1#2 ++ n)) none b n s)

/-- The elements of a result row as values (23 R358). -/
def returnValues (rettag : Nat) (n : Nat) (bs : List Byte) : List FVal :=
  if rettag == 0x0A then (unitsOf 4 n bs).map Fp.fp32.value else (unitsOf 2 n bs).map Fp.bf16.value

/-- A return applied to OUT: one rounding to FP32, to nearest even, an element (23 R358). Elements that are poisoned stay so (27 R400). -/
def State.applyReturn (s : State) (r : RouteEnt) (o : Outst) (vals : List FVal) : State :=
  match s.heldPlaces r.xl (addrs (r.out + o.row * r.opitch) (4 * r.nout)) with
  | none => s
  | some ps =>
    let old := unitsOf 4 r.nout (ps.map fun p => s.byte p.pa)
    let w := Fp.fp32.value o.weight
    let new := (old.zip vals).map fun x => (Fp.fp32.round .rne false (fpFma .rne w x.2 (Fp.fp32.value x.1)).1).1
    let put := (ps.zip (new.flatMap fun v => leBytes 4 v)).filter fun x => !s.unreadable x.1.pa
    s.writePlaces (put.map (·.1)) (put.map (·.2))

/-- Whether the cohort of a delivery's router exists and satisfies a test. -/
def State.routerCohort (s : State) (h : SlotHdr) (f : Cohort → Bool) : Bool := s.cohorts.any fun c => c.num == h.rcoh && c.order == h.rord && f c

/-- Event RETURN_APPLY: the return of an RRET is applied to OUT where its choice is outstanding, or discarded as late (23 R358); while the
router is evicted it waits (23 R360). -/
def execReturnApply (p : PlaneId) (n : TReg) (seq : Nat) (s : State) : Out :=
  .next (match s.op? p n seq with
    | none => s
    | some op => match op.kind with
      | .rret h row err xl =>
        let bytes := h.nout * (if h.rettag == 0x0A then 4 else 2)
        match (if err then some ([], s) else s.engineRead xl (addrs row bytes)) with
        | none => s.completeOp p n seq
        | some (bs, s') =>
          if s'.routerCohort h (·.st == .evicted) then s
          else
            let late (s : State) : State :=
              if (s.plane h.router).st != .free && (s.plane h.router).coh == h.rcoh && s.routerCohort h (fun _ => true) then s.modPlane h.router fun q => { q with late := q.late + 1 } else s
            match s'.routes.find? h.isOf with
            | none => (late s').completeOp p n seq
            | some r =>
              let s' := if s'.timerAt r (r.tmo + 1) then s'.releaseRoute r else s'
              let r := s'.timed r
              match r.outst.find? fun o => o.row == h.row && o.choice == h.choice with
              | none => (late s').completeOp p n seq
              | some o =>
                let s2 := if err then s' else s'.applyReturn r o (returnValues h.rettag h.nout bs)
                let r' := { r.mark o.row (if err then 0x80 else 2 ^ o.choice) with outst := r.outst.erase o, done := r.done + 1 }
                (s2.setRoute r'.settle).completeOp p n seq
      | _ => s)

/-! ### Status -/

/-- The value RSTAT writes (23 Table 23-14). -/
def RouteEnt.word (r : RouteEnt) : Nat :=
  2 ^ 63 + (match r.st with | .routing => 1 | .waiting => 2 | .released => 3) * 2 ^ 60 + b2n r.timedOut * 2 ^ 59 + r.drops % 4096 * 2 ^ 36 +
    r.outst.length % 4096 * 2 ^ 24 + r.done % 4096 * 2 ^ 12 + (r.rows - 1)

/-- RSTAT (23 R361). -/
def execRstat (d a : XReg) (s : State) : Out :=
  .next (s.retX d (match s.route? (coreOf s.cur) (s.getX a).toNat with
    | some r => if r.plane == s.cur then BitVec.ofNat 64 (s.timed r).word else 0
    | none => 0) 4)
/-- RSTAT.LATE: the late count (23 R361). -/
def execRstatLate (d : XReg) (s : State) : Out := .next (s.retX d s.me.late 4)

end Sys2Proof.Machine
end

