-- ==== Sys2Proof/Machine/Cohort.lean ====
section
/-! DEFINITION. Launches, the launch scheduler, saved contexts and retirement (05 R50 to R69, R402; 11 R166 to R169, R175; 17 R262 to
R268). -/
namespace Sys2Proof.Machine

/-! ### Launch records -/

/-- Bytes of a launch record from its header (05 R50). -/
def recordBytes (h : List Byte) : Nat := 128 + 64 * fieldAt h 7 1 + 8 * fieldAt h 0x21 1

/-- The launch record that bytes hold; none where it breaks a limit of 05 Table 5-3 or 5-4 (FORMAT). -/
def launchRec? (bs : List Byte) : Option LaunchRec :=
  let f (o n : Nat) : Nat := fieldAt bs o n
  let ng := f 7 1
  let nwm := f 0x21 1
  let wms := (List.range nwm).map fun i => f (128 + 64 * ng + 8 * i) 8
  let save := f 0x18 8
  if f 0 2 != 1 || 24 ≤ f 2 1 || 4 ≤ f 3 1 || f 4 2 < 1 || 512 < f 4 2 || f 6 1 < 1 || 32 < f 6 1 || f 8 8 % 4 != 0 || save % 65536 != 0 ||
      32 < f 0x20 1 || 16 < nwm || !zeroAt bs 0x22 6 || !zeroAt bs 0x38 8 || wms.any fun w => 1024 ≤ w || w / 64 % 4 != 0 then none
  else some {
    level := f 2 1, slevel := f 3 1 % 2 == 1, align := f 3 1 / 2 == 1, nstrand := f 4 2, weight := f 6 1,
    entry := BitVec.ofNat 64 (f 8 8), xroot := BitVec.ofNat 64 (f 0x10 8), savearea := BitVec.ofNat 64 save, quota := f 0x20 1,
    coreset := BitVec.ofNat 128 (f 0x28 16)
    args := (List.range 8).map fun i => BitVec.ofNat 64 (f (0x40 + 8 * i) 8)
    groups := (List.range ng).map fun i => BitVec.ofNat 512 (f (128 + 64 * i) 64)
    wms := wms.map fun w => (w % 64, w / 256 % 2 == 1, w / 512 % 2 == 1) }

/-- The cores that CORESET allows (05 Table 5-3). -/
def LaunchRec.cores (r : LaunchRec) : List CoreId :=
  (List.finRange 128).filter fun c => r.coreset = 0 || r.coreset.getLsbD c.val

/-- Whether a launch can never be placed (05 Table 5-5, NOFIT). -/
def LaunchRec.nofit (r : LaunchRec) : Bool :=
  let c := r.cores.length
  let k := if r.align then 1 else (r.nstrand + c - 1) / c
  decide ((if r.align then c else 4 * c) < r.nstrand) || decide (32 < r.quota * k) || decide (32 < r.weight * k)

/-- The members of a group descriptor. -/
def LaunchRec.ranks (r : LaunchRec) (g : BitVec 512) : List Nat := (List.range r.nstrand).filter fun i => g.getLsbD i

/-- Whether the groups break 05 Table 5-5 (GROUPS). -/
def LaunchRec.badGroups (r : LaunchRec) : Bool :=
  r.groups.any (fun g => g == 0 || decide (2 ^ r.nstrand ≤ g.toNat)) ||
    (List.range r.nstrand).any fun i => 4 < (r.groups.filter fun g => g.getLsbD i).length

/-- Whether the watermark entries break 05 Table 5-5 (WMARK). -/
def LaunchRec.badMarks (r : LaunchRec) : Bool :=
  r.wms.any (fun w => w.2.2 && !w.2.1) || !(r.wms.map (·.1)).Nodup

/-- The status of the checks that follow the reading of a record, but for those of the completion word and BUSY (05 R402); `user` is the
ROOT that a U-level launch must carry (11 R168). -/
def LaunchRec.status (r : LaunchRec) (user : Option Nat) : Nat :=
  let priv := match user with
    | none => false
    | some root => 20 ≤ r.level || r.slevel || rootOf r.xroot != root
  if priv then 2 else if r.nofit then 3 else if r.badGroups then 4 else if r.badMarks then 5 else 0

/-- Whether a level has room for one more waiting launch (05 R52). -/
def State.levelFull (s : State) (level : Nat) : Bool :=
  decide (64 ≤ (s.cohorts.filter fun k => k.st == .waiting && k.rcd.level == level).length)

/-- A launch is queued: it takes the lowest free cohort number (05 R54); none where no number is free, which the callers answer with BUSY.
DESIGN CHOICE (log 63). -/
def State.submit (s : State) (r : LaunchRec) (l : Launcher) : Option (Nat × State) :=
  ((List.range 0xFFFF).find? fun n => s.cohorts.all fun k => k.num != n).map fun n =>
    (n, { s with
      nextOrder := s.nextOrder + 1
      cohorts := s.cohorts ++ [⟨n, .waiting, r, l, s.nextOrder, 0, [], [], [], List.replicate r.nstrand 0, [], none⟩] })

/-- The physical address of a completion word for the issuing strand, wherever its frame is now, or the status that refuses it (11 R167,
07 R83). -/
def State.wordPlace (s : State) (va : Word) : Except Nat (Option Nat) :=
  if va = 0 then .ok none
  else if va.toNat % 8 != 0 then .error 1
  else match s.frameOf s.myAgent va.toNat .write false with
    | .error _ => .error 6
    | .ok f => .ok (some ({ f with base := f.phys }.place va.toNat).pa)

/-- LAUNCH (11 R166 to R168). DESIGN CHOICE (log 63): BUSY where no cohort number is free. -/
def execLaunch (d a b : XReg) (n : TReg) (s : State) : Out :=
  let xa := s.getX a
  let st (c : Nat) (s : State) : State := s.retX d (BitVec.ofNat 64 c) 4
  .next (
    if !s.releaseReady then s
    else if xa.toNat % 64 != 0 then st 1 s
    else match s.readBytes xa 128 with
      | .error .behind => s
      | .error _ => st 6 s
      | .ok (h, s1) => match s1.readBytes xa (recordBytes h) with
        | .error .behind => s
        | .error _ => st 6 s
        | .ok (bs, s2) => match launchRec? bs with
          | none => st 1 s2
          | some r =>
            let c := r.status (if s2.me.level == .u then some (rootOf s2.me.xroot) else none)
            if c != 0 then st c s2
            else match s2.wordPlace (s2.getX b) with
              | .error e => st e s2
              | .ok word =>
                if s2.levelFull r.level then st 7 s2
                else if !s2.canIssue n 1 then s.illOp (encodeLast (.launch d a b n))
                else match s2.submit r (.strand s2.me.coh word) with
                  | none => st 7 s2
                  | some (_, s3) => st 0 (s3.issueOp n (.launch s2.nextOrder)))

/-! ### Placement -/

/-- The planes of core c that hold a strand of a cohort not among those gone. -/
def State.heldOn (s : State) (gone : List Nat) (c : CoreId) : List Plane :=
  (planeIdx.map fun i => s.plane (planeOf c i)).filter fun p => p.st != .free && !gone.contains p.coh

/-- Whether plane p is FREE, the cohorts gone left aside. -/
def State.freeBut (s : State) (gone : List Nat) (p : PlaneId) : Bool := (s.plane p).st == .free || gone.contains (s.plane p).coh

/-- Whether a partition of the planes listed covers a 64 KiB unit. -/
def coversUnit (ps : List Plane) (u : Nat) : Bool := ps.any fun p => decide (p.qbase ≤ u ∧ u < p.qbase + p.qsize)

/-- How many contiguous ranges of q units the free units from u on hold, `run` free ones standing before u (05 R56). -/
def freeRanges (busy : Nat → Bool) (q : Nat) : (n u run : Nat) → Nat
  | 0, _, _ => 0
  | n + 1, u, run =>
    if busy u then freeRanges busy q n (u + 1) 0
    else if q ≤ run + 1 then freeRanges busy q n (u + 1) 0 + 1
    else freeRanges busy q n (u + 1) (run + 1)

/-- How many strands of a launch core c can take (05 R55, R56). -/
def State.roomOn (s : State) (gone : List Nat) (r : LaunchRec) (c : CoreId) : Nat :=
  let held := s.heldOn gone c
  let w := held.foldl (fun a p => a + p.weight) 0
  let ranges := if r.quota == 0 then 4 else freeRanges (coversUnit held) r.quota 32 0 0
  min (4 - held.length) (min ((32 - w) / max 1 r.weight) ranges)

/-- Whether the planes, partitions and weights for a launch are free somewhere (05 R55, R56). -/
def State.planesFor (s : State) (gone : List Nat) (r : LaunchRec) : Bool :=
  if r.align then
    planeIdx.any fun i => decide (r.nstrand ≤ (r.cores.filter fun c => s.freeBut gone (planeOf c i) && decide (0 < s.roomOn gone r c)).length)
  else decide (r.nstrand ≤ (r.cores.map (s.roomOn gone r)).foldl (· + ·) 0)

/-- Whether the cohort exists: admitted and not retired. -/
def Cohort.isAdmitted (k : Cohort) : Bool := k.st != .waiting

/-- Whether group entries and producer bindings for a launch are free (05 R55). -/
def State.tablesFor (s : State) (r : LaunchRec) : Bool :=
  decide (r.groups.length ≤ (s.groups.toList.filter fun g => g.owner.isNone).length) &&
    r.wms.all fun w => !w.2.1 || s.cohorts.all fun k => !k.isAdmitted || k.rcd.wms.all fun v => !(v.1 == w.1 && v.2.1)

/-- The images of a parked context that take coefficient bytes (19 R299). -/
def EngCtx.images (e : EngCtx) : List StreamImage :=
  (match e.pl.fab.bound with | some b => [b.2] | none => []) ++
    e.ops.filterMap fun o => match o.kind with | .sload _ m => some m | _ => none

/-- Coefficient bytes of a parked context in station t. -/
def EngCtx.coefBytes (e : EngCtx) (t : Nat) : Nat := e.images.foldl (fun a m => max a ((m.bytesIn t).getD 0)) 0

/-- Whether the core-shared resources of saved contexts are free beside those of other planes of their core: window-store bytes, the matrix
binding, coefficient bytes (05 R62). -/
def State.sharedFits (s : State) (others : List PlaneId) (xs : List EngCtx) : Bool :=
  decide (others.foldl (fun a p => a + (s.plane p).windowBytes) 0 + xs.foldl (fun a x => a + x.pl.windowBytes) 0 ≤ 65536) &&
    (!(xs.any fun x => x.pl.mx.isSome) || others.all fun p => (s.plane p).mx.isNone) &&
    (List.range 48).all fun t =>
      let need := xs.foldl (fun a x => a + x.coefBytes t) 0
      need == 0 || decide (need + others.foldl (fun a p => a + s.coefBytes p t) 0 ≤ 8192)

/-- Whether an evicted cohort can resume, the cohorts gone left aside: its planes, ranges and weights, and the core-shared resources of
05 R62 (05 R56). -/
def State.canResume (s : State) (gone : List Nat) (k : Cohort) : Bool :=
  let cs := s.parkedOf k
  let mine (c : CoreId) : List (PlaneId × Nat × EngCtx) := cs.filter fun x => coreOf x.1 == c
  cs.all (fun x => s.freeBut gone x.1 && (List.range k.rcd.quota).all fun u => !coversUnit (s.heldOn gone (coreOf x.1)) (x.2.1 + u)) &&
  (List.finRange 128).all fun c =>
    let xs := mine c
    xs.isEmpty ||
      (decide ((s.heldOn gone c).foldl (fun a p => a + p.weight) 0 + xs.length * k.rcd.weight ≤ 32) &&
        s.sharedFits ((planeIdx.map (planeOf c)).filter fun p => !s.freeBut gone p) (xs.map (·.2.2)))

/-- Whether a launch or evicted cohort can be placed, the cohorts gone left aside (05 R55, R56). -/
def State.canPlace (s : State) (gone : List Nat) (k : Cohort) : Bool :=
  match k.st with
  | .waiting => s.planesFor gone k.rcd && s.tablesFor k.rcd
  | .evicted => s.canResume gone k
  | .resident => false

/-- The order of what waits: level first, evicted cohorts before launches, then first admission or submission (05 R52, R61). -/
def Cohort.before (a b : Cohort) : Bool :=
  if a.rcd.level != b.rcd.level then decide (b.rcd.level < a.rcd.level)
  else if (a.st == .evicted) != (b.st == .evicted) then a.st == .evicted
  else if a.st == .evicted then decide (a.admitted < b.admitted)
  else decide (a.order < b.order)

/-- What the scheduler considers: the first of all that wait (05 R52, R61). -/
def State.head (s : State) : Option Cohort :=
  (s.cohorts.filter fun k => k.st != .resident && k.ended.isNone).foldl (fun b k => match b with
    | none => some k
    | some j => if k.before j then some k else some j) none

/-- Candidate victims below a level in the order of 05 R60. -/
def State.candidates (s : State) (level : Nat) : List Cohort :=
  (s.cohorts.filter fun k => k.st == .resident && decide (k.rcd.level < level)).mergeSort fun a b =>
    if a.rcd.level != b.rcd.level then decide (a.rcd.level ≤ b.rcd.level) else decide (b.admitted ≤ a.admitted)

/-- The shortest prefix of candidates after whose eviction what waits can be placed (05 R60). -/
def State.prefixFor (s : State) (k : Cohort) : List Cohort → List Nat → Option (List Nat)
  | [], gone => if s.canPlace gone k then some gone else none
  | c :: cs, gone => if s.canPlace gone k then some gone else s.prefixFor k cs (gone ++ [c.num])

/-- The cohorts that the scheduler evicts for what waits first (05 R60). -/
def State.victims (s : State) : List Nat :=
  match s.head with
  | none => []
  | some k => (s.prefixFor k (s.candidates k.rcd.level) []).getD []

/-! ### Admission -/

/-- Physical address of a unit of a core's scratchpad. -/
def State.unitAddr (s : State) (c : CoreId) (u : Nat) : Nat := s.pkg * pkgSpan + coreSpad c.val + u * 65536

/-- Bytes of plain memory from a on replaced, in canonical form. -/
def Memory.putBlock (cs : List Host.Cell) (a : Nat) (bs : List Byte) : List Host.Cell :=
  (cs.filter fun x => decide (x.1 < a)) ++ (bs.mapIdx fun i b => (a + i, b)).filter (fun x => x.2 != 0) ++
    cs.filter fun x => decide (a + bs.length ≤ x.1)

/-- Numbers lo to hi − 1 of a rising list replaced by those of a rising list. -/
def SortedNat.putRange (xs : List Nat) (lo hi : Nat) (ys : List Nat) : List Nat :=
  xs.filter (fun x => decide (x < lo)) ++ ys ++ xs.filter fun x => decide (hi ≤ x)

/-- A partition written whole: its bytes, the granules that are FULL, the blocks whose zero-summary bit is clear (07 R82, 17 R265). -/
def State.putPartition (s : State) (c : CoreId) (base size : Nat) (bs : List Byte) (full clear : List Nat) : State :=
  let a := s.unitAddr c base
  let n := size * 65536
  { s.noteWrite a bs.length with
    mem := Memory.putBlock s.mem a bs
    full := SortedNat.putRange s.full (a / 16) ((a + n) / 16) (full.map (a / 16 + ·))
    zsClear := SortedNat.putRange s.zsClear (a / 256) ((a + n) / 256) (clear.map (a / 256 + ·))
    poison := s.poison.filter fun x => x < a || a + n ≤ x }

/-- GRPS of a rank from the entries of its groups in descriptor order (05 Table 5-6). -/
def grpsOf (r : LaunchRec) (entries : List Nat) (rank : Nat) : Word :=
  let mine := ((r.groups.zip entries).filter fun x => x.1.getLsbD rank).map (·.2)
  BitVec.ofNat 64 (mine.zipIdx.foldl (fun a x => a + x.1 * 2 ^ (8 * x.2) + 2 ^ (32 + x.2)) 0)

/-- QUOTA of a partition (07 Table 7-6). -/
def quotaOf (size base : Nat) : Word := BitVec.ofNat 64 (size + (if size == 0 then 0 else base * 2 ^ 32))
/-- PRIO of a cohort's strands (05 Table 5-7). -/
def prioOf (r : LaunchRec) (num : Nat) : Word := BitVec.ofNat 64 (num * 2 ^ 32 + r.weight * 256 + r.level)

/-- A strand as it begins (05 Table 5-2). -/
def startPlane (k : Cohort) (rank base : Nat) (entries : List Nat) : Plane :=
  let args := k.rcd.args.zipIdx.foldl (fun (p : Plane) x => p.setX (BitVec.ofNat 5 (10 + x.2)) x.1) (Plane.reset.setX 9 (BitVec.ofNat 64 rank))
  { args with
    st := .runnable, coh := k.num, rank := rank, pc := k.rcd.entry, level := if k.rcd.slevel then .s else .u
    grps := grpsOf k.rcd entries rank, prio := prioOf k.rcd k.num, xroot := (Plane.reset.writeXroot k.rcd.xroot).xroot
    quota := quotaOf k.rcd.quota base, events := (k.posts[rank]?).getD 0 }

/-- Whether planes and bases satisfy 05 R55 and R56 for a launch. -/
def State.placeOk (s : State) (r : LaunchRec) (ps : List PlaneId) (bs : List Nat) : Bool :=
  let zs := ps.zip bs
  decide (ps.length = r.nstrand) && decide (bs.length = r.nstrand) && decide (ps.Pairwise (· < ·)) &&
  ps.all (fun p => r.cores.contains (coreOf p) && (s.plane p).st == .free) &&
  (!r.align || ps.all fun p => some (p.val % 4) == (ps.head?.map fun q => q.val % 4)) &&
  zs.all (fun x => decide (x.2 + r.quota ≤ 32) && (r.quota != 0 || x.2 == 0) &&
    (List.range r.quota).all fun u => !coversUnit (s.heldOn [] (coreOf x.1)) (x.2 + u)) &&
  zs.all (fun x => zs.all fun y => x.1 == y.1 || coreOf x.1 != coreOf y.1 || x.2 + r.quota ≤ y.2 || y.2 + r.quota ≤ x.2) &&
  (List.finRange 128).all fun c =>
    let n := (ps.filter fun p => coreOf p == c).length
    n == 0 || decide ((s.heldOn [] c).foldl (fun a p => a + p.weight) 0 + n * r.weight ≤ 32)

/-- The watermarks that an admission resets (05 R68, 15 R231). -/
def State.resetMarks (s : State) (r : LaunchRec) : State :=
  r.wms.foldl (fun s w =>
    if w.2.2 then
      let i : Fin 64 := ⟨w.1 % 64, Nat.mod_lt _ (by decide)⟩
      { s with wms := s.wms.set i ⟨((s.wms.get i).gen + 1) % 65536, 0, []⟩ }
    else s) s

/-- A cohort admitted on planes with bases: groups, partitions, watermarks, strands (05 R53, R55, R68; 07 R82). DESIGN CHOICE (log 62): the
generation of a group entry begins at 0. -/
def State.admitCohort (s : State) (k : Cohort) (ps : List PlaneId) (bs : List Nat) : State :=
  let free := ((List.range 256).filter fun e => (s.group e).owner.isNone).take k.rcd.groups.length
  let s := (k.rcd.groups.zip free).foldl (fun s x =>
    let members := (k.rcd.ranks x.1).filterMap fun r => ps[r]?
    s.setGroup x.2 ⟨some k.num, members, 0, [], false⟩) s
  let s := s.resetMarks k.rcd
  let s := (ps.zip bs).zipIdx.foldl (fun s x =>
    let s := s.putPartition (coreOf x.1.1) x.1.2 k.rcd.quota (List.replicate (k.rcd.quota * 65536) 0) [] []
    s.setPlane x.1.1 (startPlane k x.2 x.1.2 free)) s
  let s := s.modCohort k.num fun k => { k with
    st := .resident, admitted := s.nextOrder, planes := ps, bases := bs, entries := free, posts := k.posts.map fun _ => 0 }
  { s with nextOrder := s.nextOrder + 1 }

/-- Event ADMISSION: the launch that waits first is admitted on a placement that 05 R55 permits. -/
def execAdmission (planes : List PlaneId) (bases : List Nat) (s : State) : Out :=
  .next (match s.head with
    | none => s
    | some k => if s.doomed.isEmpty && k.st == .waiting && s.tablesFor k.rcd && s.placeOk k.rcd planes bases then s.admitCohort k planes bases else s)

/-! ### Saved contexts -/

/-- n bytes, the given ones first and zeros after. -/
def padBytes (n : Nat) (bs : List Byte) : List Byte := bs.take n ++ List.replicate (n - bs.length) 0

/-- The low n bytes of a bit vector. -/
def bvBytes {w : Nat} (n : Nat) (v : BitVec w) : List Byte := leBytes n v.toNat

/-- The code of an F format tag in a save area (09 R106). -/
def fmtCode (f : FFmt) : Nat := match f with | .f64 => 0 | .f32 => 1 | .f16 => 2 | .bf16 => 3
/-- The format tag of a code. -/
def fmtOf (n : Nat) : FFmt := match n % 4 with | 0 => .f64 | 1 => .f32 | 2 => .f16 | _ => .bf16
/-- The code of the state of XAC (03 R37). -/
def xacCode (x : XacState) : Nat := match x with | .fin => 0 | .pinf => 1 | .ninf => 2 | .nan => 3
/-- The state of a code. -/
def xacOf (n : Nat) : XacState := match n % 4 with | 0 => .fin | 1 => .pinf | 2 => .ninf | _ => .nan

/-- Whether a wait is that of a GBAR that has arrived, and its generation. -/
def Plane.barrier (p : Plane) : Option Bool := match p.wait with | some (.gbar _ g) => some g | _ => none

/-- The header of a save area (17 Table 17-9). -/
def Plane.header (p : Plane) (id : PlaneId) (crc : Nat) : List Byte :=
  let flags := 1 + 2 * b2n (p.level == .s) + 4 * b2n p.wait.isSome + 8 * b2n p.barrier.isSome
  padBytes 256 (leBytes 2 1 ++ leBytes 1 flags ++ leBytes 1 (b2n (p.barrier == some true)) ++ leBytes 2 p.rank ++ leBytes 2 id.val ++
    leBytes 2 p.coh ++ leBytes 1 p.qsize ++ leBytes 1 (xacCode p.xacSt) ++ leBytes 4 crc ++ bvBytes 8 p.pc ++ bvBytes 8 p.events)

/-- The entries that a save area lists, its 64 slots taking the first of them (17 R262, R264). DESIGN CHOICE (log 75): those of a trap frame
come before those of the vector queue. -/
def Plane.savedEntries (p : Plane) : List VEntry := p.resume ++ p.vq

/-- The first 64 KiB of a save area (17 Table 17-8). -/
def Plane.firstFrame (p : Plane) (id : PlaneId) (crc : Nat) : List Byte :=
  let fmts := (p.f.toList.zipIdx.map fun x => fmtCode x.1.fmt * 4 ^ x.2).foldl (· + ·) 0
  let regs := [p.fcsr, p.fex0, p.fex1, p.tvec, p.tcause, p.tpc, p.tval, p.tstat, p.xroot].flatMap (bvBytes 8)
  padBytes 65536 (
    p.header id crc ++
    (List.range 32).flatMap (fun i => bvBytes 8 (p.getX (BitVec.ofNat 5 i))) ++
    p.f.toList.flatMap (fun r => bvBytes 8 r.bits) ++
    padBytes 128 (regs ++ leBytes 8 (cfgWord p.lg p.tag p.vl) ++ leBytes 8 (fmts * 2 ^ 32 + p.qnext.toNat)) ++
    p.t.toList.flatMap (fun t => leBytes 8 t.value ++ leBytes 8 t.issue) ++
    padBytes 1024 (bvBytes 544 p.xac) ++
    padBytes 2048 ((p.savedEntries.take 64).flatMap fun e => (List.range 4).flatMap fun w => bvBytes 8 (e.word w)) ++
    p.m.toList.flatMap (bvBytes 1024) ++
    padBytes 4096 (p.tags.toList.flatMap (bvBytes 8)) ++
    p.v.toList.flatMap (fun v => bvBytes 512 v.data) ++
    p.v.toList.flatMap (fun v => bvBytes 32 v.side) ++
    p.v.toList.flatMap fun v => bvBytes 1 v.tag.code)

/-- Bits packed into bytes, bit g of the list at byte g div 8. -/
def packBits : List Bool → List Byte
  | a :: b :: c :: d :: e :: f :: g :: h :: rest =>
    BitVec.ofNat 8 (b2n a + 2 * b2n b + 4 * b2n c + 8 * b2n d + 16 * b2n e + 32 * b2n f + 64 * b2n g + 128 * b2n h) :: packBits rest
  | _ => []

/-- The first bytes of the engine and fabric region: the number of the parked context, and one more (17 R266). -/
def engineBytes (index : Nat) : List Byte := leBytes 8 (index + 1)
/-- CRC-32C of an engine and fabric region that begins with the bytes given. -/
def engineCrc (bs : List Byte) : Nat := crc32c (padBytes 0xF0000 bs)

/-- The 64 frames of a save area for a strand (17 Table 17-8). -/
def State.areaFrame (s : State) (p : Plane) (id : PlaneId) (index k : Nat) : List Byte :=
  let a := s.unitAddr (coreOf id) p.qbase
  if k == 0 then p.firstFrame id (engineCrc (engineBytes index))
  else if k == 1 then padBytes 65536 (engineBytes index)
  else if 16 ≤ k && k < 16 + p.qsize then s.physBytes (a + (k - 16) * 65536) 65536
  else if k == 48 then
    let fe := packBits ((List.range (p.qsize * 4096)).map fun g => s.full.contains (a / 16 + g))
    let zs := packBits ((List.range (p.qsize * 256)).map fun b => !s.zsClear.contains (a / 256 + b))
    padBytes 65536 (padBytes 16384 fe ++ zs)
  else List.replicate 65536 0

/-- The places of a 64 KiB frame. -/
def Frame.places (f : Frame) : List Place := (List.range 65536).map f.place

/-- The pending pairs of the lines of a frame applied. -/
def State.frameTouched (s : State) (f : Frame) : State := s.applyKeys fun k => f.base ≤ k.pa && k.pa < f.base + 65536

/-- A 64 KiB frame written whole, pending pairs of its lines applied before. -/
def State.writeFrame (s : State) (f : Frame) (bs : List Byte) : State :=
  let s := s.frameTouched f
  if f.kind == .plain && !f.tiled then
    { s.noteWrite f.base 65536 with mem := Memory.putBlock s.mem f.base bs, poison := s.poison.filter fun x => x < f.base || f.base + 65536 ≤ x }
  else s.writePlaces f.places bs

/-- The 64 KiB frame of a virtual address read whole, or the address at which it meets an uncorrectable error or a failed message. -/
def State.readFrame (s : State) (va : Nat) (f : Frame) : Except Word (List Byte × State) :=
  ((s.frameTouched f).readPlaces va f.places).map (·, s.frameTouched f)

/-- The offset of the first poisoned granule of the partition of plane id (27 R400). -/
def State.partitionPoison (s : State) (id : PlaneId) (p : Plane) : Option Nat :=
  let a := s.unitAddr (coreOf id) p.qbase
  (s.poison.find? fun x => decide (a ≤ x) && decide (x < a + p.qsize * 65536)).map (· - a)

/-- The frames of the save area of a strand of a cohort, RAW with R and W permission at S level; none where one is not (17 R268). -/
def State.areaFrames (s : State) (root area : Nat) : Option (List Frame) :=
  (List.range 64).mapM fun k =>
    let va := area + k * 65536
    match s.walk va 5 4 root, s.frameUnder root .s va .rmw false with
    | .ok l, .ok f => if 2 ^ 57 ≤ va || l.form != 0 || (f.base / pkgSpan != s.pkg && s.failing.contains (f.base / pkgSpan)) then none else some f
    | _, _ => none

/-- A context written to frames, the engine and fabric region standing for a parked context (17 R264, R266). -/
def State.saveTo (s : State) (fs : List Frame) (p : Plane) (id : PlaneId) (ops : List AOp) (routes : List RouteEnt) : State × Nat :=
  let index := s.parked.length
  let images := (List.range 64).map (s.areaFrame p id index)
  let s : State := { s with parked := s.parked ++ [⟨p, ops, routes⟩] }
  ((fs.zip images).foldl (fun s x => s.writeFrame x.1 x.2) s, index)

/-- The context that a save area's engine and fabric region stands for, where its OCRC matches (17 R266). -/
def State.parkedIn (s : State) (frames : List (List Byte)) : Option EngCtx :=
  let first := (frames[0]?).getD []
  let region := (frames.drop 1).take 15
  let crc := (~~~(region.foldl (fun c bs => bs.foldl crcByte c) (BitVec.allOnes 32))).toNat
  let h := fieldAt ((region[0]?).getD []) 0 8
  if fieldAt first 0x0C 4 != crc || h == 0 then none else s.parked[h - 1]?

/-- A resume entry as the save area has it, over what the machine keeps besides (17 Table 17-6). -/
def VEntry.reload (e : VEntry) (bs : List Byte) : VEntry :=
  let w0 := fieldAt bs 0 8
  let w1 := fieldAt bs 8 8
  { e with
    w := BitVec.ofNat 32 (w0 / 2 ^ 32), prog := w0 / 2 ^ 16 % 65536, qpos := BitVec.ofNat 16 w0
    pfx := if w1 / 2 ^ 37 % 2 == 1 then some (BitVec.ofNat 26 (w1 / 2 ^ 38)) else none
    sat := w1 / 2 ^ 35 % 2 == 1, rm := BitVec.ofNat 3 (w1 / 2 ^ 32), lg := BitVec.ofNat 2 (w1 / 2 ^ 24)
    tag := (Tag.ofCode? (BitVec.ofNat 5 (w1 / 2 ^ 16))).getD .none, vl := w1 % 2 ^ 14
    xa := BitVec.ofNat 64 (fieldAt bs 16 8), xb := BitVec.ofNat 64 (fieldAt bs 24 8) }

/-- Whether a word is of a vector major: what an entry of a save area holds (17 Table 17-6). -/
def isVectorWord (w : IWord) : Bool := decide (0x21 ≤ (fldOp w).toNat) && decide ((fldOp w).toNat ≤ 0x2A)

/-- The resume and queue entries that the first frame of a save area lists, in order: what the machine keeps of an entry besides the words is
that of the parked entry in its place. -/
def areaEntries (old : List VEntry) (lv : Level) (root : Nat) (bs : List Byte) : List VEntry :=
  let blank : VEntry := ⟨0, none, 0, 0, .none, 0, 0, false, 0, 0, 0, none, 0, 0, lv, root⟩
  let n := ((List.range 64).takeWhile fun i => isVectorWord (BitVec.ofNat 32 (fieldAt bs (0x804 + 32 * i) 4))).length
  (List.range n).map (fun i => ((old[i]?).getD blank).reload ((bs.drop (0x800 + 32 * i)).take 32)) ++ (if n == 64 then old.drop 64 else [])

/-- A list of n values read from bytes at an offset. -/
def readList {α : Type} (bs : List Byte) (off width : Nat) (f : Nat → α) (n : Nat) : List α :=
  (unitsOf width n (bs.drop off)).map f

/-- A vector filled from a list, with what it held before where the list is shorter. -/
def fillVec {α : Type} {n : Nat} (old : Vector α n) (xs : List α) : Vector α n := old.mapIdx fun i x => (xs[i]?).getD x

/-- The plane that a save area and its parked context restore on a plane that keeps its cohort, rank, PRIO, GRPS and QUOTA (17 R264 to
R266, R258). DESIGN CHOICE (log 66): a reserved tag code in the area reads as NONE, and the queue takes no more entries than it has room for
(01 R8). -/
def restorePlane (own : Plane) (e : EngCtx) (bs : List Byte) : Plane :=
  let f (o n : Nat) : Nat := fieldAt bs o n
  let w (o : Nat) : Word := BitVec.ofNat 64 (f o 8)
  let fl := f 2 1
  let o := e.pl
  let fmts := f 0x2D4 4
  let lv : Level := if fl / 2 % 2 == 1 then .s else .u
  let xroot := (Plane.reset.writeXroot (w 0x2C0)).xroot
  let ents := areaEntries o.savedEntries lv (rootOf xroot) bs
  let nres := min (f 0x2B9 1 % 128) ents.length
  let qn := BitVec.ofNat 16 (f 0x2D0 2)
  let vs := ((readList bs 0x4000 512 (BitVec.ofNat 4096) 64).zip ((readList bs 0xC000 32 (BitVec.ofNat 256) 64).zip
    (readList bs 0xC800 1 (fun n => (Tag.ofCode? (BitVec.ofNat 5 n)).getD .none) 64))).map fun x => (⟨x.1, sideOf x.2.2 x.2.1, x.2.2⟩ : VRegVal)
  let ts := (List.range 16).map fun i => (⟨f (0x300 + 16 * i) 8, f (0x308 + 16 * i) 8, (o.t.toList[i]?.map (·.early)).getD []⟩ : Timeline)
  let wait := if fl / 8 % 2 == 1 then some (.gbar none (f 3 1 % 2 == 1))
    else if fl / 4 % 2 == 1 && w 0x10 = o.pc && o.barrier.isNone then o.wait else none
  { o with
    coh := own.coh, rank := own.rank, prio := own.prio, grps := own.grps, quota := own.quota
    pc := w 0x10, events := w 0x18, level := lv
    x := fillVec o.x (readList bs 0x100 8 (BitVec.ofNat 64) 32)
    f := fillVec o.f ((readList bs 0x200 8 (BitVec.ofNat 64) 16).zipIdx.map fun x => ⟨x.1, fmtOf (fmts / 4 ^ x.2)⟩)
    fcsr := fcsrWrite (w 0x280), fex0 := w 0x288, fex1 := w 0x290, tvec := w 0x298 &&& ~~~3#64, tcause := w 0x2A0 &&& 0xFF0FFF#64
    tpc := w 0x2A8, tval := w 0x2B0, tstat := w 0x2B8 &&& 0xFFFF001F#64 ||| BitVec.ofNat 64 (256 * nres)
    xroot := xroot, held := [], dq := [0, 0, 0, 0]
    lg := BitVec.ofNat 2 (f 0x2CB 1), tag := (Tag.ofCode? (BitVec.ofNat 5 (f 0x2CA 1))).getD .none, vl := f 0x2C8 2 % 2 ^ 14
    t := fillVec o.t ts, xac := BitVec.ofNat 4352 (f 0x400 544), xacSt := xacOf (f 0x0B 1)
    resume := ents.take nres
    vq := ((ents.drop nres).take queueDepth).mapIdx fun i e => { e with qpos := qn + BitVec.ofNat 16 i }
    qnext := qn + BitVec.ofNat 16 (min (ents.length - nres) queueDepth)
    m := fillVec o.m (readList bs 0x1000 1024 (BitVec.ofNat 8192) 8)
    tags := fillVec o.tags (readList bs 0x3000 8 (BitVec.ofNat 64) 256)
    v := fillVec o.v vs
    wait := wait, gcs := false, gcsSeen := none, st := if o.st == .halted then .halted else .runnable }

/-- The bits of bytes that are set, by number, below n. -/
def setBits (bs : List Byte) (n : Nat) : List Nat :=
  (bs.zipIdx.flatMap fun x => ((List.range 8).filter fun i => x.1.getLsbD i).map fun i => 8 * x.2 + i).filter fun k => decide (k < n)

/-- The partition that a save area restores: a zero-summary bit of 1 only over bytes that are all zero (17 R265). -/
def State.restorePartition (s : State) (id : PlaneId) (p : Plane) (frames : List (List Byte)) : State :=
  let parts := (frames.drop 16).take p.qsize
  let bits := (frames[48]?).getD []
  let full := setBits (bits.take 16384) (p.qsize * 4096)
  let zs := setBits ((bits.drop 16384).take 1024) (p.qsize * 256)
  let nonzero := (parts.zipIdx.flatMap fun x => (List.range 256).filterMap fun b =>
    if ((x.1.drop (b * 256)).take 256).all (· == 0) then none else some (x.2 * 256 + b))
  let clear := (List.range (p.qsize * 256)).filter fun b => !zs.contains b || nonzero.contains b
  s.putPartition (coreOf id) p.qbase p.qsize parts.flatten full clear

/-- Streams of plane p whose communicator's stream has ended while the plane was away: they read zero pieces from now on (25 R372, R377,
R378). -/
def State.syncStreams (s : State) (p : PlaneId) : State :=
  let ended (st : Stream) : Bool := match s.comm? st.comm with
    | none => true
    | some c => match c.stream? st.ord with | some j => j.status.isSome | none => false
  let sync (o : Option Stream) : Option Stream := o.map fun st => if ended st then { st with zero := true, arrived := [], out := [] } else st
  s.modPlane p fun pl => { pl with streams := pl.streams.map sync }

/-- A held translation of the local window, as that of a plane with its partition at a base (07 R70, 17 R267). -/
def State.rebase (s : State) (id : PlaneId) (qbase : Nat) (x : XFrame) : XFrame :=
  if x.vframe < 2 ^ 47 then x else { x with pframe := s.unitAddr (coreOf id) (qbase + (x.vframe - 2 ^ 47)) }

/-- Whether an operation is a LAUNCH whose cohort exists no more (11 R166). -/
def State.launchDone (s : State) (o : AOp) : Bool :=
  match o.kind with | .launch k => s.cohorts.all fun c => c.order != k | _ => false

/-- The operations of a parked context continue on the plane that it is restored on, with its partition at a base; LAUNCH operations whose
cohort has retired meanwhile complete (17 R265, R267, 11 R166). -/
def State.restoreOps (s : State) (id : PlaneId) (qbase : Nat) (ops : List AOp) : State :=
  let here := ops.map fun o => { o with plane := id, kind := o.kind.mapHolds (s.rebase id qbase) }
  let s' : State := { s with ops := s.ops ++ here }
  (here.filter s.launchDone).foldl (fun s o => s.completeOp o.plane o.n o.seq) s'

/-- A context restored on plane id from the frames of its area (17 R265). -/
def State.restore (s : State) (id : PlaneId) (own : Plane) (e : EngCtx) (frames : List (List Byte)) : State :=
  let p := restorePlane own e ((frames[0]?).getD [])
  (((s.restorePartition id p frames).setPlane id p).restoreOps id p.qbase e.ops).syncStreams id

/-- The frames of an area read in order, or the address at which a read fails. -/
def State.readArea (s : State) (area : Nat) (fs : List Frame) : Except Word (List (List Byte) × State) :=
  fs.zipIdx.foldlM (fun x f => (x.2.readFrame (area + f.2 * 65536) f.1).map fun y => (x.1 ++ [y.1], y.2)) ([], s)

/-! ### Eviction and resumption -/

/-- Whether every operation and route of the planes listed stands where its unit may be stopped (05 R61, 17 Table 17-7). -/
def State.mayStop (s : State) (ps : List PlaneId) : Bool :=
  (s.ops.all fun o => !ps.contains o.plane || s.runMayStop o.plane o.kind) && s.routes.all fun r => !ps.contains r.plane || r.mayStop

/-- One strand of a cohort saved to frames, and its plane FREE; the pairs that it has emitted stay pending (17 R262, R264). -/
def State.saveStrandTo (s : State) (k : Cohort) (p : PlaneId) (fs : List Frame) : State :=
  let s := s.acceptOf (· == p)
  let r := s.saveTo fs (s.plane p) p (s.ops.filter fun o => o.plane == p) []
  let s : State := r.1.setPlane p Plane.reset
  let s : State := { s with ops := s.ops.filter fun o => o.plane != p }
  s.modCohort k.num fun k => { k with saved := k.saved ++ [r.2] }

/-- One strand of a cohort saved; none where its partition cannot be read or its area cannot be written (17 R268). -/
def State.saveStrand (s : State) (k : Cohort) (rank : Nat) (p : PlaneId) : Option State :=
  if (s.partitionPoison p (s.plane p)).isSome then none
  else (s.areaFrames (rootOf k.rcd.xroot) (k.rcd.savearea.toNat + rank * areaSpan)).map (s.saveStrandTo k p)

/-- Strands of a cohort saved in rank order. -/
def State.saveStrands (s : State) (k : Cohort) (xs : List (PlaneId × Nat)) : Option State :=
  xs.foldlM (fun s x => s.saveStrand k x.2 x.1) s

/-- A route's timer stopped, what it has counted kept (23 R360). -/
def RouteEnt.stopTimer (cycle : Nat) (r : RouteEnt) : RouteEnt :=
  { r with elapsed := r.elapsed + (match r.start with | some c => cycle - c | none => 0), start := none }

/-- A resident cohort is evicted: its strands are saved and its planes FREE, and the timers of its routes stop; where an area cannot be
written it is aborted with cause CTXFAULT (05 R61, 17 R262, R268, 23 R360). -/
def State.evict (s : State) (k : Cohort) : State :=
  let s0 := s.modCohort k.num fun k => { k with saved := [] }
  match s0.saveStrands k k.planes.zipIdx with
  | none => s.endCohort k.num 1 causeCtxfault
  | some s =>
    let s := s.modCohort k.num fun k => { k with st := .evicted }
    { s with routes := s.routes.map fun r => if r.coh == k.num then r.stopTimer s.cycle else r }

/-- The cohorts that the scheduler has decided to evict and not evicted yet: once the first of a prefix goes, the whole prefix goes
(05 R60). -/
def State.decided (s : State) : List Nat := if s.doomed.isEmpty then s.victims else s.doomed

/-- Event EVICTION: a victim that 05 R60 chooses is evicted, once each of its units stands at a boundary (05 R61). -/
def execEviction (coh : Nat) (s : State) : Out :=
  .next (match s.cohort? coh with
    | none => s
    | some k =>
      if s.decided.contains coh && s.mayStop k.planes then { s.evict k with doomed := s.decided.filter (· != coh) } else s)

/-- Whether plane p stands in a VLDW that waits on a watermark of a producer (05 R63, R69). -/
def State.stalledOn (s : State) (p : PlaneId) (producer : Cohort) : Bool :=
  match (s.plane p).vq with
  | e :: _ =>
    e.major == 0x27 && e.fn3 == 5 && producer.rcd.wms.any (fun w => w.2.1 && w.1 == e.mb) &&
      match ({ s with cur := p } : State).vturn 0 with | .idle => true | .went _ => false
  | [] => false

/-- Whether a cohort is evicted for an evicted producer (05 R63). -/
def State.isStalled (s : State) (k producer : Cohort) : Bool :=
  let live := k.planes.filter fun p => (s.plane p).st != .halted
  producer.st == .evicted && producer.ended.isNone && !s.canResume [] producer && k.st == .resident && k.ended.isNone && decide (k.rcd.level ≤ producer.rcd.level) &&
    !live.isEmpty && live.all (fun p => s.stalledOn p producer) && k.planes.any fun p => producer.planes.contains p

/-- Event CONSUMER_EVICTION: a cohort all of whose live strands stall on the watermarks of an evicted producer is evicted (05 R63), once no
eviction that has been decided on is left (log 44). -/
def execConsumerEviction (coh : Nat) (s : State) : Out :=
  .next (match s.cohort? coh with
    | none => s
    | some k => if s.doomed.isEmpty && s.mayStop k.planes && s.cohorts.any (s.isStalled k) then s.evict k else s)

/-- A strand of a cohort restored from frames read in order; none where they hold no context (17 R265, R268). -/
def State.restoreFrom (s : State) (k : Cohort) (p : PlaneId) (base rank : Nat) (frames : List (List Byte)) : Option State :=
  (s.parkedIn frames).map fun e => s.restore p { startPlane k rank base k.entries with events := 0 } e frames

/-- A strand of a cohort restored on its plane and base; none where its area cannot be read or holds no context (17 R265, R268). -/
def State.restoreStrand (s : State) (k : Cohort) (p : PlaneId) (base rank : Nat) : Option State :=
  let area := k.rcd.savearea.toNat + rank * areaSpan
  ((s.areaFrames (rootOf k.rcd.xroot) area).bind fun fs => (s.readArea area fs).toOption).bind fun x =>
    (x.2.restoreFrom k p base rank x.1).map fun s => s.landAway k.num p

/-- Strands of a cohort restored in rank order; none where one cannot be (17 R265, R268). -/
def State.restoreStrands (s : State) (k : Cohort) (xs : List ((PlaneId × Nat) × Nat)) : Option State :=
  xs.foldlM (fun s x => s.restoreStrand k x.1.1 x.1.2 x.2) s

/-- An evicted cohort resumes on its planes: contexts restored, held posts merged, route timers running again; where an area cannot be
read it is aborted with cause CTXFAULT (05 R61, 11 R164, 17 R265, R268). -/
def State.resumeCohort (s : State) (k : Cohort) : State :=
  match s.restoreStrands k (k.planes.zip k.bases).zipIdx with
  | none => s.endCohort k.num 1 causeCtxfault
  | some s =>
    let s := k.planes.zipIdx.foldl (fun s x => s.modPlane x.1 fun p => { p with events := p.events ||| (k.posts[x.2]?).getD 0 }) s
    let s := s.modCohort k.num fun k => { k with st := .resident, saved := [], posts := k.posts.map fun _ => 0 }
    { s with routes := s.routes.map fun r => if r.coh == k.num then { r with start := some s.cycle } else r }

/-- Event RESUMPTION: the evicted cohort that waits first resumes once it can (05 R61). -/
def execResumption (coh : Nat) (s : State) : Out :=
  .next (match s.head with
    | none => s
    | some k => if s.doomed.isEmpty && k.num == coh && k.st == .evicted && s.canResume [] k then s.resumeCohort k else s)

/-! ### CTXSV and CTXLD -/

/-- The frames of a 4 MiB area for the issuing strand; the fault of the lowest address (11 R175). -/
def State.strandFrames (s : State) (area : Nat) (acc : Acc) : (n : Nat) → Except MemErr (List Frame)
  | 0 => .ok []
  | n + 1 =>
    match s.strandFrames area acc n with
    | .error e => .error e
    | .ok fs => match s.frameOf { s.myAgent with stream := none } (area + n * 65536) acc false with
      | .error k => .error (k.raise (addr64 (area + n * 65536)))
      | .ok f => .ok (fs ++ [f])

/-- The frames of an area that can be written, filled with unpredictable bytes (11 R175, 00 R2). -/
def State.spoil (s : State) (area : Nat) : State :=
  (List.range 64).foldl (fun s k => match s.frameOf { s.myAgent with stream := none } (area + k * 65536) .write false with
    | .ok f => { s.writeFrame f ((List.range 65536).map (Config.freeByte s.free)) with free := s.free + 1 }
    | .error _ => s) s

/-- CTXSV (11 R175, 17 R267). It waits for older vector accesses of the strand to its area (07 R93, 17 R253). -/
def execCtxsv (a : XReg) (s : State) : Out :=
  let w := encodeLast (.ctxsv a)
  let area := (s.getX a).toNat
  .next (s.atS w fun s =>
    if area % 65536 != 0 then s.illOp w
    else if s.vecConflict s.myAgent (s.getX a) areaSpan .write then s
    else match s.strandFrames area .write 64 with
      | .error e => if s.queueEmpty then (s.spoil area).memTrap e else s
      | .ok fs =>
        if (fs.any fun f => f.base / pkgSpan != s.pkg && s.failing.contains (f.base / pkgSpan)) then s.memTrap .remoteWrite
        else match s.partitionPoison s.cur s.me with
          | some off => s.memTrap (.memerr (addr64 (2 ^ 63 + off)))
          | none =>
            if !s.mayStop [s.cur] then s
            else
              let s := s.acceptOf (· == s.cur)
              (s.saveTo fs (s.me.advance 4) s.cur (s.ops.filter fun o => o.plane == s.cur)
                ((s.routes.filter fun r => r.plane == s.cur && r.coh == s.me.coh).map (RouteEnt.stopTimer s.cycle))).1.advance 4)

/-- The routes of a context that CTXLD loads, on entries of the issuing plane's core that are free; none where too few are (23 R356, 17
R267). -/
def State.loadRoutes (s : State) (rs : List RouteEnt) : Option (List RouteEnt) :=
  let c := coreOf s.cur
  let free := (List.range 64).filter fun e => s.routes.all fun q => !(q.core == c && q.e == e)
  if free.length < rs.length then none
  else some ((rs.zip free).map fun x => { x.1 with
    core := c, e := x.2, plane := s.cur, coh := s.me.coh, ord := s.orderOf s.me.coh, start := some s.cycle, xl := x.1.xl.map (s.rebase s.cur s.me.qbase) })

/-- CTXLD (11 R175, 17 R266, R267). It waits while its core lacks what the context holds of it (log 67). -/
def execCtxld (a : XReg) (s : State) : Out :=
  let w := encodeLast (.ctxld a)
  let area := (s.getX a).toNat
  .next (s.atS w fun s =>
    if area % 65536 != 0 then s.illOp w
    else if !s.queueEmpty || s.ops.any (fun o => o.plane == s.cur) then s
    else match s.strandFrames area .read 64 with
      | .error e => s.memTrap e
      | .ok fs => match s.readArea area fs with
        | .error va => s.memTrap (.memerr va)
        | .ok (frames, s1) =>
          let first := (frames[0]?).getD []
          if fieldAt first 0 2 != 1 || fieldAt first 2 1 % 2 == 0 || fieldAt first 0x0A 1 != s.me.qsize then s.illOp w
          else match s1.parkedIn frames with
            | none => s.trap causeIllop (s.getX a)
            | some e =>
              let others := (planeIdx.map (planeOf (coreOf s.cur))).filter fun p => p != s.cur && (s.plane p).st != .free
              match s1.sharedFits others [e], s1.loadRoutes e.routes with
              | true, some rs =>
                let s2 := s1.restore s.cur s.me e frames
                ({ s2 with routes := s2.routes ++ rs } : State)
              | _, _ => s)

/-! ### Retirement -/

/-- The planes of a cohort's strands, where they are: on the machine, or in the contexts it was saved to. -/
def State.strandsOf (s : State) (k : Cohort) : List Plane :=
  if k.st == .resident then k.planes.map s.plane else (s.parkedOf k).map (·.2.2.pl)
/-- The operations of a cohort's strands that have not completed; those of an evicted one that has ended are ended (11 R168, R169). -/
def State.opsOf (s : State) (k : Cohort) : List AOp :=
  if k.st == .resident then s.ops.filter fun o => k.planes.contains o.plane
  else if k.ended.isSome then []
  else (s.parkedOf k).flatMap fun x => x.2.2.ops.filter fun o => !s.launchDone o
/-- The regions of a cohort. -/
def State.regionsOf (s : State) (k : Cohort) : List Nat :=
  (List.range 256).filter fun r => match s.regions[r]? with | some (some g) => g.coh == k.num | _ => false

/-- Whether a cohort retires now: every strand has halted or been stopped, no asynchronous operation of its strands is left, no cohort it
launched exists, no update operation concerns its regions, and the pieces its streams contributed have left (05 R64, 11 R168, R169, 23
R338, 25 R375). -/
def State.retires (s : State) (k : Cohort) : Bool :=
  k.st != .waiting &&
  s.cohorts.all (fun c => c.launcher.by? != some k.num) &&
  (k.ended.isSome || (s.strandsOf k).all fun p => p.st == .halted &&
    p.streams.toList.all fun o => match o with | some st => st.out.isEmpty | none => true) &&
  (s.opsOf k).isEmpty &&
  (s.regionsOf k).all fun r => !s.updating r

/-- The open streams of a communicator on a plane of a cohort, resident or evicted. -/
def State.openStreams (s : State) (k : Cohort) (p : PlaneId) (num : Nat) : List Nat :=
  let pl : Option Plane := if k.st == .resident then some (s.plane p) else ((s.parkedOf k).find? fun x => x.1 == p).map fun x => x.2.2.pl
  match pl with
  | none => []
  | some pl => pl.streams.toList.filterMap fun o => match o with
    | some st => if st.comm == num && !st.shut then some st.ord else none
    | none => none

/-- The memberships of a cohort withdrawn; operations and streams matched with those of an aborted one end with status ABORTED (25 R365,
R378). -/
def State.withdrawAll (s : State) (k : Cohort) : State :=
  s.comms.foldl (fun s c =>
    (c.members.filter fun m => m.coh == k.num && m.inn).foldl (fun s m =>
      let s := if k.ended.isSome then s.stopMember c m (s.openStreams k m.plane c.num) 4 else s
      s.withdraw c.num m.plane m.coh) s) s

/-- A cohort retires: its regions, tables, memberships, bindings, routes, planes, group entries and number are freed, and its launcher has
the report (05 R64). -/
def State.retire (s : State) (k : Cohort) : State :=
  let s := (s.regionsOf k).foldl State.freeRegion s
  let s : State := { s with tables := s.tables.map fun t => match t with | some x => if x.coh == k.num then none else t | none => none }
  let s := s.withdrawAll k
  let mine := if k.st == .resident then k.planes else []
  let s := mine.foldl (fun s p => (s.unbind p).setPlane p Plane.reset) s
  let s : State := { s with
    routes := s.routes.filter fun r => r.coh != k.num
    groups := s.groups.map fun g => if g.owner == some k.num then ⟨none, [], 0, [], false⟩ else g }
  ((s.dropAway k.num).release k).report k

/-- Event RETIREMENT (05 R64, 11 R168, R169). -/
def execRetirement (coh : Nat) (s : State) : Out :=
  .next (match s.cohort? coh with
    | none => s
    | some k => if s.retires k then s.retire k else s)

end Sys2Proof.Machine
end

