-- ==== Sys2Proof/Machine/Host.lean ====
section
/-! DEFINITION. The host, the links, the security controller, integrity and modes (27 R380 to R401, 01 R15 to R18). Payloads that the spec
gives no layout are data of the event (log 13). -/
namespace Sys2Proof.Machine

/-! ### Command messages -/

/-- The session of a number, its keys derived. -/
def State.session? (s : State) (num : Nat) : Option Session := s.sessions.find? fun x => x.num == num && x.live
/-- A session changed. -/
def State.modSession (s : State) (num : Nat) (f : Session → Session) : State :=
  { s with sessions := s.sessions.map fun x => if x.num == num then f x else x }

/-- A message is dropped and counted (27 R385). -/
def State.dropMsg (s : State) : State := { s with dropped := s.dropped + 1 }

/-- The nonce of a direction, 0 from the host and 1 to it, and a SEQ (27 R384). -/
def gcmNonce (dir seq : Nat) : List Byte := leBytes 4 dir ++ leBytes 8 seq

/-- Whether the header and the tag of a message are good: the tag verifies under the key of the session's messages from the host and the
nonce of that direction and its SEQ (27 R384, R385). -/
def goodHeader (x : Session) (e : CmdEnv) : Bool :=
  e.key == x.keyIn && e.nonce == gcmNonce 0 e.seq && e.magic == 0x314B485A && e.version == 1 && decide (e.length ≤ 8192) && decide (e.flags < 8)

/-- SEQ values from h − 63 to h (27 R385). -/
def seqWindow (h : Nat) (xs : List Nat) : List Nat := xs.filter fun q => decide (h < q + 64)

/-- A response to SEQ req of a session goes out, and is cached (27 R385, R386). -/
def State.respond (s : State) (num req status : Nat) (data : List Nat) : State :=
  let r := s.nextSeq num
  let msg := Sent.resp num r.1 (s.keyTo num) req status data
  let s := r.2.modSession num fun x => { x with cached := (req, msg) :: x.cached.filter fun c => decide (x.high < c.1 + 64) }
  { s with sent := s.sent ++ [msg] }

/-- A command: dropped, answered from the cache, refused for want of S, or executed with its status and data (27 R385, R386). -/
def State.command (e : CmdEnv) (sup : Bool) (f : Session → State → Nat × List Nat × State) (s : State) : State :=
  match s.session? e.session with
  | none => s.dropMsg
  | some x =>
    if !goodHeader x e || e.seq == 0 || e.seq + 63 < x.high then s.dropMsg
    else if x.seen.contains e.seq then
      match x.cached.find? fun c => c.1 == e.seq with
      | some c => { s with sent := s.sent ++ [c.2] }
      | none => s
    else
      let h := max x.high e.seq
      let s := s.modSession x.num fun x => { x with high := h, seen := seqWindow h (e.seq :: x.seen) }
      if sup && !x.sup then s.respond x.num e.seq 2 []
      else
        let r := f x s
        r.2.2.respond x.num e.seq r.1 r.2.1

/-! ### Windows -/

/-- The window that a remote key names (27 R381). -/
def State.window? (s : State) (key : Nat) : Option Win := s.wins.find? fun w => w.key == key

/-- The places of n bytes from va under a root, for the host (27 R381). -/
def State.hostPlaces (s : State) (root : Nat) (acc : Acc) (n va : Nat) : Option (List Place) :=
  match (List.range ((va % 65536 + n + 65535) / 65536)).mapM fun k =>
      match s.frameUnder root .s ((va / 65536 + k) * 65536) acc false with
      | .ok f => some f
      | .error _ => none
  with
  | none => none
  | some fs => (List.range n).mapM fun i => (fs[(va + i) / 65536 - va / 65536]?).map fun f => f.place (va + i)

/-- The places of an access through a window, where the window, its tag and its permission allow it (27 R381). -/
def State.windowPlaces (s : State) (key off n : Nat) (acc : Acc) : Option (List Place) :=
  match s.window? key with
  | none => none
  | some w =>
    if w.len < off + n || !(match acc with | .read => w.r | _ => w.w) then none
    else if n == 0 then some [] else s.hostPlaces w.root acc n (w.base + off)

/-- Bytes read through a window: none where the access is refused or meets poison (27 R381, R382, R400). -/
def State.windowRead (s : State) (key off n : Nat) : Option (List Byte × State) :=
  match s.windowPlaces key off n .read with
  | none => none
  | some ps =>
    let s := s.pressTouch ps
    match s.readPlaces 0 ps with
    | .error _ => none
    | .ok bs => some (bs, s)

/-- An answer goes out of an Ethernet port. -/
def State.answer (s : State) (m : Sent) : State := { s with sent := s.sent ++ [m] }

/-- Event RDMA_WRITE: every byte is performed before the acknowledgement, or nothing is and a NAK goes out (27 R381, R382). -/
def execRdmaWrite (key off : Nat) (data : List Byte) (s : State) : Out :=
  .next (match s.windowPlaces key off data.length .write with
    | none => s.answer .rdmaNak
    | some ps => if s.writeFails ps then s.answer .rdmaNak else ((s.pressTouch ps).writePlaces ps data).answer .rdmaAck)

/-- Event RDMA_READ: pending pairs of the lines are applied, and the data goes out, or a NAK (27 R381, R382, R400). -/
def execRdmaRead (key off len : Nat) (s : State) : Out :=
  .next (match s.windowRead key off len with
    | none => s.answer .rdmaNak
    | some (bs, s) => s.answer (.rdmaData bs))

/-- A remote key for a window number: a tag freely chosen, so that no key issued before the last owner release comes again (27 R381,
R397). -/
def State.freshKey (s : State) (num : Nat) : Nat :=
  let key (i : Nat) : Nat := num * 2 ^ 20 + (Config.freeNat s.free + i) % 2 ^ 20
  key (((List.range (s.oldKeys.length + 1)).find? fun i => !s.oldKeys.contains (key i)).getD 0)

/-- MAPWIN: a window number bound to a root, a range and permissions, under a key with a fresh tag (27 R381). -/
def execMapwin (env : CmdEnv) (num root base len : Nat) (r w : Bool) (s : State) : Out :=
  .next (s.command env true (fun _ s =>
    if 4096 ≤ num || base % 65536 != 0 || len % 65536 != 0 || 2 ^ 57 < base + len || root % 4096 != 0 || 2 ^ 48 ≤ root then (1, [], s)
    else
      let key := s.freshKey num
      let win : Win := ⟨num, root, base, len, r, w, key⟩
      (0, [key], { s with wins := win :: s.wins.filter (fun x => x.num != num), issuedKeys := key :: s.issuedKeys, free := s.free + 1 })))

/-- UNMAPWIN: the window goes; in this machine no access through it is in flight between steps (27 R386, log 4). -/
def execUnmapwin (env : CmdEnv) (num : Nat) (s : State) : Out :=
  .next (s.command env true (fun _ s =>
    if s.wins.any fun x => x.num == num then (0, [], { s with wins := s.wins.filter fun x => x.num != num }) else (3, [], s)))

/-- REGION: a host region for XHOST (27 R383). -/
def execRegion (env : CmdEnv) (num key base len : Nat) (toh fromh : Bool) (s : State) : Out :=
  .next (s.command env true (fun _ s =>
    if 1024 ≤ num then (1, [], s)
    else
      let g : HostRegion := ⟨num, key, base, len, toh, fromh⟩
      (0, [], { s with hostRegions := g :: s.hostRegions.filter fun x => x.num != num })))

/-- UNREGION: the region goes; an XHOST that uses it keeps what it took at issue (27 R383). -/
def execUnregion (env : CmdEnv) (num : Nat) (s : State) : Out :=
  .next (s.command env true (fun _ s =>
    if s.hostRegions.any fun x => x.num == num then (0, [], { s with hostRegions := s.hostRegions.filter fun x => x.num != num }) else (3, [], s)))

/-! ### Cohorts -/

/-- Whether a session may act on a cohort: an S session on any, a U session on those it launched (27 R386). -/
def Session.owns (x : Session) (l : Option Nat) : Bool := x.sup || l == some x.num

/-- The session that launched a cohort. -/
def Cohort.session? (k : Cohort) : Option Nat := match k.launcher with | .host n => some n | .strand _ _ => none

/-- The host's LAUNCH: the record read through a window and checked in the order of 05 R402; launches are accepted only after an owner
session exists (27 R386, Table 27-4). A window begins at a multiple of 64 KiB, so that the offset gives the record's alignment. DESIGN
CHOICE (log 63): BUSY where no cohort number is free. -/
def execLaunchCommand (env : CmdEnv) (key off : Nat) (s : State) : Out :=
  .next (s.command env false (fun x s =>
    let no (st : Nat) (s : State) : Nat × List Nat × State := (st, [0xFFFF], s)
    if s.owner.isNone then no 2 s
    else if off % 64 != 0 then no 1 s
    else match s.window? key with
      | none => no 6 s
      | some w => match s.windowRead key off 128 with
        | none => no 6 s
        | some (h, s) => match s.windowRead key off (recordBytes h) with
          | none => no 6 s
          | some (bs, s) => match launchRec? bs with
            | none => no 1 s
            | some r =>
              let c := r.status (if x.sup then none else some w.root)
              if c != 0 then no c s
              else if s.levelFull r.level then no 7 s
              else match s.submit r (.host x.num) with
                | none => no 7 s
                | some (n, s) => (0, [n], s)))

/-- CANCEL: a cohort stops as an abort stops it and retires with outcome 2, a waiting launch is withdrawn (27 R386, R387). -/
def execCancel (env : CmdEnv) (coh : Nat) (s : State) : Out :=
  .next (s.command env false (fun x s =>
    match s.cohort? coh with
    | some k =>
      if !x.owns k.session? then (2, [], s)
      else if k.ended.isSome then (1, [], s)
      else (0, [], s.endCohort coh 2 0)
    | none => match s.retired.find? fun r => r.1 == coh with
      | some r => if x.owns r.2 then (1, [], s) else (2, [], s)
      | none => (3, [], s)))

/-- POST: as EVPOST, with its status codes; a U session's own cohorts are those it launched (27 R386, 11 R164). -/
def execPost (env : CmdEnv) (coh rank : Nat) (bits : Word) (s : State) : Out :=
  .next (s.command env false (fun x s =>
    match s.cohort? coh with
    | none => (if x.sup then 1 else 2, [], s)
    | some k =>
      if !x.owns k.session? then (2, [], s)
      else if k.rcd.nstrand ≤ rank then (1, [], s)
      else (0, [], s.post k rank bits)))

/-- The code of a cohort's state in a QUERY. -/
def CohortState.code : CohortState → Nat
  | .waiting => 0 | .resident => 1 | .evicted => 2

/-- QUERY: telemetry, the states of cohorts, a summary of the error log (27 R386). -/
def execQuery (env : CmdEnv) (s : State) : Out :=
  .next (s.command env false (fun _ s =>
    (0, [s.freq, s.dropped] ++ s.frames ++ s.lanes ++ s.cohorts.flatMap (fun k => [k.num, k.st.code, b2n k.ended.isSome]) ++ [s.errors.length], s)))

/-- ACK: the session's COMPLETE events up to a SEQ are sent no more (27 R386, R388). -/
def execAck (env : CmdEnv) (upto : Nat) (s : State) : Out :=
  .next (s.command env false (fun x s =>
    (0, [], { s with completes := s.completes.filter fun c => c.session != x.num || upto < c.seq })))

/-- Event COMPLETE_RESEND: an event unacknowledged for 100 µs is sent again, and given up 1 s after it was first sent (27 R388). -/
def execCompleteResend (s : State) : Out :=
  let us (n : Nat) : Nat := n * s.freq
  let live := s.completes.filter fun c => decide (s.cycle - c.first < us 1000000)
  let due (c : Complete) : Bool := decide (us 100 ≤ s.cycle - c.last)
  let again (c : Complete) : Sent := .complete c.session c.seq (s.keyTo c.session) c.word
  .next { s with
    sent := s.sent ++ (live.filter due).map again
    completes := live.map fun c => if due c then { c with last := s.cycle } else c }

/-- An opcode that 27 Table 27-3 does not have is answered with status 0xFF (27 R386). -/
def execUnknownOpcode (env : CmdEnv) (_ : Nat) (s : State) : Out := .next (s.command env false (fun _ s => (0xFF, [], s)))

/-! ### Modes -/

/-- MODEGET (27 R401). -/
def execModeget (env : CmdEnv) (s : State) : Out :=
  .next (s.command env false (fun _ s => (0, [s.limit, s.ceiling, s.slotLen, s.leeSize, s.scrubHours, b2n s.strong], s)))

/-- The status of a mode set, and the state after it (27 Table 27-6). -/
def State.setMode (s : State) (m : ModeSet) : Nat × State :=
  match m with
  | .clocking limit ceiling =>
    if limit < 800 || 1600 < limit || limit % 50 != 0 || ceiling < 1000 || 2100 < ceiling || ceiling % 100 != 0 then (1, s)
    else (0, { s with limit := limit, ceiling := ceiling, freq := ceiling })
  | .slotlen n => if ([64, 128, 256, 512, 1024, 2048, 4096] : List Nat).contains n then (0, { s with slotLen := n }) else (1, s)
  | .leesize n =>
    if !([0x10000000, 0x20000000, 0x40000000, 0x80000000] : List Nat).contains n then (1, s)
    else if s.regions.toList.any (·.isSome) then (4, s)
    else (0, { s with leeSize := n })
  | .scrub h => if h < 1 || 72 < h then (1, s) else (0, { s with scrubHours := h })
  | .integrity strong => if s.cohorts.any Cohort.isAdmitted then (4, s) else (0, { s with strong := strong })
  | .other _ => (1, s)

/-- MODESET (27 R401). -/
def execModeset (env : CmdEnv) (mode : ModeSet) (s : State) : Out :=
  .next (s.command env true (fun _ s => let r := s.setMode mode; (r.1, [], r.2)))

/-! ### Security -/

/-- SHAKE256 of bytes, which the spec names and does not give (27 R394). -/
def shake (bs : List Byte) : List Byte := Config.crypto 0 bs

/-- ATTEST: a session begins, and the report goes out with the nonce, the measurements that boot made, the digest of the identity key and an
ephemeral encapsulation key (27 R393, R394). -/
def execAttest (env : CmdEnv) (nonce : List Byte) (s : State) : Out :=
  .next (
    if env.session != 0 || env.magic != 0x314B485A || env.version != 1 || 8192 < env.length || 8 ≤ env.flags || nonce.length != 32 then s.dropMsg
    else
      let num := s.nextSession
      let modes := [s.limit, s.ceiling, s.slotLen, s.leeSize, s.scrubHours, b2n s.strong].flatMap (leBytes 8)
      let eph := Config.crypto (s.free + 3) nonce
      let body := nonce ++ shake s.measRoot ++ shake s.measMgmt ++ shake (leBytes 8 s.fused) ++ shake modes ++ shake (Config.crypto 1 []) ++ eph
      let x : Session := ⟨num, false, false, nonce, eph, [], [], 0, [], [], 0⟩
      let report := (body ++ Config.crypto 1 body).map (·.toNat)
      { s with
        sessions := s.sessions ++ [x], nextSession := num + 1, free := s.free + 1
        sent := s.sent ++ [.resp 0 0 [] env.seq 0 (num :: report)] })

/-- Event VERIFIER_CIPHERTEXT: the shared secret is what the session's ephemeral key decapsulates, and the keys of both directions are
derived from it, that of the messages from the host first (log 13); signed with the owner key it is an S session, the first of which after a
scrub registers the key (27 R394, R395). `signer` is the digest of the key whose signature verifies. -/
def execVerifierCiphertext (session : Nat) (ct : List Byte) (signer : Option (List Byte)) (s : State) : Out :=
  .next (match s.sessions.find? fun x => x.num == session && !x.live with
    | none => s.dropMsg
    | some x =>
      let keys := shake (Config.crypto 2 (x.eph ++ ct) ++ x.nonce ++ leBytes 8 session)
      let start (sup : Bool) (s : State) : State := s.modSession session fun x => { x with
        sup := sup, live := true, keyIn := keys.take 32, keyOut := (keys.drop 32).take 32 }
      match signer, s.owner with
      | none, _ => start false s
      | some k, none => start true { s with owner := some k }
      | some k, some o => if k == o then start true s else s)

/-- FWUPDATE: an image staged through a window is verified and written to flash; one that fails leaves flash as it is (27 R393). -/
def execFwupdate (env : CmdEnv) (key off len : Nat) (mgmt : Bool) (s : State) : Out :=
  .next (s.command env true (fun _ s =>
    match s.windowRead key off len with
    | none => (6, [], s)
    | some (img, s) =>
      if !Config.imageValid img || Config.imageVersion img < s.fused then (1, [], s)
      else (0, [], if mgmt then { s with flashMgmt := img } else { s with flashRoot := img })))

/-- What a scrub clears: every memory, form, full/empty bit of this package and every register of every plane (27 R398). Bytes of other
packages stay theirs. -/
def State.scrub (s : State) : State :=
  { s with
    mem := s.mem.filter fun c => c.1 / pkgSpan != s.pkg, full := s.full.filter fun g => 16 * g / pkgSpan != s.pkg
    zsClear := s.zsClear.filter fun b => 256 * b / pkgSpan != s.pkg, poison := s.poison.filter fun a => a / pkgSpan != s.pkg
    pend := [], planes := Vector.replicate 512 Plane.reset, ops := [], routes := [], awayRows := [], doomed := [], watching := [], wrote := []
    parked := [], cores := Vector.replicate 128 ⟨none, [], s.cycle, s.slotLen⟩ }

/-- An owner release: every cohort is cancelled and retires, the later launches first; events, windows, regions and sessions go; the scrub
follows (27 R396, R397). -/
def State.releaseOwner (s : State) : State :=
  let s := s.cohorts.foldl (fun s k => s.endCohort k.num 2 0) s
  let s := (s.cohorts.mergeSort fun a b => decide (b.order ≤ a.order)).foldl (fun s k => match s.cohort? k.num with
    | some k => s.retire k
    | none => s) s
  let s : State := { s with
    completes := [], wins := [], issuedKeys := [], oldKeys := s.issuedKeys ++ s.oldKeys, hostRegions := [], sessions := [], owner := none
    retired := [] }
  s.scrub

/-- Event OWNER_RELEASE (27 R397). -/
def execOwnerRelease (s : State) : Out := .next s.releaseOwner

/-- Event PACKAGE_RESET: an owner release, then boot, which measures the images it verifies; a step that fails holds the package in reset with an error code. The package number
and the domain are what link bring-up finds, `trained` whether the memories train (27 R391, R393, R396, Table 27-4). -/
def execPackageReset (pkg : Nat) (domain : List Nat) (trained : Bool) (s : State) : Out :=
  let old := s.releaseOwner
  let fresh : State := { State.reset with
    inputs := s.inputs, cur := s.cur, vlag := s.vlag, free := s.free, hostMem := s.hostMem, sent := old.sent, mem := old.mem, full := old.full
    zsClear := old.zsClear, poison := old.poison
    oldKeys := old.oldKeys, measRoot := s.flashRoot, measMgmt := s.flashMgmt
    flashRoot := s.flashRoot, flashMgmt := s.flashMgmt, fused := s.fused, errors := s.errors, nextSession := s.nextSession, lanes := s.lanes }
  let hold (code : Nat) : State := { fresh with held := some code, sent := fresh.sent ++ [.management code] }
  .next (
    if !Config.imageValid s.flashRoot || Config.imageVersion s.flashRoot < s.fused then hold 1
    else if !Config.imageValid s.flashMgmt || Config.imageVersion s.flashMgmt < s.fused then hold 2
    else if !trained then hold 3
    else if 64 ≤ pkg || !domain.contains pkg || domain.any fun k => 64 ≤ k then hold 4
    else { fresh with
      pkg := pkg, domain := domain, mem := fresh.mem.filter fun c => c.1 / pkgSpan != pkg
      full := fresh.full.filter fun g => 16 * g / pkgSpan != pkg, zsClear := fresh.zsClear.filter fun b => 256 * b / pkgSpan != pkg
      poison := fresh.poison.filter fun a => a / pkgSpan != pkg })

/-! ### Power, integrity, links -/

/-- Event THERMAL_THROTTLE: clk falls by 100 MHz, never below 700 MHz (01 R16, R17). DESIGN CHOICE (log 60): it rises again only where a
MODESET of the clocking mode or a package reset sets it. -/
def execThermalThrottle (s : State) : Out := .next { s with freq := max 700 (s.freq - 100) }

/-- Event WORK_PACING: at 700 MHz idle clk are inserted, which count as clk (01 R17). -/
def execWorkPacing (idle : Nat) (s : State) : Out := .next (if s.freq ≤ 700 then { s with cycle := s.cycle + idle } else s)

/-- The code of a thermal shutdown in the error log and at the management port; the spec gives none (log 13). -/
def thermalCode : Nat := 0x10

/-- Event THERMAL_SHUTDOWN: logged and reported, every cohort lost, the package held in reset (01 R17). -/
def execThermalShutdown (s : State) : Out :=
  .next { s with
    planes := Vector.replicate 512 Plane.reset, cohorts := [], ops := [], routes := [], comms := [], completes := []
    engines := Vector.replicate 2 ⟨[], [], List.replicate 8 0⟩, groups := Vector.replicate 256 ⟨none, [], 0, [], false⟩
    regions := Vector.replicate 256 none, pend := [], tables := Vector.replicate 64 none, parked := [], awayRows := [], doomed := [], watching := [], wrote := []
    errors := s.errors ++ [(thermalCode, s.cycle)], sent := s.sent ++ [.management thermalCode], held := some thermalCode }

/-- Event PATROL_SCRUB: every line and granule is read and corrected, and the uncorrectable ones found are logged (27 R400). -/
def execPatrolScrub (s : State) : Out := .next { s with errors := s.errors ++ s.poison.map fun u => (0x20, u) }

/-- Event FLIT_REPLAY: a flit is sent again, which changes timing only (27 R390). -/
def execFlitReplay (_ : Nat) (s : State) : Out := .next s

/-- Event LANE_LOSS: a link goes on with 4 or 2 lanes, which changes timing only (27 R390). -/
def execLaneLoss (link : Nat) (s : State) : Out :=
  .next { s with lanes := s.lanes.modify link fun n => if 4 < n then 4 else 2 }

/-- The places of consecutive physical addresses; none where one maps nothing. -/
def State.physPlaces (s : State) (pa n : Nat) : Option (List Place) :=
  (List.range n).mapM fun i => match s.frameAt ((pa + i) / 65536 * 65536) false with
    | .ok f => some (f.place (pa + i))
    | .error _ => none

/-- Event TROIQUE_MESSAGE: a message of another package is performed here, pending pairs of its lines applied before; one that names another
package of the domain is that package's own change (27 R390, 07 R71, R86, R104). The write of a remote port waits while a byte of it lies in an
evicted partition alone (07 R83, 19 R289). -/
def execTroiqueMessage (msg : TroiqueMsg) (s : State) : Out :=
  .next (match msg with
    | .read pa n => match s.physPlaces pa (min n 4096) with
      | none => s
      | some ps =>
        let s := s.pressTouch ps
        match s.readPlaces 0 ps with
        | .error _ => s.answer (.reply [])
        | .ok bs => s.answer (.reply bs)
    | .write pa data by_ =>
      if 4096 < data.length then s
      else match s.physPlaces pa data.length with
        | none => s
        | some ps =>
          if by_ == .port && ps.any Place.isSaved then s
          else
          let s := (s.pressTouch ps).writePlaces ps data
          if by_ != .strand then ps.foldl (fun s p => if s.feGet p then s else s.feSet p true) s else s
    | .amo pa fn wide x cmp =>
      let n := amoBytes wide
      if pa % n != 0 then s
      else match s.physPlaces pa n with
        | none => s
        | some ps =>
          let s := s.pressTouch ps
          match s.readPlaces 0 ps with
          | .error _ => s.answer (.reply [])
          | .ok bs =>
            let s := match amoNew fn n (leNat bs) (x % 2 ^ (8 * n)) (cmp % 2 ^ (8 * n)) with
              | some v => s.writePlaces ps (leBytes n v)
              | none => s
            s.answer (.reply bs))

/-- Event MESSAGE_FAIL: from now on messages to a package fail, or reach it again; a failed one is reported to its sender where it was sent
(27 R392). -/
def execMessageFail (pkg : Nat) (fails : Bool) (s : State) : Out :=
  .next { s with failing := if fails then SortedNat.insert s.failing pkg else SortedNat.erase s.failing pkg }

/-- Event ETHERNET_FRAME_DROP: dropped at the port and counted (27 R380). -/
def execEthernetFrameDrop (port : Bool) (s : State) : Out := .next { s with frames := s.frames.modify (b2n port) (· + 1) }

end Sys2Proof.Machine
end

