-- ==== Sys2Proof/Machine/Prefix.lean ====
section
/-! DEFINITION. The prefix word with the instruction that follows it, and the traps of words that are no instruction and of failed fetches
(09 R121 to R124). -/
namespace Sys2Proof.Machine

/-- The prefixed immediate of an I16 instruction: sext(imm26 ‖ imm16, 42) (09 R122). -/
def pfxImm (k : BitVec 26) (w : IWord) : Word := (k ++ fldImm w).signExtend 64
/-- The prefixed displacement of a load or store: sext(imm26 ‖ imm16 13:0, 40) (09 R122). -/
def pfxDisp (k : BitVec 26) (w : IWord) : Word := (k ++ (fldImm w).extractLsb' 0 14).signExtend 64
/-- The size field of a load or store word (09 R115). -/
def fldSize (w : IWord) : Size := (Size.ofCode? ((fldImm w).extractLsb' 14 2)).getD .b
/-- An FMEM word after a PFX: field d names an F register (09 R114, R115). -/
def pfxFmem (k : BitVec 26) (w : IWord) (s : State) : State :=
  match freg? (fldD w) with
  | none => s.illInsn w
  | some d => match fldSize w with
    | .b => opFldw d (fldA w) (pfxDisp k w) 8 s
    | .h => opFldd d (fldA w) (pfxDisp k w) 8 s
    | .w => opFstw d (fldA w) (pfxDisp k w) 8 s
    | .d => opFstd d (fldA w) (pfxDisp k w) 8 s

/-- PFX with the word that follows: the prefixed form, 8 bytes long; any other word raises the illegal-instruction trap, with TPC at
the PFX and TVAL the following word (09 R122, R123). -/
def execPfx (k : BitVec 26) (w : IWord) (s : State) : Out :=
  .next (match (fldOp w).toNat with
    | 0x02 => opAddi (fldD w) (fldA w) (pfxImm k w) 8 s
    | 0x03 => opAndi (fldD w) (fldA w) (pfxImm k w) 8 s
    | 0x04 => opOri (fldD w) (fldA w) (pfxImm k w) 8 s
    | 0x05 => opXori (fldD w) (fldA w) (pfxImm k w) 8 s
    | 0x06 => opSlti (fldD w) (fldA w) (pfxImm k w) 8 s
    | 0x07 => opLih (fldD w) (fldA w) (pfxImm k w) 8 s
    | 0x09 => opLd (fldD w) (fldA w) (fldSize w) (pfxDisp k w) 8 s
    | 0x0A => opLdz (fldD w) (fldA w) (fldSize w) (pfxDisp k w) 8 s
    | 0x0B => opSt (fldD w) (fldA w) (fldSize w) (pfxDisp k w) 8 s
    | 0x0C => pfxFmem k w s
    | 0x14 => opJlr (fldD w) (fldA w) (pfxImm k w) 8 s
    | 0x22 =>
      if fldSi w == 1#1 && (decodeVariths (fldVd w) (fldVa w) (fldXb w) (fldSm w) (fldSi w) (fldVfn w)).isSome then s.vissue w (some k) 8
      else s.illInsn w
    | _ => s.illInsn w)

/-- Event ILLEGAL_INSTRUCTION: the word fetched is no instruction, and the illegal-instruction trap is raised at decode (09 R124). -/
def execIllegalInstruction (w : IWord) (s : State) : Out := .next (s.illInsn w)

/-- Event INSTRUCTION_FETCH_FAULT: the fetch of the word at va failed; the trap has TPC at the instruction, its PFX where the second word
fails, and TVAL at the word (17 R269, Table 17-4). -/
def execInstructionFetchFault (va : Word) (k : XlateKind) (s : State) : Out :=
  .next (s.trapAt (xlateCause k) s.me.pc va)

end Sys2Proof.Machine
end

