-- ==== Sys2Proof/Machine/Update.lean ====
section
/-! DEFINITION. Update, window and region instructions, major 0x29 (23 R335 to R348). -/
namespace Sys2Proof.Machine

/-- UPD (23 R339). -/
def execUpd (d : XReg) (a : VReg) (b : VReg) (m : MReg) (s : State) : Out :=
  .next (s.vissue (packV 41#6 (0#1 ++ d) a b m 0#5) none 4)

/-- UPDA (23 R339). -/
def execUpda (d : XReg) (a : VReg) (b : VReg) (m : MReg) (s : State) : Out :=
  .next (s.vissue (packV 41#6 (0#1 ++ d) a b m 1#5) none 4)

/-- UWIN (23 R346). -/
def execUwin (d : XReg) (a : XReg) (s : State) : Out :=
  .next (s.vissueX (packV 41#6 (0#1 ++ d) (0#1 ++ a) 0#6 0#3 2#5) (fun e s => s.uwin e.xa) (.qdrain 0))

/-- UWIN.REL (23 R346). -/
def execUwinRel (d : XReg) (s : State) : Out :=
  .next (s.vissueX (packV 41#6 (0#1 ++ d) 0#6 1#6 0#3 2#5) (fun _ s => s.uwinRel) (.qdrain 0))

/-- UACC (23 R347). -/
def execUacc (a : VReg) (b : VReg) (m : MReg) (s : State) : Out :=
  .next (s.vissue (packV 41#6 0#6 a b m 3#5) none 4)

/-- UMERGE (23 R348). -/
def execUmerge (s : State) : Out :=
  .next (s.vissue (packV 41#6 0#6 0#6 0#6 0#3 4#5) none 4)

/-- UFLUSH (23 R344). -/
def execUflush (d : XReg) (s : State) : Out :=
  .next (s.vissue (packV 41#6 (0#1 ++ d) 0#6 0#6 0#3 5#5) none 4)

/-- UREGION (23 R337). -/
def execUregion (d : XReg) (a : XReg) (s : State) : Out :=
  .next (s.vissueX (packV 41#6 (0#1 ++ d) (0#1 ++ a) 0#6 0#3 6#5) (fun e s => s.uregion e.xa) (.qdrain 0))

/-- UREGION.REL (23 R338). -/
def execUregionRel (d : XReg) (a : XReg) (s : State) : Out :=
  .next (s.vissueX (packV 41#6 (0#1 ++ d) (0#1 ++ a) 1#6 0#3 6#5) (fun e s => s.uregionRel e.xa.toNat) (.regrel d (s.getX a).toNat))

/-- UQUERY (23 R345). -/
def execUquery (d : XReg) (a : XReg) (s : State) : Out :=
  .next (s.vissueX (packV 41#6 (0#1 ++ d) (0#1 ++ a) 0#6 0#3 7#5) (fun e s => .done s (s.uquery e.xa)) (.qdrain 0))

end Sys2Proof.Machine
end

