-- ==== Sys2Proof/Machine/VArith.lean ====
section
/-! DEFINITION. Vector arithmetic, majors 0x21 and 0x22: each meaning commits its word to the vector queue; what the vector unit then does is in VPlan and VExec (13 R195 to R198). -/
namespace Sys2Proof.Machine

/-- VADD: element-wise sum (13 R195). -/
def execVadd (d : VReg) (a : VReg) (b : VReg) (m : MReg) (s : State) : Out :=
  .next (s.vissue (packV 33#6 d a b m 0#5) none 4)

/-- VSUB: element-wise difference (13 R195). -/
def execVsub (d : VReg) (a : VReg) (b : VReg) (m : MReg) (s : State) : Out :=
  .next (s.vissue (packV 33#6 d a b m 1#5) none 4)

/-- VMUL: element-wise product, low half for integers (13 R195). -/
def execVmul (d : VReg) (a : VReg) (b : VReg) (m : MReg) (s : State) : Out :=
  .next (s.vissue (packV 33#6 d a b m 2#5) none 4)

/-- VDIV: element-wise quotient (13 R196). -/
def execVdiv (d : VReg) (a : VReg) (b : VReg) (m : MReg) (s : State) : Out :=
  .next (s.vissue (packV 33#6 d a b m 3#5) none 4)

/-- VMIN: element-wise minimum (13 R195). -/
def execVmin (d : VReg) (a : VReg) (b : VReg) (m : MReg) (s : State) : Out :=
  .next (s.vissue (packV 33#6 d a b m 4#5) none 4)

/-- VMAX: element-wise maximum (13 R195). -/
def execVmax (d : VReg) (a : VReg) (b : VReg) (m : MReg) (s : State) : Out :=
  .next (s.vissue (packV 33#6 d a b m 5#5) none 4)

/-- VABS: absolute values (13 R195). -/
def execVabs (d : VReg) (a : VReg) (m : MReg) (s : State) : Out :=
  .next (s.vissue (packV 33#6 d a 0#6 m 6#5) none 4)

/-- VNEG: negation (13 R195). -/
def execVneg (d : VReg) (a : VReg) (m : MReg) (s : State) : Out :=
  .next (s.vissue (packV 33#6 d a 0#6 m 7#5) none 4)

/-- VSQRT: square roots (13 R195). -/
def execVsqrt (d : VReg) (a : VReg) (m : MReg) (s : State) : Out :=
  .next (s.vissue (packV 33#6 d a 0#6 m 8#5) none 4)

/-- VFMA: va × vb + vd, fused (13 R197). -/
def execVfma (d : VReg) (a : VReg) (b : VReg) (m : MReg) (s : State) : Out :=
  .next (s.vissue (packV 33#6 d a b m 9#5) none 4)

/-- VFMS: va × vb − vd, fused (13 R197). -/
def execVfms (d : VReg) (a : VReg) (b : VReg) (m : MReg) (s : State) : Out :=
  .next (s.vissue (packV 33#6 d a b m 10#5) none 4)

/-- VFNMA: vd − va × vb, fused (13 R197). -/
def execVfnma (d : VReg) (a : VReg) (b : VReg) (m : MReg) (s : State) : Out :=
  .next (s.vissue (packV 33#6 d a b m 11#5) none 4)

/-- VAND: bitwise and (13 R195). -/
def execVand (d : VReg) (a : VReg) (b : VReg) (m : MReg) (s : State) : Out :=
  .next (s.vissue (packV 33#6 d a b m 12#5) none 4)

/-- VOR: bitwise or (13 R195). -/
def execVor (d : VReg) (a : VReg) (b : VReg) (m : MReg) (s : State) : Out :=
  .next (s.vissue (packV 33#6 d a b m 13#5) none 4)

/-- VXOR: bitwise exclusive or (13 R195). -/
def execVxor (d : VReg) (a : VReg) (b : VReg) (m : MReg) (s : State) : Out :=
  .next (s.vissue (packV 33#6 d a b m 14#5) none 4)

/-- VNOT: bitwise complement (13 R195). -/
def execVnot (d : VReg) (a : VReg) (m : MReg) (s : State) : Out :=
  .next (s.vissue (packV 33#6 d a 0#6 m 15#5) none 4)

/-- VSLL: left shift (13 R195). -/
def execVsll (d : VReg) (a : VReg) (b : VReg) (m : MReg) (s : State) : Out :=
  .next (s.vissue (packV 33#6 d a b m 16#5) none 4)

/-- VSRL: logical right shift (13 R195). -/
def execVsrl (d : VReg) (a : VReg) (b : VReg) (m : MReg) (s : State) : Out :=
  .next (s.vissue (packV 33#6 d a b m 17#5) none 4)

/-- VSRA: arithmetic right shift (13 R195). -/
def execVsra (d : VReg) (a : VReg) (b : VReg) (m : MReg) (s : State) : Out :=
  .next (s.vissue (packV 33#6 d a b m 18#5) none 4)

/-- VMULH: high half of the product (13 R195). -/
def execVmulh (d : VReg) (a : VReg) (b : VReg) (m : MReg) (s : State) : Out :=
  .next (s.vissue (packV 33#6 d a b m 19#5) none 4)

/-- VSADD: saturating sum (13 R195). -/
def execVsadd (d : VReg) (a : VReg) (b : VReg) (m : MReg) (s : State) : Out :=
  .next (s.vissue (packV 33#6 d a b m 20#5) none 4)

/-- VSSUB: saturating difference (13 R195). -/
def execVssub (d : VReg) (a : VReg) (b : VReg) (m : MReg) (s : State) : Out :=
  .next (s.vissue (packV 33#6 d a b m 21#5) none 4)

/-- VCLZ: leading zeros (13 R195). -/
def execVclz (d : VReg) (a : VReg) (m : MReg) (s : State) : Out :=
  .next (s.vissue (packV 33#6 d a 0#6 m 22#5) none 4)

/-- VPOPC: ones (13 R195). -/
def execVpopc (d : VReg) (a : VReg) (m : MReg) (s : State) : Out :=
  .next (s.vissue (packV 33#6 d a 0#6 m 23#5) none 4)

/-- VMOV: copy of the active elements (13 R195). -/
def execVmov (d : VReg) (a : VReg) (m : MReg) (s : State) : Out :=
  .next (s.vissue (packV 33#6 d a 0#6 m 24#5) none 4)

/-- VMERGE: vb where the mask is on, else va (13 R198). -/
def execVmerge (d : VReg) (a : VReg) (b : VReg) (m : MReg) (s : State) : Out :=
  .next (s.vissue (packV 33#6 d a b m 25#5) none 4)

/-- VCPS: va with the sign of vb (13 R195). -/
def execVcps (d : VReg) (a : VReg) (b : VReg) (m : MReg) (s : State) : Out :=
  .next (s.vissue (packV 33#6 d a b m 26#5) none 4)

/-- VCLASS: class of each value (13 R195). -/
def execVclass (d : VReg) (a : VReg) (m : MReg) (s : State) : Out :=
  .next (s.vissue (packV 33#6 d a 0#6 m 27#5) none 4)

/-- VMODMUL: product modulo q (13 R195). -/
def execVmodmul (d : VReg) (a : VReg) (b : VReg) (m : MReg) (s : State) : Out :=
  .next (s.vissue (packV 33#6 d a b m 28#5) none 4)

/-- VMODADD: sum modulo q (13 R195). -/
def execVmodadd (d : VReg) (a : VReg) (b : VReg) (m : MReg) (s : State) : Out :=
  .next (s.vissue (packV 33#6 d a b m 29#5) none 4)

/-- VMODSUB: difference modulo q (13 R195). -/
def execVmodsub (d : VReg) (a : VReg) (b : VReg) (m : MReg) (s : State) : Out :=
  .next (s.vissue (packV 33#6 d a b m 30#5) none 4)

/-- VTAG: bits copied under a new tag (13 R198). -/
def execVtag (d : VReg) (a : VReg) (t : Tag) (s : State) : Out :=
  .next (s.vissue (packV 33#6 d a (0#1 ++ t.code) 0#3 31#5) none 4)

/-- VADD with a scalar operand: element-wise sum (13 R120). -/
def execVaddVs (d : VReg) (a : VReg) (x : BitVec 5) (m : MReg) (i : Bool) (s : State) : Out :=
  .next (s.vissue (packS 34#6 d a x m (BitVec.ofBool i) 0#5) none 4)

/-- VSUB with a scalar operand: element-wise difference (13 R120). -/
def execVsubVs (d : VReg) (a : VReg) (x : BitVec 5) (m : MReg) (i : Bool) (s : State) : Out :=
  .next (s.vissue (packS 34#6 d a x m (BitVec.ofBool i) 1#5) none 4)

/-- VMUL with a scalar operand: element-wise product, low half for integers (13 R120). -/
def execVmulVs (d : VReg) (a : VReg) (x : BitVec 5) (m : MReg) (i : Bool) (s : State) : Out :=
  .next (s.vissue (packS 34#6 d a x m (BitVec.ofBool i) 2#5) none 4)

/-- VDIV with a scalar operand: element-wise quotient (13 R120). -/
def execVdivVs (d : VReg) (a : VReg) (x : BitVec 5) (m : MReg) (i : Bool) (s : State) : Out :=
  .next (s.vissue (packS 34#6 d a x m (BitVec.ofBool i) 3#5) none 4)

/-- VMIN with a scalar operand: element-wise minimum (13 R121). -/
def execVminVs (d : VReg) (a : VReg) (x : BitVec 5) (m : MReg) (i : Bool) (s : State) : Out :=
  .next (s.vissue (packS 34#6 d a x m (BitVec.ofBool i) 4#5) none 4)

/-- VMAX with a scalar operand: element-wise maximum (13 R121). -/
def execVmaxVs (d : VReg) (a : VReg) (x : BitVec 5) (m : MReg) (i : Bool) (s : State) : Out :=
  .next (s.vissue (packS 34#6 d a x m (BitVec.ofBool i) 5#5) none 4)

/-- VFMA with a scalar operand: va × vb + vd, fused (13 R197). -/
def execVfmaVs (d : VReg) (a : VReg) (x : BitVec 5) (m : MReg) (i : Bool) (s : State) : Out :=
  .next (s.vissue (packS 34#6 d a x m (BitVec.ofBool i) 9#5) none 4)

/-- VFMS with a scalar operand: va × vb − vd, fused (13 R197). -/
def execVfmsVs (d : VReg) (a : VReg) (x : BitVec 5) (m : MReg) (i : Bool) (s : State) : Out :=
  .next (s.vissue (packS 34#6 d a x m (BitVec.ofBool i) 10#5) none 4)

/-- VFNMA with a scalar operand: vd − va × vb, fused (13 R197). -/
def execVfnmaVs (d : VReg) (a : VReg) (x : BitVec 5) (m : MReg) (i : Bool) (s : State) : Out :=
  .next (s.vissue (packS 34#6 d a x m (BitVec.ofBool i) 11#5) none 4)

/-- VAND with a scalar operand: bitwise and (13 R120). -/
def execVandVs (d : VReg) (a : VReg) (x : BitVec 5) (m : MReg) (i : Bool) (s : State) : Out :=
  .next (s.vissue (packS 34#6 d a x m (BitVec.ofBool i) 12#5) none 4)

/-- VOR with a scalar operand: bitwise or (13 R120). -/
def execVorVs (d : VReg) (a : VReg) (x : BitVec 5) (m : MReg) (i : Bool) (s : State) : Out :=
  .next (s.vissue (packS 34#6 d a x m (BitVec.ofBool i) 13#5) none 4)

/-- VXOR with a scalar operand: bitwise exclusive or (13 R120). -/
def execVxorVs (d : VReg) (a : VReg) (x : BitVec 5) (m : MReg) (i : Bool) (s : State) : Out :=
  .next (s.vissue (packS 34#6 d a x m (BitVec.ofBool i) 14#5) none 4)

/-- VSLL with a scalar operand: left shift (13 R120). -/
def execVsllVs (d : VReg) (a : VReg) (x : BitVec 5) (m : MReg) (i : Bool) (s : State) : Out :=
  .next (s.vissue (packS 34#6 d a x m (BitVec.ofBool i) 16#5) none 4)

/-- VSRL with a scalar operand: logical right shift (13 R120). -/
def execVsrlVs (d : VReg) (a : VReg) (x : BitVec 5) (m : MReg) (i : Bool) (s : State) : Out :=
  .next (s.vissue (packS 34#6 d a x m (BitVec.ofBool i) 17#5) none 4)

/-- VSRA with a scalar operand: arithmetic right shift (13 R120). -/
def execVsraVs (d : VReg) (a : VReg) (x : BitVec 5) (m : MReg) (i : Bool) (s : State) : Out :=
  .next (s.vissue (packS 34#6 d a x m (BitVec.ofBool i) 18#5) none 4)

/-- VMULH with a scalar operand: high half of the product (13 R120). -/
def execVmulhVs (d : VReg) (a : VReg) (x : BitVec 5) (m : MReg) (i : Bool) (s : State) : Out :=
  .next (s.vissue (packS 34#6 d a x m (BitVec.ofBool i) 19#5) none 4)

/-- VSADD with a scalar operand: saturating sum (13 R120). -/
def execVsaddVs (d : VReg) (a : VReg) (x : BitVec 5) (m : MReg) (i : Bool) (s : State) : Out :=
  .next (s.vissue (packS 34#6 d a x m (BitVec.ofBool i) 20#5) none 4)

/-- VSSUB with a scalar operand: saturating difference (13 R120). -/
def execVssubVs (d : VReg) (a : VReg) (x : BitVec 5) (m : MReg) (i : Bool) (s : State) : Out :=
  .next (s.vissue (packS 34#6 d a x m (BitVec.ofBool i) 21#5) none 4)

/-- VMERGE with a scalar operand: vb where the mask is on, else va (13 R121). -/
def execVmergeVs (d : VReg) (a : VReg) (x : BitVec 5) (m : MReg) (i : Bool) (s : State) : Out :=
  .next (s.vissue (packS 34#6 d a x m (BitVec.ofBool i) 25#5) none 4)

/-- VCPS with a scalar operand: va with the sign of vb (13 R120). -/
def execVcpsVs (d : VReg) (a : VReg) (x : BitVec 5) (m : MReg) (i : Bool) (s : State) : Out :=
  .next (s.vissue (packS 34#6 d a x m (BitVec.ofBool i) 26#5) none 4)

/-- VMODMUL with a scalar operand: product modulo q (13 R120). -/
def execVmodmulVs (d : VReg) (a : VReg) (x : BitVec 5) (m : MReg) (i : Bool) (s : State) : Out :=
  .next (s.vissue (packS 34#6 d a x m (BitVec.ofBool i) 28#5) none 4)

/-- VMODADD with a scalar operand: sum modulo q (13 R120). -/
def execVmodaddVs (d : VReg) (a : VReg) (x : BitVec 5) (m : MReg) (i : Bool) (s : State) : Out :=
  .next (s.vissue (packS 34#6 d a x m (BitVec.ofBool i) 29#5) none 4)

/-- VMODSUB with a scalar operand: difference modulo q (13 R120). -/
def execVmodsubVs (d : VReg) (a : VReg) (x : BitVec 5) (m : MReg) (i : Bool) (s : State) : Out :=
  .next (s.vissue (packS 34#6 d a x m (BitVec.ofBool i) 30#5) none 4)

end Sys2Proof.Machine
end

