-- ==== Sys2Proof/Machine/VLoadStore.lean ====
section
/-! DEFINITION. Vector loads and stores, majors 0x27 and 0x28: each meaning commits its word to the vector queue; the accesses are in VMem (15 R220 to R233). -/
namespace Sys2Proof.Machine

/-- VLD (15 R222). -/
def execVld (d : VReg) (x : XReg) (m : MReg) (s : State) : Out :=
  .next (s.vissue (packM 39#6 d x 0#6 m 0#3 0#3) none 4)

/-- VLDS (15 R222). -/
def execVlds (d : VReg) (x : XReg) (b : XReg) (m : MReg) (s : State) : Out :=
  .next (s.vissue (packM 39#6 d x (0#1 ++ b) m 0#3 1#3) none 4)

/-- VLDSEG (15 R226). -/
def execVldseg (d : VReg) (x : XReg) (m : MReg) (n : BitVec 3) (s : State) : Out :=
  .next (s.vissue (packM 39#6 d x 0#6 m n 2#3) none 4)

/-- VLDX (15 R227). -/
def execVldx (d : VReg) (x : XReg) (b : VReg) (m : MReg) (o : Bool) (s : State) : Out :=
  .next (s.vissue (packM 39#6 d x b m (0#2 ++ BitVec.ofBool o) 3#3) none 4)

/-- VLDFF (15 R228). -/
def execVldff (d : VReg) (x : XReg) (m : MReg) (s : State) : Out :=
  .next (s.vissue (packM 39#6 d x 0#6 m 0#3 4#3) none 4)

/-- VLDW (15 R230). -/
def execVldw (d : VReg) (x : XReg) (w : WReg) (m : MReg) (s : State) : Out :=
  .next (s.vissue (packM 39#6 d x w m 0#3 5#3) none 4)

/-- VGWIN (15 R229). -/
def execVgwin (d : VReg) (x : XReg) (b : VReg) (m : MReg) (o : Bool) (s : State) : Out :=
  .next (s.vissue (packM 39#6 d x b m (0#2 ++ BitVec.ofBool o) 6#3) none 4)

/-- VLDFE (15 R232). -/
def execVldfe (d : VReg) (x : XReg) (m : MReg) (c : Bool) (s : State) : Out :=
  .next (s.vissue (packM 39#6 d x 0#6 m (0#2 ++ BitVec.ofBool c) 7#3) none 4)

/-- VST (15 R222). -/
def execVst (v : VReg) (x : XReg) (m : MReg) (s : State) : Out :=
  .next (s.vissue (packM 40#6 v x 0#6 m 0#3 0#3) none 4)

/-- VSTS (15 R222). -/
def execVsts (v : VReg) (x : XReg) (b : XReg) (m : MReg) (s : State) : Out :=
  .next (s.vissue (packM 40#6 v x (0#1 ++ b) m 0#3 1#3) none 4)

/-- VSTSEG (15 R226). -/
def execVstseg (v : VReg) (x : XReg) (m : MReg) (n : BitVec 3) (s : State) : Out :=
  .next (s.vissue (packM 40#6 v x 0#6 m n 2#3) none 4)

/-- VSTX (15 R101). -/
def execVstx (v : VReg) (x : XReg) (b : VReg) (m : MReg) (o : Bool) (s : State) : Out :=
  .next (s.vissue (packM 40#6 v x b m (0#2 ++ BitVec.ofBool o) 3#3) none 4)

/-- VSTXO (15 R101). -/
def execVstxo (v : VReg) (x : XReg) (b : VReg) (m : MReg) (o : Bool) (s : State) : Out :=
  .next (s.vissue (packM 40#6 v x b m (0#2 ++ BitVec.ofBool o) 4#3) none 4)

/-- VSTFE (15 R233). -/
def execVstfe (v : VReg) (x : XReg) (m : MReg) (s : State) : Out :=
  .next (s.vissue (packM 40#6 v x 0#6 m 0#3 5#3) none 4)

/-- VSTWM (15 R231). -/
def execVstwm (v : VReg) (x : XReg) (w : WReg) (m : MReg) (s : State) : Out :=
  .next (s.vissue (packM 40#6 v x w m 0#3 6#3) none 4)

end Sys2Proof.Machine
end

