-- ==== Sys2Proof/Machine/VMask.lean ====
section
/-! DEFINITION. Vector compares, mask functions and reductions, majors 0x23 and 0x24 (13 R199 to R206). -/
namespace Sys2Proof.Machine

/-- VCMPEQ (13 R200). -/
def execVcmpeq (d : MReg) (a : VReg) (b : VReg) (m : MReg) (s : State) : Out :=
  .next (s.vissue (packV 35#6 (0#3 ++ d) a b m 0#5) none 4)

/-- VCMPNE (13 R200). -/
def execVcmpne (d : MReg) (a : VReg) (b : VReg) (m : MReg) (s : State) : Out :=
  .next (s.vissue (packV 35#6 (0#3 ++ d) a b m 1#5) none 4)

/-- VCMPLT (13 R200). -/
def execVcmplt (d : MReg) (a : VReg) (b : VReg) (m : MReg) (s : State) : Out :=
  .next (s.vissue (packV 35#6 (0#3 ++ d) a b m 2#5) none 4)

/-- VCMPLE (13 R200). -/
def execVcmple (d : MReg) (a : VReg) (b : VReg) (m : MReg) (s : State) : Out :=
  .next (s.vissue (packV 35#6 (0#3 ++ d) a b m 3#5) none 4)

/-- VCMPUN (13 R200). -/
def execVcmpun (d : MReg) (a : VReg) (b : VReg) (m : MReg) (s : State) : Out :=
  .next (s.vissue (packV 35#6 (0#3 ++ d) a b m 4#5) none 4)

/-- MAND (13 R201). -/
def execMand (d : MReg) (a : MReg) (b : MReg) (s : State) : Out :=
  .next (s.vissue (packV 35#6 (0#3 ++ d) (0#3 ++ a) (0#3 ++ b) 0#3 5#5) none 4)

/-- MOR (13 R201). -/
def execMor (d : MReg) (a : MReg) (b : MReg) (s : State) : Out :=
  .next (s.vissue (packV 35#6 (0#3 ++ d) (0#3 ++ a) (0#3 ++ b) 0#3 6#5) none 4)

/-- MXOR (13 R201). -/
def execMxor (d : MReg) (a : MReg) (b : MReg) (s : State) : Out :=
  .next (s.vissue (packV 35#6 (0#3 ++ d) (0#3 ++ a) (0#3 ++ b) 0#3 7#5) none 4)

/-- MANDN (13 R201). -/
def execMandn (d : MReg) (a : MReg) (b : MReg) (s : State) : Out :=
  .next (s.vissue (packV 35#6 (0#3 ++ d) (0#3 ++ a) (0#3 ++ b) 0#3 8#5) none 4)

/-- MNOT (13 R201). -/
def execMnot (d : MReg) (a : MReg) (s : State) : Out :=
  .next (s.vissue (packV 35#6 (0#3 ++ d) (0#3 ++ a) 0#6 0#3 9#5) none 4)

/-- MPOPC (13 R201). -/
def execMpopc (d : XReg) (a : MReg) (m : MReg) (s : State) : Out :=
  .next (s.vissueToX (packV 35#6 (0#1 ++ d) (0#3 ++ a) 0#6 m 10#5))

/-- MFIRST (13 R201). -/
def execMfirst (d : XReg) (a : MReg) (m : MReg) (s : State) : Out :=
  .next (s.vissueToX (packV 35#6 (0#1 ++ d) (0#3 ++ a) 0#6 m 11#5))

/-- MSET (13 R201). -/
def execMset (d : MReg) (a : XReg) (s : State) : Out :=
  .next (s.vissue (packV 35#6 (0#3 ++ d) (0#1 ++ a) 0#6 0#3 12#5) none 4)

/-- MFROMV (13 R201). -/
def execMfromv (d : MReg) (a : VReg) (m : MReg) (s : State) : Out :=
  .next (s.vissue (packV 35#6 (0#3 ++ d) a 0#6 m 13#5) none 4)

/-- VREDSUM (13 R203). -/
def execVredsum (d : VReg) (a : VReg) (b : VReg) (m : MReg) (s : State) : Out :=
  .next (s.vissue (packV 36#6 d a b m 0#5) none 4)

/-- VREDSUMO (13 R203). -/
def execVredsumo (d : VReg) (a : VReg) (b : VReg) (m : MReg) (s : State) : Out :=
  .next (s.vissue (packV 36#6 d a b m 1#5) none 4)

/-- VREDMIN (13 R202). -/
def execVredmin (d : VReg) (a : VReg) (b : VReg) (m : MReg) (s : State) : Out :=
  .next (s.vissue (packV 36#6 d a b m 2#5) none 4)

/-- VREDMAX (13 R202). -/
def execVredmax (d : VReg) (a : VReg) (b : VReg) (m : MReg) (s : State) : Out :=
  .next (s.vissue (packV 36#6 d a b m 3#5) none 4)

/-- VREDAND (13 R202). -/
def execVredand (d : VReg) (a : VReg) (b : VReg) (m : MReg) (s : State) : Out :=
  .next (s.vissue (packV 36#6 d a b m 4#5) none 4)

/-- VREDOR (13 R202). -/
def execVredor (d : VReg) (a : VReg) (b : VReg) (m : MReg) (s : State) : Out :=
  .next (s.vissue (packV 36#6 d a b m 5#5) none 4)

/-- VREDXOR (13 R202). -/
def execVredxor (d : VReg) (a : VReg) (b : VReg) (m : MReg) (s : State) : Out :=
  .next (s.vissue (packV 36#6 d a b m 6#5) none 4)

/-- VDOT (13 R204). -/
def execVdot (d : VReg) (a : VReg) (b : VReg) (m : MReg) (s : State) : Out :=
  .next (s.vissue (packV 36#6 d a b m 7#5) none 4)

/-- VXACC (13 R205). -/
def execVxacc (a : VReg) (b : VReg) (m : MReg) (s : State) : Out :=
  .next (s.vissue (packV 36#6 0#6 a b m 8#5) none 4)

/-- VXRND (13 R206). -/
def execVxrnd (d : VReg) (s : State) : Out :=
  .next (s.vissue (packV 36#6 d 0#6 0#6 0#3 9#5) none 4)

/-- VXRND.CLR (13 R206). -/
def execVxrndClr (d : VReg) (s : State) : Out :=
  .next (s.vissue (packV 36#6 d 0#6 1#6 0#3 9#5) none 4)

end Sys2Proof.Machine
end

