-- ==== Sys2Proof/Machine/VPerm.lean ====
section
/-! DEFINITION. Vector conversions and permutations, majors 0x25 and 0x26 (13 R207 to R219). -/
namespace Sys2Proof.Machine

/-- VCVTH (13 R208). -/
def execVcvth (d : VReg) (a : VReg) (t : Tag) (m : MReg) (s : State) : Out :=
  .next (s.vissue (packV 37#6 d a (0#1 ++ t.code) m 0#5) none 4)

/-- VCVTD (13 R208). -/
def execVcvtd (d : VReg) (a : VReg) (t : Tag) (m : MReg) (s : State) : Out :=
  .next (s.vissue (packV 37#6 d a (0#1 ++ t.code) m 1#5) none 4)

/-- VCVTF4 (13 R209). -/
def execVcvtf4 (d : VReg) (a : VReg) (t : BitVec 2) (s : State) : Out :=
  .next (s.vissue (packV 37#6 d a (0#4 ++ t) 0#3 2#5) none 4)

/-- VCVTI (13 R208). -/
def execVcvti (d : VReg) (a : VReg) (t : Tag) (m : MReg) (s : State) : Out :=
  .next (s.vissue (packV 37#6 d a (0#1 ++ t.code) m 3#5) none 4)

/-- VCVTF (13 R208). -/
def execVcvtf (d : VReg) (a : VReg) (t : Tag) (m : MReg) (s : State) : Out :=
  .next (s.vissue (packV 37#6 d a (0#1 ++ t.code) m 4#5) none 4)

/-- VQUANT (13 R209). -/
def execVquant (d : VReg) (a : VReg) (b : VReg) (s : State) : Out :=
  .next (s.vissue (packV 37#6 d a b 0#3 5#5) none 4)

/-- VDEQ (13 R210). -/
def execVdeq (d : VReg) (a : VReg) (t : Tag) (m : MReg) (s : State) : Out :=
  .next (s.vissue (packV 37#6 d a (0#1 ++ t.code) m 6#5) none 4)

/-- VSCALE (13 R211). -/
def execVscale (d : VReg) (a : VReg) (b : VReg) (m : MReg) (s : State) : Out :=
  .next (s.vissue (packV 37#6 d a b m 7#5) none 4)

/-- VPACKS (13 R212). -/
def execVpacks (d : VReg) (a : VReg) (b : VReg) (m : MReg) (s : State) : Out :=
  .next (s.vissue (packV 37#6 d a b m 8#5) none 4)

/-- VBFPN (13 R213). -/
def execVbfpn (d : VReg) (a : VReg) (t : Tag) (m : MReg) (s : State) : Out :=
  .next (s.vissue (packV 37#6 d a (0#1 ++ t.code) m 9#5) none 4)

/-- VGATHR (13 R215). -/
def execVgathr (d : VReg) (a : VReg) (b : VReg) (m : MReg) (s : State) : Out :=
  .next (s.vissue (packV 38#6 d a b m 0#5) none 4)

/-- VSLIDEUP (13 R216). -/
def execVslideup (d : VReg) (a : VReg) (b : XReg) (m : MReg) (s : State) : Out :=
  .next (s.vissue (packV 38#6 d a (0#1 ++ b) m 1#5) none 4)

/-- VSLIDEDN (13 R216). -/
def execVslidedn (d : VReg) (a : VReg) (b : XReg) (m : MReg) (s : State) : Out :=
  .next (s.vissue (packV 38#6 d a (0#1 ++ b) m 2#5) none 4)

/-- VCOMPR (13 R217). -/
def execVcompr (d : VReg) (a : VReg) (m : MReg) (s : State) : Out :=
  .next (s.vissue (packV 38#6 d a 0#6 m 3#5) none 4)

/-- VEXPND (13 R217). -/
def execVexpnd (d : VReg) (a : VReg) (m : MReg) (s : State) : Out :=
  .next (s.vissue (packV 38#6 d a 0#6 m 4#5) none 4)

/-- VIOTA (13 R217). -/
def execViota (d : VReg) (b : MReg) (m : MReg) (s : State) : Out :=
  .next (s.vissue (packV 38#6 d 0#6 (0#3 ++ b) m 5#5) none 4)

/-- VID (13 R217). -/
def execVid (d : VReg) (m : MReg) (s : State) : Out :=
  .next (s.vissue (packV 38#6 d 0#6 0#6 m 6#5) none 4)

/-- VBCAST (13 R216). -/
def execVbcast (d : VReg) (a : VReg) (b : XReg) (m : MReg) (s : State) : Out :=
  .next (s.vissue (packV 38#6 d a (0#1 ++ b) m 7#5) none 4)

/-- VEXTR (13 R216). -/
def execVextr (d : XReg) (a : VReg) (b : XReg) (s : State) : Out :=
  .next (s.vissueToX (packV 38#6 (0#1 ++ d) a (0#1 ++ b) 0#3 8#5))

/-- VINSRT (13 R216). -/
def execVinsrt (d : VReg) (a : XReg) (b : XReg) (s : State) : Out :=
  .next (s.vissue (packV 38#6 d (0#1 ++ a) (0#1 ++ b) 0#3 9#5) none 4)

/-- VREV (13 R218). -/
def execVrev (d : VReg) (a : VReg) (m : MReg) (s : State) : Out :=
  .next (s.vissue (packV 38#6 d a 0#6 m 10#5) none 4)

/-- VZIP (13 R218). -/
def execVzip (d : VReg) (a : VReg) (b : VReg) (s : State) : Out :=
  .next (s.vissue (packV 38#6 d a b 0#3 11#5) none 4)

/-- VUNZIP (13 R218). -/
def execVunzip (d : VReg) (a : VReg) (h : Bool) (s : State) : Out :=
  .next (s.vissue (packV 38#6 d a (0#5 ++ BitVec.ofBool h) 0#3 12#5) none 4)

/-- VSTRP (13 R218). -/
def execVstrp (d : VReg) (a : VReg) (b : XReg) (s : State) : Out :=
  .next (s.vissue (packV 38#6 d a (0#1 ++ b) 0#3 13#5) none 4)

/-- VCONFD (13 R219). -/
def execVconfd (d : MReg) (a : VReg) (m : MReg) (s : State) : Out :=
  .next (s.vissue (packV 38#6 (0#3 ++ d) a 0#6 m 14#5) none 4)

end Sys2Proof.Machine
end

