-- ==== Sys2Proof/Machine/Dispatch.lean ====
section
/-! DEFINITION. One arm per constructor of Instr. -/
namespace Sys2Proof.Machine

/-- What an instruction, event or command does to the state. -/
def exec (i : Instr) (s : State) : Host.Outcome State Fault Refusal :=
  match i with
  | .add x1 x2 x3 => Sys2Proof.Machine.execAdd x1 x2 x3 s
  | .sub x1 x2 x3 => Sys2Proof.Machine.execSub x1 x2 x3 s
  | .and x1 x2 x3 => Sys2Proof.Machine.execAnd x1 x2 x3 s
  | .or x1 x2 x3 => Sys2Proof.Machine.execOr x1 x2 x3 s
  | .xor x1 x2 x3 => Sys2Proof.Machine.execXor x1 x2 x3 s
  | .andn x1 x2 x3 => Sys2Proof.Machine.execAndn x1 x2 x3 s
  | .orn x1 x2 x3 => Sys2Proof.Machine.execOrn x1 x2 x3 s
  | .sll x1 x2 x3 => Sys2Proof.Machine.execSll x1 x2 x3 s
  | .srl x1 x2 x3 => Sys2Proof.Machine.execSrl x1 x2 x3 s
  | .sra x1 x2 x3 => Sys2Proof.Machine.execSra x1 x2 x3 s
  | .ror x1 x2 x3 => Sys2Proof.Machine.execRor x1 x2 x3 s
  | .mul x1 x2 x3 => Sys2Proof.Machine.execMul x1 x2 x3 s
  | .mulh x1 x2 x3 => Sys2Proof.Machine.execMulh x1 x2 x3 s
  | .mulhz x1 x2 x3 => Sys2Proof.Machine.execMulhz x1 x2 x3 s
  | .div x1 x2 x3 => Sys2Proof.Machine.execDiv x1 x2 x3 s
  | .divz x1 x2 x3 => Sys2Proof.Machine.execDivz x1 x2 x3 s
  | .rem x1 x2 x3 => Sys2Proof.Machine.execRem x1 x2 x3 s
  | .remz x1 x2 x3 => Sys2Proof.Machine.execRemz x1 x2 x3 s
  | .min x1 x2 x3 => Sys2Proof.Machine.execMin x1 x2 x3 s
  | .max x1 x2 x3 => Sys2Proof.Machine.execMax x1 x2 x3 s
  | .minz x1 x2 x3 => Sys2Proof.Machine.execMinz x1 x2 x3 s
  | .maxz x1 x2 x3 => Sys2Proof.Machine.execMaxz x1 x2 x3 s
  | .seq x1 x2 x3 => Sys2Proof.Machine.execSeq x1 x2 x3 s
  | .slt x1 x2 x3 => Sys2Proof.Machine.execSlt x1 x2 x3 s
  | .sltz x1 x2 x3 => Sys2Proof.Machine.execSltz x1 x2 x3 s
  | .clz x1 x2 => Sys2Proof.Machine.execClz x1 x2 s
  | .ctz x1 x2 => Sys2Proof.Machine.execCtz x1 x2 s
  | .popc x1 x2 => Sys2Proof.Machine.execPopc x1 x2 s
  | .sext x1 x2 x3 => Sys2Proof.Machine.execSext x1 x2 x3 s
  | .zext x1 x2 x3 => Sys2Proof.Machine.execZext x1 x2 x3 s
  | .bfx x1 x2 x3 x4 => Sys2Proof.Machine.execBfx x1 x2 x3 x4 s
  | .bfi x1 x2 x3 x4 => Sys2Proof.Machine.execBfi x1 x2 x3 x4 s
  | .addi x1 x2 x3 => Sys2Proof.Machine.execAddi x1 x2 x3 s
  | .andi x1 x2 x3 => Sys2Proof.Machine.execAndi x1 x2 x3 s
  | .ori x1 x2 x3 => Sys2Proof.Machine.execOri x1 x2 x3 s
  | .xori x1 x2 x3 => Sys2Proof.Machine.execXori x1 x2 x3 s
  | .slti x1 x2 x3 => Sys2Proof.Machine.execSlti x1 x2 x3 s
  | .lih x1 x2 x3 => Sys2Proof.Machine.execLih x1 x2 x3 s
  | .slli x1 x2 x3 => Sys2Proof.Machine.execSlli x1 x2 x3 s
  | .srli x1 x2 x3 => Sys2Proof.Machine.execSrli x1 x2 x3 s
  | .srai x1 x2 x3 => Sys2Proof.Machine.execSrai x1 x2 x3 s
  | .rori x1 x2 x3 => Sys2Proof.Machine.execRori x1 x2 x3 s
  | .ld x1 x2 x3 x4 => Sys2Proof.Machine.execLd x1 x2 x3 x4 s
  | .ldz x1 x2 x3 x4 => Sys2Proof.Machine.execLdz x1 x2 x3 x4 s
  | .st x1 x2 x3 x4 => Sys2Proof.Machine.execSt x1 x2 x3 x4 s
  | .fldw x1 x2 x3 => Sys2Proof.Machine.execFldw x1 x2 x3 s
  | .fldd x1 x2 x3 => Sys2Proof.Machine.execFldd x1 x2 x3 s
  | .fstw x1 x2 x3 => Sys2Proof.Machine.execFstw x1 x2 x3 s
  | .fstd x1 x2 x3 => Sys2Proof.Machine.execFstd x1 x2 x3 s
  | .beq x1 x2 x3 => Sys2Proof.Machine.execBeq x1 x2 x3 s
  | .bne x1 x2 x3 => Sys2Proof.Machine.execBne x1 x2 x3 s
  | .blt x1 x2 x3 => Sys2Proof.Machine.execBlt x1 x2 x3 s
  | .bge x1 x2 x3 => Sys2Proof.Machine.execBge x1 x2 x3 s
  | .blo x1 x2 x3 => Sys2Proof.Machine.execBlo x1 x2 x3 s
  | .bhs x1 x2 x3 => Sys2Proof.Machine.execBhs x1 x2 x3 s
  | .jl x1 x2 => Sys2Proof.Machine.execJl x1 x2 s
  | .jlr x1 x2 x3 => Sys2Proof.Machine.execJlr x1 x2 x3 s
  | .pfx x1 x2 => Sys2Proof.Machine.execPfx x1 x2 s
  | .fadd x1 x2 x3 x4 x5 => Sys2Proof.Machine.execFadd x1 x2 x3 x4 x5 s
  | .fsub x1 x2 x3 x4 x5 => Sys2Proof.Machine.execFsub x1 x2 x3 x4 x5 s
  | .fmul x1 x2 x3 x4 x5 => Sys2Proof.Machine.execFmul x1 x2 x3 x4 x5 s
  | .fdiv x1 x2 x3 x4 x5 => Sys2Proof.Machine.execFdiv x1 x2 x3 x4 x5 s
  | .fsqrt x1 x2 x3 x4 => Sys2Proof.Machine.execFsqrt x1 x2 x3 x4 s
  | .fmin x1 x2 x3 x4 x5 => Sys2Proof.Machine.execFmin x1 x2 x3 x4 x5 s
  | .fmax x1 x2 x3 x4 x5 => Sys2Proof.Machine.execFmax x1 x2 x3 x4 x5 s
  | .fma x1 x2 x3 x4 x5 => Sys2Proof.Machine.execFma x1 x2 x3 x4 x5 s
  | .fneg x1 x2 x3 x4 => Sys2Proof.Machine.execFneg x1 x2 x3 x4 s
  | .fabs x1 x2 x3 x4 => Sys2Proof.Machine.execFabs x1 x2 x3 x4 s
  | .fcps x1 x2 x3 x4 x5 => Sys2Proof.Machine.execFcps x1 x2 x3 x4 x5 s
  | .feq x1 x2 x3 x4 x5 => Sys2Proof.Machine.execFeq x1 x2 x3 x4 x5 s
  | .flt x1 x2 x3 x4 x5 => Sys2Proof.Machine.execFlt x1 x2 x3 x4 x5 s
  | .fle x1 x2 x3 x4 x5 => Sys2Proof.Machine.execFle x1 x2 x3 x4 x5 s
  | .fcvt x1 x2 x3 => Sys2Proof.Machine.execFcvt x1 x2 x3 s
  | .fmovxf x1 x2 x3 x4 => Sys2Proof.Machine.execFmovxf x1 x2 x3 x4 s
  | .fmovfx x1 x2 x3 => Sys2Proof.Machine.execFmovfx x1 x2 x3 s
  | .fclass x1 x2 x3 x4 => Sys2Proof.Machine.execFclass x1 x2 x3 x4 s
  | .amoswap x1 x2 x3 x4 x5 x6 => Sys2Proof.Machine.execAmoswap x1 x2 x3 x4 x5 x6 s
  | .amocas x1 x2 x3 x4 x5 x6 => Sys2Proof.Machine.execAmocas x1 x2 x3 x4 x5 x6 s
  | .amoadd x1 x2 x3 x4 x5 x6 => Sys2Proof.Machine.execAmoadd x1 x2 x3 x4 x5 x6 s
  | .amoand x1 x2 x3 x4 x5 x6 => Sys2Proof.Machine.execAmoand x1 x2 x3 x4 x5 x6 s
  | .amoor x1 x2 x3 x4 x5 x6 => Sys2Proof.Machine.execAmoor x1 x2 x3 x4 x5 x6 s
  | .amoxor x1 x2 x3 x4 x5 x6 => Sys2Proof.Machine.execAmoxor x1 x2 x3 x4 x5 x6 s
  | .amomin x1 x2 x3 x4 x5 x6 => Sys2Proof.Machine.execAmomin x1 x2 x3 x4 x5 x6 s
  | .amomax x1 x2 x3 x4 x5 x6 => Sys2Proof.Machine.execAmomax x1 x2 x3 x4 x5 x6 s
  | .amominz x1 x2 x3 x4 x5 x6 => Sys2Proof.Machine.execAmominz x1 x2 x3 x4 x5 x6 s
  | .amomaxz x1 x2 x3 x4 x5 x6 => Sys2Proof.Machine.execAmomaxz x1 x2 x3 x4 x5 x6 s
  | .ldacq x1 x2 x3 x4 => Sys2Proof.Machine.execLdacq x1 x2 x3 x4 s
  | .strel x1 x2 x3 x4 => Sys2Proof.Machine.execStrel x1 x2 x3 x4 s
  | .fence x1 => Sys2Proof.Machine.execFence x1 s
  | .waittl x1 x2 => Sys2Proof.Machine.execWaittl x1 x2 s
  | .waittlImm x1 x2 => Sys2Proof.Machine.execWaittlImm x1 x2 s
  | .tlread x1 x2 => Sys2Proof.Machine.execTlread x1 x2 s
  | .tlreadIss x1 x2 => Sys2Proof.Machine.execTlreadIss x1 x2 s
  | .tlbump x1 x2 x3 => Sys2Proof.Machine.execTlbump x1 x2 x3 s
  | .qdrain x1 => Sys2Proof.Machine.execQdrain x1 s
  | .gbar x1 => Sys2Proof.Machine.execGbar x1 s
  | .garrive x1 x2 => Sys2Proof.Machine.execGarrive x1 x2 s
  | .gwait x1 x2 => Sys2Proof.Machine.execGwait x1 x2 s
  | .acwait x1 x2 x3 => Sys2Proof.Machine.execAcwait x1 x2 x3 s
  | .wmpub x1 x2 => Sys2Proof.Machine.execWmpub x1 x2 s
  | .wmpubImm x1 x2 => Sys2Proof.Machine.execWmpubImm x1 x2 s
  | .wmread x1 x2 => Sys2Proof.Machine.execWmread x1 x2 s
  | .yield => Sys2Proof.Machine.execYield s
  | .sleep x1 x2 x3 => Sys2Proof.Machine.execSleep x1 x2 x3 s
  | .evpost x1 x2 x3 => Sys2Proof.Machine.execEvpost x1 x2 x3 s
  | .launch x1 x2 x3 x4 => Sys2Proof.Machine.execLaunch x1 x2 x3 x4 s
  | .crget x1 x2 => Sys2Proof.Machine.execCrget x1 x2 s
  | .crput x1 x2 => Sys2Proof.Machine.execCrput x1 x2 s
  | .crswap x1 x2 x3 => Sys2Proof.Machine.execCrswap x1 x2 x3 s
  | .ecall => Sys2Proof.Machine.execEcall s
  | .ebreak => Sys2Proof.Machine.execEbreak s
  | .rte => Sys2Proof.Machine.execRte s
  | .halts => Sys2Proof.Machine.execHalts s
  | .xinv x1 => Sys2Proof.Machine.execXinv x1 s
  | .xinvPage x1 x2 => Sys2Proof.Machine.execXinvPage x1 x2 s
  | .ctxsv x1 => Sys2Proof.Machine.execCtxsv x1 s
  | .ctxld x1 => Sys2Proof.Machine.execCtxld x1 s
  | .ifence => Sys2Proof.Machine.execIfence s
  | .tlook x1 x2 => Sys2Proof.Machine.execTlook x1 x2 s
  | .tset x1 x2 => Sys2Proof.Machine.execTset x1 x2 s
  | .tinv x1 x2 => Sys2Proof.Machine.execTinv x1 x2 s
  | .tclr => Sys2Proof.Machine.execTclr s
  | .feget x1 x2 => Sys2Proof.Machine.execFeget x1 x2 s
  | .feset x1 => Sys2Proof.Machine.execFeset x1 s
  | .feclr x1 => Sys2Proof.Machine.execFeclr x1 s
  | .zscan x1 x2 x3 => Sys2Proof.Machine.execZscan x1 x2 x3 s
  | .setvl x1 x2 x3 x4 => Sys2Proof.Machine.execSetvl x1 x2 x3 x4 s
  | .cfgget x1 => Sys2Proof.Machine.execCfgget x1 s
  | .vcpget x1 => Sys2Proof.Machine.execVcpget x1 s
  | .vadd x1 x2 x3 x4 => Sys2Proof.Machine.execVadd x1 x2 x3 x4 s
  | .vsub x1 x2 x3 x4 => Sys2Proof.Machine.execVsub x1 x2 x3 x4 s
  | .vmul x1 x2 x3 x4 => Sys2Proof.Machine.execVmul x1 x2 x3 x4 s
  | .vdiv x1 x2 x3 x4 => Sys2Proof.Machine.execVdiv x1 x2 x3 x4 s
  | .vmin x1 x2 x3 x4 => Sys2Proof.Machine.execVmin x1 x2 x3 x4 s
  | .vmax x1 x2 x3 x4 => Sys2Proof.Machine.execVmax x1 x2 x3 x4 s
  | .vabs x1 x2 x3 => Sys2Proof.Machine.execVabs x1 x2 x3 s
  | .vneg x1 x2 x3 => Sys2Proof.Machine.execVneg x1 x2 x3 s
  | .vsqrt x1 x2 x3 => Sys2Proof.Machine.execVsqrt x1 x2 x3 s
  | .vfma x1 x2 x3 x4 => Sys2Proof.Machine.execVfma x1 x2 x3 x4 s
  | .vfms x1 x2 x3 x4 => Sys2Proof.Machine.execVfms x1 x2 x3 x4 s
  | .vfnma x1 x2 x3 x4 => Sys2Proof.Machine.execVfnma x1 x2 x3 x4 s
  | .vand x1 x2 x3 x4 => Sys2Proof.Machine.execVand x1 x2 x3 x4 s
  | .vor x1 x2 x3 x4 => Sys2Proof.Machine.execVor x1 x2 x3 x4 s
  | .vxor x1 x2 x3 x4 => Sys2Proof.Machine.execVxor x1 x2 x3 x4 s
  | .vnot x1 x2 x3 => Sys2Proof.Machine.execVnot x1 x2 x3 s
  | .vsll x1 x2 x3 x4 => Sys2Proof.Machine.execVsll x1 x2 x3 x4 s
  | .vsrl x1 x2 x3 x4 => Sys2Proof.Machine.execVsrl x1 x2 x3 x4 s
  | .vsra x1 x2 x3 x4 => Sys2Proof.Machine.execVsra x1 x2 x3 x4 s
  | .vmulh x1 x2 x3 x4 => Sys2Proof.Machine.execVmulh x1 x2 x3 x4 s
  | .vsadd x1 x2 x3 x4 => Sys2Proof.Machine.execVsadd x1 x2 x3 x4 s
  | .vssub x1 x2 x3 x4 => Sys2Proof.Machine.execVssub x1 x2 x3 x4 s
  | .vclz x1 x2 x3 => Sys2Proof.Machine.execVclz x1 x2 x3 s
  | .vpopc x1 x2 x3 => Sys2Proof.Machine.execVpopc x1 x2 x3 s
  | .vmov x1 x2 x3 => Sys2Proof.Machine.execVmov x1 x2 x3 s
  | .vmerge x1 x2 x3 x4 => Sys2Proof.Machine.execVmerge x1 x2 x3 x4 s
  | .vcps x1 x2 x3 x4 => Sys2Proof.Machine.execVcps x1 x2 x3 x4 s
  | .vclass x1 x2 x3 => Sys2Proof.Machine.execVclass x1 x2 x3 s
  | .vmodmul x1 x2 x3 x4 => Sys2Proof.Machine.execVmodmul x1 x2 x3 x4 s
  | .vmodadd x1 x2 x3 x4 => Sys2Proof.Machine.execVmodadd x1 x2 x3 x4 s
  | .vmodsub x1 x2 x3 x4 => Sys2Proof.Machine.execVmodsub x1 x2 x3 x4 s
  | .vtag x1 x2 x3 => Sys2Proof.Machine.execVtag x1 x2 x3 s
  | .vaddVs x1 x2 x3 x4 x5 => Sys2Proof.Machine.execVaddVs x1 x2 x3 x4 x5 s
  | .vsubVs x1 x2 x3 x4 x5 => Sys2Proof.Machine.execVsubVs x1 x2 x3 x4 x5 s
  | .vmulVs x1 x2 x3 x4 x5 => Sys2Proof.Machine.execVmulVs x1 x2 x3 x4 x5 s
  | .vdivVs x1 x2 x3 x4 x5 => Sys2Proof.Machine.execVdivVs x1 x2 x3 x4 x5 s
  | .vminVs x1 x2 x3 x4 x5 => Sys2Proof.Machine.execVminVs x1 x2 x3 x4 x5 s
  | .vmaxVs x1 x2 x3 x4 x5 => Sys2Proof.Machine.execVmaxVs x1 x2 x3 x4 x5 s
  | .vfmaVs x1 x2 x3 x4 x5 => Sys2Proof.Machine.execVfmaVs x1 x2 x3 x4 x5 s
  | .vfmsVs x1 x2 x3 x4 x5 => Sys2Proof.Machine.execVfmsVs x1 x2 x3 x4 x5 s
  | .vfnmaVs x1 x2 x3 x4 x5 => Sys2Proof.Machine.execVfnmaVs x1 x2 x3 x4 x5 s
  | .vandVs x1 x2 x3 x4 x5 => Sys2Proof.Machine.execVandVs x1 x2 x3 x4 x5 s
  | .vorVs x1 x2 x3 x4 x5 => Sys2Proof.Machine.execVorVs x1 x2 x3 x4 x5 s
  | .vxorVs x1 x2 x3 x4 x5 => Sys2Proof.Machine.execVxorVs x1 x2 x3 x4 x5 s
  | .vsllVs x1 x2 x3 x4 x5 => Sys2Proof.Machine.execVsllVs x1 x2 x3 x4 x5 s
  | .vsrlVs x1 x2 x3 x4 x5 => Sys2Proof.Machine.execVsrlVs x1 x2 x3 x4 x5 s
  | .vsraVs x1 x2 x3 x4 x5 => Sys2Proof.Machine.execVsraVs x1 x2 x3 x4 x5 s
  | .vmulhVs x1 x2 x3 x4 x5 => Sys2Proof.Machine.execVmulhVs x1 x2 x3 x4 x5 s
  | .vsaddVs x1 x2 x3 x4 x5 => Sys2Proof.Machine.execVsaddVs x1 x2 x3 x4 x5 s
  | .vssubVs x1 x2 x3 x4 x5 => Sys2Proof.Machine.execVssubVs x1 x2 x3 x4 x5 s
  | .vmergeVs x1 x2 x3 x4 x5 => Sys2Proof.Machine.execVmergeVs x1 x2 x3 x4 x5 s
  | .vcpsVs x1 x2 x3 x4 x5 => Sys2Proof.Machine.execVcpsVs x1 x2 x3 x4 x5 s
  | .vmodmulVs x1 x2 x3 x4 x5 => Sys2Proof.Machine.execVmodmulVs x1 x2 x3 x4 x5 s
  | .vmodaddVs x1 x2 x3 x4 x5 => Sys2Proof.Machine.execVmodaddVs x1 x2 x3 x4 x5 s
  | .vmodsubVs x1 x2 x3 x4 x5 => Sys2Proof.Machine.execVmodsubVs x1 x2 x3 x4 x5 s
  | .vcmpeq x1 x2 x3 x4 => Sys2Proof.Machine.execVcmpeq x1 x2 x3 x4 s
  | .vcmpne x1 x2 x3 x4 => Sys2Proof.Machine.execVcmpne x1 x2 x3 x4 s
  | .vcmplt x1 x2 x3 x4 => Sys2Proof.Machine.execVcmplt x1 x2 x3 x4 s
  | .vcmple x1 x2 x3 x4 => Sys2Proof.Machine.execVcmple x1 x2 x3 x4 s
  | .vcmpun x1 x2 x3 x4 => Sys2Proof.Machine.execVcmpun x1 x2 x3 x4 s
  | .mand x1 x2 x3 => Sys2Proof.Machine.execMand x1 x2 x3 s
  | .mor x1 x2 x3 => Sys2Proof.Machine.execMor x1 x2 x3 s
  | .mxor x1 x2 x3 => Sys2Proof.Machine.execMxor x1 x2 x3 s
  | .mandn x1 x2 x3 => Sys2Proof.Machine.execMandn x1 x2 x3 s
  | .mnot x1 x2 => Sys2Proof.Machine.execMnot x1 x2 s
  | .mpopc x1 x2 x3 => Sys2Proof.Machine.execMpopc x1 x2 x3 s
  | .mfirst x1 x2 x3 => Sys2Proof.Machine.execMfirst x1 x2 x3 s
  | .mset x1 x2 => Sys2Proof.Machine.execMset x1 x2 s
  | .mfromv x1 x2 x3 => Sys2Proof.Machine.execMfromv x1 x2 x3 s
  | .vredsum x1 x2 x3 x4 => Sys2Proof.Machine.execVredsum x1 x2 x3 x4 s
  | .vredsumo x1 x2 x3 x4 => Sys2Proof.Machine.execVredsumo x1 x2 x3 x4 s
  | .vredmin x1 x2 x3 x4 => Sys2Proof.Machine.execVredmin x1 x2 x3 x4 s
  | .vredmax x1 x2 x3 x4 => Sys2Proof.Machine.execVredmax x1 x2 x3 x4 s
  | .vredand x1 x2 x3 x4 => Sys2Proof.Machine.execVredand x1 x2 x3 x4 s
  | .vredor x1 x2 x3 x4 => Sys2Proof.Machine.execVredor x1 x2 x3 x4 s
  | .vredxor x1 x2 x3 x4 => Sys2Proof.Machine.execVredxor x1 x2 x3 x4 s
  | .vdot x1 x2 x3 x4 => Sys2Proof.Machine.execVdot x1 x2 x3 x4 s
  | .vxacc x1 x2 x3 => Sys2Proof.Machine.execVxacc x1 x2 x3 s
  | .vxrnd x1 => Sys2Proof.Machine.execVxrnd x1 s
  | .vxrndClr x1 => Sys2Proof.Machine.execVxrndClr x1 s
  | .vcvth x1 x2 x3 x4 => Sys2Proof.Machine.execVcvth x1 x2 x3 x4 s
  | .vcvtd x1 x2 x3 x4 => Sys2Proof.Machine.execVcvtd x1 x2 x3 x4 s
  | .vcvtf4 x1 x2 x3 => Sys2Proof.Machine.execVcvtf4 x1 x2 x3 s
  | .vcvti x1 x2 x3 x4 => Sys2Proof.Machine.execVcvti x1 x2 x3 x4 s
  | .vcvtf x1 x2 x3 x4 => Sys2Proof.Machine.execVcvtf x1 x2 x3 x4 s
  | .vquant x1 x2 x3 => Sys2Proof.Machine.execVquant x1 x2 x3 s
  | .vdeq x1 x2 x3 x4 => Sys2Proof.Machine.execVdeq x1 x2 x3 x4 s
  | .vscale x1 x2 x3 x4 => Sys2Proof.Machine.execVscale x1 x2 x3 x4 s
  | .vpacks x1 x2 x3 x4 => Sys2Proof.Machine.execVpacks x1 x2 x3 x4 s
  | .vbfpn x1 x2 x3 x4 => Sys2Proof.Machine.execVbfpn x1 x2 x3 x4 s
  | .vgathr x1 x2 x3 x4 => Sys2Proof.Machine.execVgathr x1 x2 x3 x4 s
  | .vslideup x1 x2 x3 x4 => Sys2Proof.Machine.execVslideup x1 x2 x3 x4 s
  | .vslidedn x1 x2 x3 x4 => Sys2Proof.Machine.execVslidedn x1 x2 x3 x4 s
  | .vcompr x1 x2 x3 => Sys2Proof.Machine.execVcompr x1 x2 x3 s
  | .vexpnd x1 x2 x3 => Sys2Proof.Machine.execVexpnd x1 x2 x3 s
  | .viota x1 x2 x3 => Sys2Proof.Machine.execViota x1 x2 x3 s
  | .vid x1 x2 => Sys2Proof.Machine.execVid x1 x2 s
  | .vbcast x1 x2 x3 x4 => Sys2Proof.Machine.execVbcast x1 x2 x3 x4 s
  | .vextr x1 x2 x3 => Sys2Proof.Machine.execVextr x1 x2 x3 s
  | .vinsrt x1 x2 x3 => Sys2Proof.Machine.execVinsrt x1 x2 x3 s
  | .vrev x1 x2 x3 => Sys2Proof.Machine.execVrev x1 x2 x3 s
  | .vzip x1 x2 x3 => Sys2Proof.Machine.execVzip x1 x2 x3 s
  | .vunzip x1 x2 x3 => Sys2Proof.Machine.execVunzip x1 x2 x3 s
  | .vstrp x1 x2 x3 => Sys2Proof.Machine.execVstrp x1 x2 x3 s
  | .vconfd x1 x2 x3 => Sys2Proof.Machine.execVconfd x1 x2 x3 s
  | .vld x1 x2 x3 => Sys2Proof.Machine.execVld x1 x2 x3 s
  | .vlds x1 x2 x3 x4 => Sys2Proof.Machine.execVlds x1 x2 x3 x4 s
  | .vldseg x1 x2 x3 x4 => Sys2Proof.Machine.execVldseg x1 x2 x3 x4 s
  | .vldx x1 x2 x3 x4 x5 => Sys2Proof.Machine.execVldx x1 x2 x3 x4 x5 s
  | .vldff x1 x2 x3 => Sys2Proof.Machine.execVldff x1 x2 x3 s
  | .vldw x1 x2 x3 x4 => Sys2Proof.Machine.execVldw x1 x2 x3 x4 s
  | .vgwin x1 x2 x3 x4 x5 => Sys2Proof.Machine.execVgwin x1 x2 x3 x4 x5 s
  | .vldfe x1 x2 x3 x4 => Sys2Proof.Machine.execVldfe x1 x2 x3 x4 s
  | .vst x1 x2 x3 => Sys2Proof.Machine.execVst x1 x2 x3 s
  | .vsts x1 x2 x3 x4 => Sys2Proof.Machine.execVsts x1 x2 x3 x4 s
  | .vstseg x1 x2 x3 x4 => Sys2Proof.Machine.execVstseg x1 x2 x3 x4 s
  | .vstx x1 x2 x3 x4 x5 => Sys2Proof.Machine.execVstx x1 x2 x3 x4 x5 s
  | .vstxo x1 x2 x3 x4 x5 => Sys2Proof.Machine.execVstxo x1 x2 x3 x4 x5 s
  | .vstfe x1 x2 x3 => Sys2Proof.Machine.execVstfe x1 x2 x3 s
  | .vstwm x1 x2 x3 x4 => Sys2Proof.Machine.execVstwm x1 x2 x3 x4 s
  | .upd x1 x2 x3 x4 => Sys2Proof.Machine.execUpd x1 x2 x3 x4 s
  | .upda x1 x2 x3 x4 => Sys2Proof.Machine.execUpda x1 x2 x3 x4 s
  | .uwin x1 x2 => Sys2Proof.Machine.execUwin x1 x2 s
  | .uwinRel x1 => Sys2Proof.Machine.execUwinRel x1 s
  | .uacc x1 x2 x3 => Sys2Proof.Machine.execUacc x1 x2 x3 s
  | .umerge => Sys2Proof.Machine.execUmerge s
  | .uflush x1 => Sys2Proof.Machine.execUflush x1 s
  | .uregion x1 x2 => Sys2Proof.Machine.execUregion x1 x2 s
  | .uregionRel x1 x2 => Sys2Proof.Machine.execUregionRel x1 x2 s
  | .uquery x1 x2 => Sys2Proof.Machine.execUquery x1 x2 s
  | .gcsleep x1 x2 x3 x4 => Sys2Proof.Machine.execGcsleep x1 x2 x3 x4 s
  | .vdrain => Sys2Proof.Machine.execVdrain s
  | .sload x1 x2 => Sys2Proof.Machine.execSload x1 x2 s
  | .sarm x1 x2 x3 x4 => Sys2Proof.Machine.execSarm x1 x2 x3 x4 s
  | .sport x1 x2 => Sys2Proof.Machine.execSport x1 x2 s
  | .twload x1 x2 x3 => Sys2Proof.Machine.execTwload x1 x2 x3 s
  | .sgrow x1 x2 => Sys2Proof.Machine.execSgrow x1 x2 s
  | .modcfg x1 => Sys2Proof.Machine.execModcfg x1 s
  | .modchk x1 x2 x3 x4 => Sys2Proof.Machine.execModchk x1 x2 x3 x4 s
  | .sstat x1 x2 => Sys2Proof.Machine.execSstat x1 x2 s
  | .sabort x1 x2 => Sys2Proof.Machine.execSabort x1 x2 s
  | .sfree => Sys2Proof.Machine.execSfree s
  | .mgrp x1 x2 => Sys2Proof.Machine.execMgrp x1 x2 s
  | .mgrpRel => Sys2Proof.Machine.execMgrpRel s
  | .mwload x1 x2 => Sys2Proof.Machine.execMwload x1 x2 s
  | .mma x1 x2 x3 x4 => Sys2Proof.Machine.execMma x1 x2 x3 x4 s
  | .maccz x1 x2 => Sys2Proof.Machine.execMaccz x1 x2 s
  | .maccst x1 x2 x3 x4 => Sys2Proof.Machine.execMaccst x1 x2 x3 x4 s
  | .maccld x1 x2 x3 x4 => Sys2Proof.Machine.execMaccld x1 x2 x3 x4 s
  | .maload x1 x2 x3 x4 x5 x6 => Sys2Proof.Machine.execMaload x1 x2 x3 x4 x5 x6 s
  | .mstat x1 => Sys2Proof.Machine.execMstat x1 s
  | .gload x1 x2 => Sys2Proof.Machine.execGload x1 x2 s
  | .grun x1 x2 x3 x4 => Sys2Proof.Machine.execGrun x1 x2 x3 x4 s
  | .gstat x1 => Sys2Proof.Machine.execGstat x1 s
  | .gfree => Sys2Proof.Machine.execGfree s
  | .rtcfg x1 x2 => Sys2Proof.Machine.execRtcfg x1 x2 s
  | .rtcfgRel x1 x2 => Sys2Proof.Machine.execRtcfgRel x1 x2 s
  | .rtupd x1 x2 x3 => Sys2Proof.Machine.execRtupd x1 x2 x3 s
  | .route x1 x2 x3 x4 => Sys2Proof.Machine.execRoute x1 x2 x3 x4 s
  | .recv x1 => Sys2Proof.Machine.execRecv x1 s
  | .recvNb x1 => Sys2Proof.Machine.execRecvNb x1 s
  | .rret x1 x2 x3 => Sys2Proof.Machine.execRret x1 x2 x3 s
  | .rretErr x1 x2 => Sys2Proof.Machine.execRretErr x1 x2 s
  | .rstat x1 x2 => Sys2Proof.Machine.execRstat x1 x2 s
  | .rstatLate x1 => Sys2Proof.Machine.execRstatLate x1 s
  | .rhot x1 x2 => Sys2Proof.Machine.execRhot x1 x2 s
  | .rscfg x1 x2 => Sys2Proof.Machine.execRscfg x1 x2 s
  | .rscfgInbox x1 x2 => Sys2Proof.Machine.execRscfgInbox x1 x2 s
  | .ccomm x1 x2 => Sys2Proof.Machine.execCcomm x1 x2 s
  | .cfree x1 x2 => Sys2Proof.Machine.execCfree x1 x2 s
  | .cbind x1 x2 x3 => Sys2Proof.Machine.execCbind x1 x2 x3 s
  | .cunbind x1 x2 => Sys2Proof.Machine.execCunbind x1 x2 s
  | .cstart x1 x2 x3 x4 => Sys2Proof.Machine.execCstart x1 x2 x3 x4 s
  | .csend x1 x2 x3 => Sys2Proof.Machine.execCsend x1 x2 x3 s
  | .cfetch x1 x2 x3 => Sys2Proof.Machine.execCfetch x1 x2 x3 s
  | .cstat x1 x2 => Sys2Proof.Machine.execCstat x1 x2 s
  | .ccancel x1 x2 => Sys2Proof.Machine.execCcancel x1 x2 s
  | .xcopy x1 x2 x3 x4 => Sys2Proof.Machine.execXcopy x1 x2 x3 x4 s
  | .xcopyt x1 x2 x3 x4 x5 => Sys2Proof.Machine.execXcopyt x1 x2 x3 x4 x5 s
  | .xdecode x1 x2 x3 x4 => Sys2Proof.Machine.execXdecode x1 x2 x3 x4 s
  | .xexport x1 x2 x3 x4 => Sys2Proof.Machine.execXexport x1 x2 x3 x4 s
  | .xfill x1 x2 x3 x4 => Sys2Proof.Machine.execXfill x1 x2 x3 x4 s
  | .xhost x1 x2 x3 x4 => Sys2Proof.Machine.execXhost x1 x2 x3 x4 s
  | .xhostToh x1 x2 x3 x4 => Sys2Proof.Machine.execXhostToh x1 x2 x3 x4 s
  | .xrootWrite x1 => Sys2Proof.Machine.execXrootWrite x1 s
  | .fcsrAccess x1 => Sys2Proof.Machine.execFcsrAccess x1 s
  | .tstatWrite x1 => Sys2Proof.Machine.execTstatWrite x1 s
  | .rframeWrite x1 => Sys2Proof.Machine.execRframeWrite x1 s
  | .vectorExecute x1 x2 => Sys2Proof.Machine.execVectorExecute x1 x2 s
  | .walkRefill x1 x2 => Sys2Proof.Machine.execWalkRefill x1 x2 s
  | .slotBoundary x1 => Sys2Proof.Machine.execSlotBoundary x1 s
  | .admission x1 x2 => Sys2Proof.Machine.execAdmission x1 x2 s
  | .eviction x1 => Sys2Proof.Machine.execEviction x1 s
  | .consumerEviction x1 => Sys2Proof.Machine.execConsumerEviction x1 s
  | .resumption x1 => Sys2Proof.Machine.execResumption x1 s
  | .retirement x1 => Sys2Proof.Machine.execRetirement x1 s
  | .waittlWake x1 => Sys2Proof.Machine.execWaittlWake x1 s
  | .sleepWake x1 => Sys2Proof.Machine.execSleepWake x1 s
  | .sleepTimeout x1 => Sys2Proof.Machine.execSleepTimeout x1 s
  | .barrierWake x1 => Sys2Proof.Machine.execBarrierWake x1 s
  | .acwaitWake x1 => Sys2Proof.Machine.execAcwaitWake x1 s
  | .gcsleepWake x1 => Sys2Proof.Machine.execGcsleepWake x1 s
  | .qdrainRelease x1 => Sys2Proof.Machine.execQdrainRelease x1 s
  | .vldwRelease x1 => Sys2Proof.Machine.execVldwRelease x1 s
  | .consumingLoadWake x1 => Sys2Proof.Machine.execConsumingLoadWake x1 s
  | .recvWake x1 => Sys2Proof.Machine.execRecvWake x1 s
  | .vstwmComplete x1 => Sys2Proof.Machine.execVstwmComplete x1 s
  | .copyComplete x1 x2 x3 => Sys2Proof.Machine.execCopyComplete x1 x2 x3 s
  | .sloadInstall x1 => Sys2Proof.Machine.execSloadInstall x1 s
  | .twloadApply x1 => Sys2Proof.Machine.execTwloadApply x1 s
  | .modcfgApply x1 => Sys2Proof.Machine.execModcfgApply x1 s
  | .nodeFire x1 x2 x3 x4 => Sys2Proof.Machine.execNodeFire x1 x2 x3 x4 s
  | .inputPortFeRead x1 x2 x3 x4 x5 => Sys2Proof.Machine.execInputPortFeRead x1 x2 x3 x4 x5 s
  | .sectionRunComplete x1 x2 x3 => Sys2Proof.Machine.execSectionRunComplete x1 x2 x3 s
  | .matrixGroupStart x1 => Sys2Proof.Machine.execMatrixGroupStart x1 s
  | .matrixOpComplete x1 x2 x3 => Sys2Proof.Machine.execMatrixOpComplete x1 x2 x3 s
  | .mgrpReleaseDone x1 => Sys2Proof.Machine.execMgrpReleaseDone x1 s
  | .gloadInstall x1 => Sys2Proof.Machine.execGloadInstall x1 s
  | .graphRunComplete x1 x2 x3 x4 => Sys2Proof.Machine.execGraphRunComplete x1 x2 x3 x4 s
  | .fabricRelease x1 => Sys2Proof.Machine.execFabricRelease x1 s
  | .graphRelease x1 => Sys2Proof.Machine.execGraphRelease x1 s
  | .pressAccept x1 x2 x3 x4 => Sys2Proof.Machine.execPressAccept x1 x2 x3 x4 s
  | .eagerApply x1 x2 => Sys2Proof.Machine.execEagerApply x1 x2 s
  | .updComplete x1 x2 x3 => Sys2Proof.Machine.execUpdComplete x1 x2 x3 s
  | .uflushComplete x1 x2 x3 => Sys2Proof.Machine.execUflushComplete x1 x2 x3 s
  | .regionReleaseApply x1 => Sys2Proof.Machine.execRegionReleaseApply x1 s
  | .routePlacement x1 x2 x3 => Sys2Proof.Machine.execRoutePlacement x1 x2 x3 s
  | .routeWaitDelivery x1 x2 x3 => Sys2Proof.Machine.execRouteWaitDelivery x1 x2 x3 s
  | .returnApply x1 x2 x3 => Sys2Proof.Machine.execReturnApply x1 x2 x3 s
  | .routeTimeout x1 x2 => Sys2Proof.Machine.execRouteTimeout x1 x2 s
  | .routeComplete x1 x2 => Sys2Proof.Machine.execRouteComplete x1 x2 s
  | .communicatorJoin x1 x2 => Sys2Proof.Machine.execCommunicatorJoin x1 x2 s
  | .chunkSend x1 => Sys2Proof.Machine.execChunkSend x1 s
  | .chunkArrival x1 x2 => Sys2Proof.Machine.execChunkArrival x1 x2 s
  | .tileLand x1 x2 x3 x4 => Sys2Proof.Machine.execTileLand x1 x2 x3 x4 s
  | .cstartComplete x1 x2 x3 => Sys2Proof.Machine.execCstartComplete x1 x2 x3 s
  | .streamPieceDeliver x1 x2 => Sys2Proof.Machine.execStreamPieceDeliver x1 x2 s
  | .cfreeWithdraw x1 => Sys2Proof.Machine.execCfreeWithdraw x1 s
  | .cunbindClose x1 => Sys2Proof.Machine.execCunbindClose x1 s
  | .thermalThrottle => Sys2Proof.Machine.execThermalThrottle s
  | .workPacing x1 => Sys2Proof.Machine.execWorkPacing x1 s
  | .thermalShutdown => Sys2Proof.Machine.execThermalShutdown s
  | .packageReset x1 x2 x3 => Sys2Proof.Machine.execPackageReset x1 x2 x3 s
  | .ownerRelease => Sys2Proof.Machine.execOwnerRelease s
  | .patrolScrub => Sys2Proof.Machine.execPatrolScrub s
  | .flitReplay x1 => Sys2Proof.Machine.execFlitReplay x1 s
  | .laneLoss x1 => Sys2Proof.Machine.execLaneLoss x1 s
  | .troiqueMessage x1 => Sys2Proof.Machine.execTroiqueMessage x1 s
  | .messageFail x1 x2 => Sys2Proof.Machine.execMessageFail x1 x2 s
  | .ethernetFrameDrop x1 => Sys2Proof.Machine.execEthernetFrameDrop x1 s
  | .rdmaWrite x1 x2 x3 => Sys2Proof.Machine.execRdmaWrite x1 x2 x3 s
  | .rdmaRead x1 x2 x3 => Sys2Proof.Machine.execRdmaRead x1 x2 x3 s
  | .launchCommand x1 x2 x3 => Sys2Proof.Machine.execLaunchCommand x1 x2 x3 s
  | .cancel x1 x2 => Sys2Proof.Machine.execCancel x1 x2 s
  | .query x1 => Sys2Proof.Machine.execQuery x1 s
  | .mapwin x1 x2 x3 x4 x5 x6 x7 => Sys2Proof.Machine.execMapwin x1 x2 x3 x4 x5 x6 x7 s
  | .unmapwin x1 x2 => Sys2Proof.Machine.execUnmapwin x1 x2 s
  | .region x1 x2 x3 x4 x5 x6 x7 => Sys2Proof.Machine.execRegion x1 x2 x3 x4 x5 x6 x7 s
  | .unregion x1 x2 => Sys2Proof.Machine.execUnregion x1 x2 s
  | .modeget x1 => Sys2Proof.Machine.execModeget x1 s
  | .modeset x1 x2 => Sys2Proof.Machine.execModeset x1 x2 s
  | .attest x1 x2 => Sys2Proof.Machine.execAttest x1 x2 s
  | .fwupdate x1 x2 x3 x4 x5 => Sys2Proof.Machine.execFwupdate x1 x2 x3 x4 x5 s
  | .post x1 x2 x3 x4 => Sys2Proof.Machine.execPost x1 x2 x3 x4 s
  | .ack x1 x2 => Sys2Proof.Machine.execAck x1 x2 s
  | .completeResend => Sys2Proof.Machine.execCompleteResend s
  | .illegalInstruction x1 => Sys2Proof.Machine.execIllegalInstruction x1 s
  | .instructionFetchFault x1 x2 => Sys2Proof.Machine.execInstructionFetchFault x1 x2 s
  | .verifierCiphertext x1 x2 x3 => Sys2Proof.Machine.execVerifierCiphertext x1 x2 x3 s
  | .unknownOpcode x1 x2 => Sys2Proof.Machine.execUnknownOpcode x1 x2 s

end Sys2Proof.Machine
end

