-- ==== Sys2Proof/Machine/Step.lean ====
section
/-! DEFINITION. One step of the machine: the next input, or the current strand (log 2). -/
namespace Sys2Proof.Machine

/-- The word at va, fetched by the current strand; a fetch holds no translation (07 R76, R77). -/
def State.fetch (s : State) (va : Word) : Except MemErr (IWord × State) :=
  match s.read { s.myAgent with stream := none } va 4 .fetch with
  | .ok (v, s') => .ok (BitVec.ofNat 32 v, s')
  | .error e => .error e

/-- What the current strand does where a fetch fails (09 Table 9-7, 17 Table 17-4, R261). -/
noncomputable def State.fetchFault (s : State) (e : MemErr) : Out :=
  match e with
  | .xlate k va => exec (.instructionFetchFault va k) s
  | e => .next (s.memTrap e)

/-- What the current strand does with the bytes fetched (09 R124). -/
noncomputable def State.runBytes (s : State) (bs : List Byte) : Out :=
  match decode bs with
  | .ok (i, _) => exec i s
  | .error (.illegal w) => exec (.illegalInstruction w) s
  | .error .truncated => .next s

/-- The current strand fetches and runs its next instruction: one word, or a PFX and the word that follows (09 R122, R123). DESIGN CHOICE
(log 64): a PC that is no multiple of 4 fetches the four bytes there. -/
noncomputable def State.issue (s : State) : Out :=
  match s.fetch s.me.pc with
  | .error e => s.fetchFault e
  | .ok (w, s1) =>
    if isPfx w then
      match s1.fetch (s.me.pc + 4) with
      | .error e => s1.fetchFault e
      | .ok (w2, s2) => s2.runBytes (bytesOfWord w ++ bytesOfWord w2)
    else s1.runBytes (bytesOfWord w)

/-- Whether the strand of plane p acts when its turn comes: it continues its wait, or it issues in its slot (05 R48, R59). -/
def State.mayIssue (s : State) (p : PlaneId) : Bool :=
  match (s.plane p).st with
  | .free | .halted => false
  | .asleep => !(s.plane p).gcs
  | .runnable => s.holdsSlot p && !s.slotEnds (coreOf p)

/-- Whether the vector unit of plane p works when the plane's turn comes: it keeps up, and the plane holds its core's slot (05 R59). -/
def State.vectorKeepsUp (s : State) (p : PlaneId) : Bool := !s.vlag && s.holdsSlot p && !s.slotEnds (coreOf p)

/-- The turn of the strand of plane p: its vector unit works, where it keeps up and its queue can proceed; else the strand acts, or its core's
sequencer moves on where the slot ends, or nothing happens. -/
noncomputable def State.strandTurn (s : State) (p : PlaneId) : Out :=
  let s := { s with cur := p }
  match (if s.vectorKeepsUp p then s.vturn 0 else .idle) with
  | .went s' => .next s'
  | .idle =>
    if s.mayIssue p then s.issue
    else if s.slotEnds (coreOf p) then .next (s.nextSlot (coreOf p))
    else .next s

/-- What every step ends with: the evaluations that its writes bring about, the end of the runs of cohorts that have ended, the queues of the
collective engines, and at least one clk (15 R234, 17 R260, 25 R367, 01 R15, log 3). -/
def Out.tick : Out → Out
  | .next s => let t := s.watch.stopEnded.readyQueues; .next { t with cycle := t.cycle + 1 }
  | o => o

/-- A granule of a store of plane p poisoned (27 R399). -/
def State.poisonStore (s : State) (p : PlaneId) (st : CoreStore) (g : Nat) : State :=
  s.modPlane p fun pl => match st with
    | .window => { pl with window := pl.window.map fun w => { w with bad := SortedNat.insert w.bad g } }
    | .accumulator a1 row => { pl with mx := pl.mx.map fun b => { b with bad := (a1, row, g) :: b.bad.filter (· != (a1, row, g)) } }
    | .coefficient node => { pl with fab := { pl.fab with bound := pl.fab.bound.map fun b => (b.1, { b.2 with
        nodes := b.2.nodes.modify node fun n => { n with bad := SortedNat.insert n.bad g } }) } }

/-- One input (log 2). -/
noncomputable def State.input (s : State) : Input → Out
  | .strand p => s.strandTurn p
  | .event i => exec i s
  | .clk n => .next { s with cycle := s.cycle + n }
  | .lag b => .next { s with vlag := b }
  | .storeError p st g => .next (s.poisonStore p st g)
  | .corrected pa => .next { s with errors := s.errors ++ [(0x21, pa)] }
  | .queues p l st b e => .next (s.modPlane p fun pl => { pl with dq := [l, st, b, e] })
  | .softError pa => .next { s with poison := SortedNat.insert s.poison (poisonUnit pa) }
  | .hostStore a bs => .next { s with hostMem := (bs.foldl (fun (x : Nat × List Host.Cell) b => (x.1 + 1, Memory.set x.2 x.1 b)) (a, s.hostMem)).2 }

/-- Whether an input is a package reset. -/
def Input.isReset : Input → Bool
  | .event (.packageReset _ _ _) => true
  | _ => false

/-- One step: the next input; where none is left, the turn of the current strand. A package held in reset takes none but a reset, and where
no input is left it stands (01 R17, 27 R393). -/
noncomputable def step (s : State) : Host.Outcome State Fault Refusal :=
  match s.inputs with
  | i :: rest =>
    let s' : State := { s with inputs := rest }
    if s.held.isSome && !i.isReset then .next s' else Out.tick (s'.input i)
  | [] => if s.held.isSome then .fault .heldInReset else Out.tick (s.strandTurn s.cur)

/-! ### A program placed (log 8) -/

/-- The virtual and physical address at which `withFetchWord` places an instruction. -/
def fetchBase : Nat := 0x100000

/-- A cohort of one strand on plane p, as a launch of LEVEL 0 and WEIGHT 1 with the root table at 0x200000 admits it. -/
def fetchCohort (p : PlaneId) : Cohort where
  num := 0
  st := .resident
  rcd := ⟨0, false, false, 1, 1, BitVec.ofNat 64 fetchBase, 0x200000, 0, 0, BitVec.allOnes 128, [], [], []⟩
  launcher := .host 0
  order := 0
  admitted := 0
  planes := [p]
  bases := [0]
  entries := []
  posts := [0]
  saved := []
  ended := none

/-- The state with an instruction placed where the next step fetches it: the current plane holds a strand in its slot, an identity
map of the first 1 GiB, and its PC at the instruction (log 8). -/
def State.withFetchWord (s : State) (nbits w : Nat) : State :=
  let v := w % 2 ^ nbits
  let words := leBytes 8 v
  let s := { s with inputs := [], mem := [], regions := Vector.replicate 256 none, pend := [], poison := [], cohorts := [fetchCohort s.cur], held := none }
  let s := s.physWrite fetchBase words
  let s := s.physWrite 0x200000 (leBytes 8 0x201001)
  let s := s.physWrite 0x201000 (leBytes 8 0x202001)
  let s := s.physWrite 0x202000 (leBytes 8 0x3F)
  let s := s.modMe fun p => { p with
    st := .runnable, coh := 0, rank := 0, pc := BitVec.ofNat 64 fetchBase, xroot := 0x200000, quota := 0, wait := none, held := [], vq := [] }
  { s with cores := s.cores.set (coreOf s.cur) ⟨some ⟨s.cur.val % 4, by omega⟩, [], s.cycle, if s.slotLen = 0 then 512 else s.slotLen⟩
           slotLen := if s.slotLen = 0 then 512 else s.slotLen }

end Sys2Proof.Machine
end

