-- ==== Sys2Proof/Safety.lean ====
section
/-! DEFINITION. What statements speak of: the answer of an instruction, what it leaves unchanged, and the invariant of memory. -/
namespace Sys2Proof.Machine

/-- exec answers a next state, of which P holds. -/
def Answers (i : Instr) (s : State) (P : State → Prop) : Prop := ∃ t, exec i s = .next t ∧ P t

/-- exec answers a next state that is one in which plane p acted as the issuing plane: P relates the state before, as p sees it, and
after. -/
def AnswersFor (i : Instr) (s : State) (p : PlaneId) (P : State → State → Prop) : Prop :=
  ∃ t, exec i s = .next { t with cur := s.cur } ∧ P { s with cur := p } t

/-- exec answers the same state: nothing happens. -/
def Idle (i : Instr) (s : State) : Prop := exec i s = .next s

/-- Nothing but the issuing plane changes: every other plane, every byte of memory, and every other field of the state are as before. -/
def OnlyMe (s t : State) : Prop :=
  (∀ p, p ≠ s.cur → t.plane p = s.plane p) ∧ (∀ a, t.byte a = s.byte a) ∧ { t with planes := s.planes } = s

/-- The strand goes on at pc: it waits for nothing, and is RUNNABLE, or ASLEEP where a GCSLEEP of its queue sleeps (05 Table 5-1). -/
def GoesOn (t : State) (pc : Word) : Prop := t.me.pc = pc ∧ t.me.st = t.me.awake ∧ t.me.wait = none

/-- The plane q is p but for its pc, its state and its wait. -/
def SameButPc (p q : Plane) : Prop := { q with pc := p.pc, st := p.st, wait := p.wait } = p

/-- The strand goes on at pc and nothing else changes. -/
def OnlyPc (s : State) (pc : Word) (t : State) : Prop := GoesOn t pc ∧ OnlyMe s t ∧ SameButPc s.me t.me

/-- Xd reads v, X0 zero; the strand goes on at pc; every other register and everything else is as before. -/
def OnlyX (s : State) (d : XReg) (v pc : Word) (t : State) : Prop :=
  t.getX d = (if d = 0 then 0 else v) ∧ (∀ r, r ≠ d → t.getX r = s.getX r) ∧ GoesOn t pc ∧ OnlyMe s t ∧
    SameButPc s.me { t.me with x := s.me.x }

/-- Fd holds the pattern v with format f; the strand goes on at pc; every other register and everything else is as before. -/
def OnlyF (s : State) (d : FReg) (f : FFmt) (v pc : Word) (t : State) : Prop :=
  t.getF d = ⟨v, f⟩ ∧ (∀ r, r ≠ d → t.getF r = s.getF r) ∧ GoesOn t pc ∧ OnlyMe s t ∧ SameButPc s.me { t.me with f := s.me.f }

/-- The strand has not retired its instruction: it is ASLEEP on w, and nothing else changes. -/
def Sleeps (s : State) (w : Wait) (t : State) : Prop :=
  t.me.st = .asleep ∧ t.me.wait = some w ∧ OnlyMe s t ∧ { t.me with st := s.me.st, wait := s.me.wait } = s.me

/-- The address past an instruction of four bytes. -/
def State.pc4 (s : State) : Word := s.me.pc + 4

/-- A trap handler is set and none is running (17 R246, R260). -/
def State.mayTrap (s : State) : Prop := s.me.tvec ≠ 0 ∧ tstatInh s.me.tstat = false

/-- A precise trap was taken: the strand is at its handler at S level, TPC, TCAUSE, TVAL and TSTAT are those given; the plane's other
registers and everything else are as before (17 R246). -/
def Trapped (s : State) (cause tpc tval tstat : Word) (t : State) : Prop :=
  GoesOn t s.me.tvec ∧ t.me.level = .s ∧ t.me.tcause = cause ∧ t.me.tpc = tpc ∧ t.me.tval = tval ∧ t.me.tstat = tstat ∧
  t.me.sel = 0 ∧ t.me.resume = [] ∧ t.me.vq = [] ∧ t.me.gcs = false ∧ t.me.gcsSeen = none ∧ OnlyMe s t ∧
  SameButPc s.me { t.me with
    level := s.me.level
    tcause := s.me.tcause
    tpc := s.me.tpc
    tval := s.me.tval
    tstat := s.me.tstat
    sel := s.me.sel
    resume := s.me.resume
    vq := s.me.vq
    gcs := s.me.gcs
    gcsSeen := s.me.gcsSeen }

/-- Cohort num, which has been admitted, has launched no other, and no launch that waits for admission has ended. -/
def State.loneCohort (s : State) (num : Nat) : Prop :=
  ∀ k ∈ s.cohorts, k.launcher.by? ≠ some num ∧ (k.st = .waiting → k.ended = none ∧ k.num ≠ num)

/-- The same of the cohort of the issuing plane. -/
def State.aloneInCohort (s : State) : Prop := s.loneCohort s.me.coh

/-- Cohort num ends with an outcome and cause: its strands stop, its asynchronous operations other than launches and section runs, which go on
to the end of a tile, and its routes are gone, the pairs that they had emitted stay with the Press, and the cohort keeps the outcome and cause unless it was ending already; nothing else
changes (17 R260, 05 R64, 27 R387). -/
def CohortEnds (s : State) (num : Nat) (end_ : Nat × Nat) (t : State) : Prop :=
  let held (p : PlaneId) : Prop := (s.plane p).st ≠ .free ∧ (s.plane p).coh = num
  (∀ p, held p → (t.plane p).st = .halted ∧ (t.plane p).vq = [] ∧ (t.plane p).wait = none ∧ (t.plane p).gcs = false) ∧
  (∀ p, ¬ held p → t.plane p = s.plane p) ∧
  (∀ o, o ∈ t.ops ↔ o ∈ s.ops ∧ (¬ held o.plane ∨ OpKind.isLaunch o.kind = true ∨ o.kind.endsAtTile = true)) ∧
  (∀ r, r ∈ t.routes ↔ r ∈ s.routes ∧ r.coh ≠ num) ∧
  t.cohorts = s.cohorts.map (fun k => if k.num = num ∧ k.ended = none then { k with ended := some end_ } else k) ∧
  { t with planes := s.planes, ops := s.ops, routes := s.routes, cohorts := s.cohorts, mem := s.mem, pend := s.pend, free := s.free, wrote := s.wrote } = s ∧
  ((∀ o ∈ s.ops, held o.plane → o.kind.pairs = []) → t.mem = s.mem ∧ t.pend = s.pend ∧ t.free = s.free ∧ t.wrote = s.wrote)

/-- The cohort of the issuing plane is aborted with a cause (17 R260). -/
def Aborted (s : State) (cause : Nat) (t : State) : Prop := CohortEnds s s.me.coh (1, cause) t

/-- TSTAT after a precise trap of a strand at a level that no GBAR arrival is held for: INH, and PPL the level (17 Table 17-5). -/
def preciseTstat (lv : Level) : Word := if lv = .s then 6 else 4

/-- The waiting strand stays RUNNABLE, but for a GCSLEEP of its queue that sleeps: its instruction has not retired, w says what it waits for, and nothing else changes. -/
def Stalls (s : State) (w : Wait) (t : State) : Prop :=
  t.me.st = t.me.awake ∧ t.me.wait = some w ∧ OnlyMe s t ∧ { t.me with st := s.me.st, wait := s.me.wait } = s.me

/-- A precise trap of cause c is taken at the issuing instruction, with TVAL v (17 R246, R251). -/
def TrapsAt (i : Instr) (s : State) (c : Nat) (v : Word) : Prop :=
  Answers i s (Trapped s (BitVec.ofNat 64 c) s.me.pc v (preciseTstat s.me.level))

/-- The illegal-operand trap with the word in TVAL is taken (17 Table 17-4). -/
def IllegalOperand (i : Instr) (s : State) : Prop := TrapsAt i s causeIllop ((encodeLast i).zeroExtend 64)

/-- A precise trap can be taken now: no vector instruction is older, a handler is set and none runs, and no barrier arrival is held. -/
def State.trapReady (s : State) : Prop := s.me.vq = [] ∧ s.mayTrap ∧ s.me.wait = none

/-- Where this access of the issuing strand fails, i answers the trap of its translation fault or of the uncorrectable error, or, for a
write that no message delivers, the abort of the cohort (17 R249, R261, R269, 27 R392). -/
def FailsAs (i : Instr) (s : State) {α : Type} (access : Except MemErr α) : Prop :=
  (∀ k va, s.trapReady → access = .error (.xlate k va) → Answers i s (Trapped s (xlateCause k) s.me.pc va (preciseTstat s.me.level))) ∧
  (∀ va, s.trapReady → access = .error (.memerr va) → TrapsAt i s causeMemerr va) ∧
  (s.me.vq = [] → s.me.st ≠ .free → s.aloneInCohort → access = .error .remoteWrite → Answers i s (Aborted s causeMemerr))

/-- Of the whole state only memory, the lines noted as written, the pending pairs of the Press and the supply of free values may differ: what
applying pending pairs changes (23 R343). -/
def OnlyTouched (s t : State) : Prop := { t with mem := s.mem, wrote := s.wrote, pend := s.pend, free := s.free } = s

/-- Of the whole state only memory, the lines noted as written, zero-summary bits, poison, pending pairs and the supply of free values may
differ: what a store changes (07 R88, 23 R343, 27 R400). -/
def OnlyStored (s t : State) : Prop :=
  { t with mem := s.mem, wrote := s.wrote, zsClear := s.zsClear, poison := s.poison, pend := s.pend, free := s.free } = s

/-- The bytes that applying the pending pairs that sel selects writes (23 R342). -/
def State.keyBytes (s : State) (sel : PendKey → Bool) : List Nat :=
  (s.pend.filter sel).flatMap fun k =>
    match s.regions[k.reg]? with
    | some (some g) => (List.range (tagBytes g.tag)).map fun i => k.pa + i
    | _ => []

/-- The bytes that applying the pending pairs of the lines of these places writes (23 R343). -/
def State.pendingBytes (s : State) (ps : List Place) : List Nat := s.keyBytes fun k => ps.any fun p => p.pa / 64 == k.pa / 64

/-- The bytes that a store to these places writes besides: the zero-summary bytes of places in a saved partition (07 R83, R88). -/
def summaryBytes (ps : List Place) : List Nat :=
  ps.filterMap fun p => match p.kind with
    | .saved _ zs => some (zs + p.off / 2048)
    | _ => none

/-- The bytes that making these places FULL writes: the full/empty bytes of places in a saved partition (07 R83, R86). -/
def fullBytes (ps : List Place) : List Nat :=
  ps.filterMap fun p => match p.kind with
    | .saved fe _ => some (fe + p.off / 128)
    | _ => none

/-- No older vector memory instruction of the strand has still to access one of these bytes (17 R253). -/
def State.noConflict (s : State) (addr : Word) (n : Nat) (acc : Acc) : Prop := s.vecConflict s.myAgent addr n acc = false

/-- An instruction that raises flags fl can end: none of them is both new and enabled, or the floating-point trap that follows can be taken
(03 R43, 17 R251). -/
def State.canEnd (s : State) (fl : Flags) : Prop := s.me.fresh (s.me.en &&& fl) = 0 ∨ (s.me.vq = [] ∧ s.mayTrap)

/-- A scalar instruction of word w that raises flags fl has its result P, in a state whose FCSR has the flags; where one of them is new and
enabled the floating-point trap follows it, with TPC past it and FPEN the enabled ones of them (03 R43, 17 Table 17-2). -/
def Raises (s : State) (fl : Flags) (w : IWord) (P : State → State → Prop) (t : State) : Prop :=
  let s1 := s.modMe fun p => p.orFlags fl
  if s.me.fresh (s.me.en &&& fl) = 0 then P s1 t
  else ∃ s2, P s1 s2 ∧ Trapped s2 (fpeCause (s.me.en &&& fl)) s.pc4 (w.zeroExtend 64) (preciseTstat s.me.level) t

/-! ### Vector instructions -/

/-- The vector unit keeps up with the strand, nothing is queued, no stream is bound, and no flag is enabled to trap. -/
def State.vecReady (s : State) : Prop := s.vlag = false ∧ s.me.vq = [] ∧ s.me.en = 0 ∧ ∀ k : Nat, (s.me.streams[k]?).join = none

/-- The agent by which a vector instruction of the issuing strand with queue position q accesses memory (07 R73, R77). -/
def State.vecAgent (s : State) (q : BitVec 16) : Agent := ⟨s.cur, s.me.level, rootOf s.me.xroot, some (.vector q)⟩

/-- G, the registers of a group (13 R181). -/
def State.vgroup (s : State) : Nat := 2 ^ s.me.lg.toNat

/-- The group of n registers from r begins at a multiple of n, and all of it carries tag t (09 R112, 13 R184). -/
def Plane.holds (p : Plane) (r : VReg) (n : Nat) (t : Tag) : Prop := r.toNat % n = 0 ∧ ∀ j, j < n → (p.vreg (r.toNat + j)).tag = t

/-- Element i, of w bits, of the group that begins at register r. -/
def Plane.lane (p : Plane) (r : VReg) (w i : Nat) : BitVec w := BitVec.ofNat w (p.elem r.toNat w i)

/-- The translations that a plane holds once the vector instruction of queue position q has left the queue: those of its other streams (07
R77). -/
def Plane.heldBut (p : Plane) (q : BitVec 16) : List Held := p.held.filter fun h => h.stream != .vector q

/-- A vector instruction of four bytes has completed: the strand goes on, the next queue position is taken, the stream of its accesses has
ended, and nothing else differs but vector registers, FCSR, FEX0, FEX1 and the supply of free values. -/
def VecFrame (s t : State) : Prop :=
  GoesOn t s.pc4 ∧ t.me.qnext = s.me.qnext + 1 ∧ OnlyMe s { t with free := s.free } ∧ t.me.held = s.me.heldBut s.me.qnext ∧
  SameButPc s.me { t.me with v := s.me.v, fcsr := s.me.fcsr, fex0 := s.me.fex0, fex1 := s.me.fex1, qnext := s.me.qnext, held := s.me.held }

/-- The group of n registers from d has taken tag rt; its elements have the values that el gives, and keep theirs where it gives none; every
other register is as before. -/
def VecPuts (s : State) (d : VReg) (n : Nat) (rt : Tag) (el : Nat → Option Nat) (t : State) : Prop :=
  (∀ i, i < n * (4096 / tagWidth rt) → t.me.elem d.toNat (tagWidth rt) i = (el i).getD (s.me.elem d.toNat (tagWidth rt) i)) ∧
  (∀ j, j < n → (t.me.vreg (d.toNat + j)).tag = rt ∧ (tagIsQB rt = false → (t.me.vreg (d.toNat + j)).side = 0)) ∧
  (∀ k, k < 64 → k < d.toNat ∨ d.toNat + n ≤ k → t.me.vreg k = s.me.vreg k)

/-- The field of flag k in FEX0 and FEX1 (03 Table 3-9). -/
def Plane.fexOf (p : Plane) (k : Nat) : Nat := (if k < 4 then p.fex0 else p.fex1).toNat / 2 ^ (16 * (k % 4)) % 2 ^ 16

/-- The flags that have arisen, by flag number and index, have joined FCSR.FL, and FEX0 and FEX1 hold the lowest index of each, zero where
it did not arise (03 R43, R45). -/
def VecFlags (s : State) (rises : Nat → Nat → Prop) (t : State) : Prop :=
  (∀ k, k < 8 → (t.me.raised.getLsbD k = true ↔ s.me.raised.getLsbD k = true ∨ ∃ i, rises k i)) ∧
  t.me.fcsr &&& ~~~0xFF00 = s.me.fcsr &&& ~~~0xFF00 ∧
  ∀ k, k < 8 → (∀ i, rises k i → (∀ j, rises k j → i ≤ j) → t.me.fexOf k = 0x8000 + i) ∧ ((∀ i, ¬ rises k i) → t.me.fexOf k = 0)

/-- No flag has arisen, and FEX0 and FEX1 are as before. -/
def VecQuiet (s t : State) : Prop := t.me.fcsr = s.me.fcsr ∧ t.me.fex0 = s.me.fex0 ∧ t.me.fex1 = s.me.fex1

/-- The plane after writes in turn, each computed from what those before it have left. -/
def Plane.inTurn (p : Plane) (ws : List (Nat × (Plane → Plane × Flags))) : Plane := ws.foldl (fun p w => (w.2 p).1) p

/-- An instruction of the resumable class has completed: its writes, each with its index, were made in turn, each reading its sources as
those before it had left them, into the group of n registers from d, which has taken tag rt; their flags have arisen at their indices; nothing
else changes (13 R187, R192). -/
def VecInTurn (s : State) (d : VReg) (n : Nat) (rt : Tag) (ws : List (Nat × (Plane → Plane × Flags))) (t : State) : Prop :=
  VecFrame s t ∧ VecPuts s d n rt (fun i => some ((s.me.inTurn ws).elem d.toNat (tagWidth rt) i)) t ∧
  VecFlags s (fun k i => ∃ (j : Nat) (w : Plane → Plane × Flags), ws[j]? = some (i, w) ∧ (w (s.me.inTurn (ws.take j))).2.getLsbD k = true) t

/-- An element-wise instruction has completed: element i of the group of n registers from d, below VL and on under mask m, has the pattern that f
gives it, with the flags that f gives; every other element, and everything else, is as before (13 R186). -/
def VecDone (s : State) (m : MReg) (d : VReg) (n : Nat) (rt : Tag) (f : Nat → Nat × Flags) (t : State) : Prop :=
  VecFrame s t ∧ VecPuts s d n rt (fun i => if i < s.me.vl ∧ s.me.maskBit m i = true then some ((f i).1 % 2 ^ tagWidth rt) else none) t ∧
  VecFlags s (fun k i => i < s.me.vl ∧ s.me.maskBit m i = true ∧ (f i).2.getLsbD k = true) t

/-- A vector instruction without flags has left element values el in the group of n registers from d, tagged rt, and nothing else. -/
def VecMoved (s : State) (d : VReg) (n : Nat) (rt : Tag) (el : Nat → Option Nat) (t : State) : Prop :=
  VecFrame s t ∧ VecPuts s d n rt el t ∧ VecQuiet s t

/-- PFX with value k joined to the vector instruction i: exec answers a next state past both words, of which, with the pc past four bytes, P
holds (09 R121, R122). -/
def Prefixed (k : BitVec 26) (i : Instr) (s : State) (P : State → Prop) : Prop :=
  Answers (.pfx k (encodeLast i)) s fun t => t.me.pc = s.me.pc + 8 ∧ P (t.modMe fun p => { p with pc := s.pc4 })

/-- The four words that RFRAME gives of a resume entry of word w at queue position q, stopped at index k, with the configuration in force in s and
the X values xa and xb (17 Table 17-6). -/
def State.entryWords (s : State) (w : IWord) (q : BitVec 16) (k : Nat) (xa xb : Word) : List Word :=
  [w ++ BitVec.ofNat 16 k ++ q,
    (0 : BitVec 28) ++ BitVec.ofBool s.me.sat ++ s.me.rm ++ (0 : BitVec 6) ++ s.me.lg ++ (0 : BitVec 3) ++ s.me.tag.code ++ (0 : BitVec 2) ++
      BitVec.ofNat 14 s.me.vl, xa, xb]

/-- A trap was taken at the queue position of a vector instruction, and the strand is at its handler: TPC is given, TSTAT has VTRAP, INH, the
level before it, the number of resume entries and the position of the first; the queue is empty, and only the translation of the scalar port
is held. Of the rest of the state nothing but vector registers, FCSR, FEX0 and FEX1 and the supply of free values may differ (17 R246, R252). -/
def QueueTrapped (s : State) (cause tpc tval : Word) (entries : List VEntry) (t : State) : Prop :=
  GoesOn t s.me.tvec ∧ t.me.level = .s ∧ t.me.tcause = cause ∧ t.me.tpc = tpc ∧ t.me.tval = tval ∧
  t.me.tstat = BitVec.ofNat 64 (65536 * ((entries.head?.map fun e => e.qpos.toNat).getD 0) + 256 * entries.length + (if s.me.level = .s then 7 else 5)) ∧
  t.me.sel = 0 ∧ t.me.resume = entries ∧ t.me.vq = [] ∧ t.me.gcs = false ∧ t.me.gcsSeen = none ∧
  t.me.held = s.me.held.filter (fun h => h.stream == .scalar) ∧ OnlyMe s { t with free := s.free } ∧
  SameButPc s.me { t.me with
    v := s.me.v
    fcsr := s.me.fcsr
    fex0 := s.me.fex0
    fex1 := s.me.fex1
    level := s.me.level
    tcause := s.me.tcause
    tpc := s.me.tpc
    tval := s.me.tval
    tstat := s.me.tstat
    sel := s.me.sel
    resume := s.me.resume
    vq := s.me.vq
    qnext := s.me.qnext
    gcs := s.me.gcs
    gcsSeen := s.me.gcsSeen
    held := s.me.held }

/-- The vector memory instruction of word w, issued by s, has trapped at its queue position, stopped at index k: TPC is past it, and its one resume
entry reads as Table 17-6 has it (15 R223, 17 R252, R254). -/
def StoppedAt (s : State) (w : IWord) (k : Nat) (xa xb cause tval : Word) (t : State) : Prop :=
  t.me.qnext = s.me.qnext + 1 ∧ VecQuiet s t ∧ ∃ e, QueueTrapped s cause s.pc4 tval [e] t ∧ e.qpos = s.me.qnext ∧
    ∀ j v, (s.entryWords w s.me.qnext k xa xb)[j]? = some v → ({ t.me with sel := BitVec.ofNat 8 j } : Plane).rframeRead = v

/-- A vector instruction that writes mask register d has completed: bit i takes the value that f gives and keeps its own where it gives none;
M0 keeps reading all ones; of the rest only FCSR, FEX0, FEX1, the next queue position and the supply of free values may differ. -/
def MaskDone (s : State) (d : MReg) (f : Nat → Option Bool) (t : State) : Prop :=
  GoesOn t s.pc4 ∧ t.me.qnext = s.me.qnext + 1 ∧ OnlyMe s { t with free := s.free } ∧ t.me.held = s.me.heldBut s.me.qnext ∧
  SameButPc s.me { t.me with
    m := s.me.m, fcsr := s.me.fcsr, fex0 := s.me.fex0, fex1 := s.me.fex1, qnext := s.me.qnext, held := s.me.held } ∧
  (∀ r i, r ≠ d → t.me.maskBit r i = s.me.maskBit r i) ∧
  ∀ i, i < 8192 → t.me.maskBit d i = if d = 0 then true else (f i).getD (s.me.maskBit d i)

/-- A vector instruction that writes an X register has completed: Xd takes v, the next queue position is taken, and nothing else changes. -/
def VecToX (s : State) (d : XReg) (v : Word) (t : State) : Prop :=
  ∃ s1, OnlyMe s s1 ∧ { s1.me with qnext := s.me.qnext } = s.me ∧ s1.me.qnext = s.me.qnext + 1 ∧ OnlyX s1 d v s.pc4 t

/-- A vector store has completed: memory and what goes with it is that of s2, and of the rest only the pc, the next queue position and the
supply of free values differ. -/
def VecStored (s s2 t : State) : Prop :=
  t.mem = s2.mem ∧ t.full = s2.full ∧ t.zsClear = s2.zsClear ∧ t.poison = s2.poison ∧ t.pend = s2.pend ∧ VecQuiet s t ∧
  VecFrame s { t with mem := s.mem, wrote := s.wrote, full := s.full, zsClear := s.zsClear, poison := s.poison, pend := s.pend }

/-! ### Operations on timelines -/

/-- The operations other than number seq on counter n of plane p. -/
def State.otherOps (s : State) (p : PlaneId) (n : TReg) (seq : Nat) : List AOp :=
  s.ops.filter fun o => !(o.plane == p && o.n == n && o.seq == seq)

/-- The next operation on counter n of the issuing plane is issued, of kind k; nothing else changes (07 R99). -/
def OpIssued (s : State) (n : TReg) (k : OpKind) (t : State) : Prop :=
  let seq := (s.timeline s.cur n).issue + 1
  t.ops.getLast? = some ⟨s.cur, n, seq, k⟩ ∧ t.otherOps s.cur n seq = s.otherOps s.cur n seq ∧
  t.timeline s.cur n = { s.timeline s.cur n with issue := seq } ∧ (∀ m, m ≠ n → t.timeline s.cur m = s.timeline s.cur m) ∧
  OnlyMe s { t with ops := s.ops } ∧ { t.me with t := s.me.t } = s.me

/-- Counter n of the issuing plane can take another operation (07 R99). -/
def State.hasIssue (s : State) (n : TReg) : Prop := (s.timeline s.cur n).issue + 1 < 2 ^ 64

/-- An instruction has only issued an operation of kind k on counter n, and the strand goes on. -/
def OnlyIssues (s : State) (n : TReg) (k : OpKind) (t : State) : Prop := ∃ s1, OpIssued s n k s1 ∧ OnlyPc s1 s.pc4 t

/-- Operation seq on counter n of plane p has completed: it is gone and counted; nothing else changes (07 R99). -/
def OpDone (s : State) (p : PlaneId) (n : TReg) (seq : Nat) (t : State) : Prop :=
  t.ops = s.otherOps p n seq ∧ t.timeline p n = (s.timeline p n).complete seq 1 ∧ (∀ m, m ≠ n → t.timeline p m = s.timeline p m) ∧
  (∀ q, q ≠ p → t.plane q = s.plane q) ∧ { t.plane p with t := (s.plane p).t } = s.plane p ∧
  (∀ a, t.byte a = s.byte a) ∧ { t with ops := s.ops, planes := s.planes } = s

/-- A vector instruction of four bytes has gone through the queue and changed nothing but the pc, the next queue position and the supply of
free values. -/
def VecNothing (s t : State) : Prop := VecFrame s t ∧ VecQuiet s t ∧ t.me.v = s.me.v

/-- The signed number that element i of an index group has: sign-extended for S tags, zero-extended for Z tags (15 R220). -/
def Plane.index (p : Plane) (r : VReg) (t : Tag) (i : Nat) : Int :=
  if tagIsS t then (p.lane r (tagWidth t) i).toInt else (p.lane r (tagWidth t) i).toNat

/-- The active elements below VL under mask m, ascending (13 R186). -/
def State.activeOn (s : State) (m : MReg) : List Nat := (List.range s.me.vl).filter fun i => s.me.maskBit m i

/-- Groups at a and b with tags ta and tb, sized by the wider of them, each aligned and uniform, and VL no more than VLMAX (13 R184). -/
def State.pairHeld (s : State) (a b : VReg) (ta tb : Tag) : Prop :=
  let w := max (tagWidth ta) (tagWidth tb)
  s.me.holds a (groupSize s.vgroup (tagWidth ta) w) ta ∧ s.me.holds b (groupSize s.vgroup (tagWidth tb) w) tb ∧
    s.me.vl ≤ s.vgroup * (4096 / w)

/-- Every pending key that sel selects is gone from the bins and applied: where no two of them share a byte, each location holds the
combination of what it held with the key's pending values; every other byte is as before, and of the rest of the state only the supply of
free values may differ (23 R342). -/
def Applied (s : State) (sel : PendKey → Bool) (t : State) : Prop :=
  t.pend = s.pend.filter (fun k => !sel k) ∧ OnlyTouched s t ∧ t.mem = (s.applyKeys sel).mem ∧
  (Memory.wf s.mem = true → Memory.wf t.mem = true ∧ (∀ a, a ∉ s.keyBytes sel → t.byte a = s.byte a) ∧
    ∀ g : Region, (∀ k ∈ s.pend.filter sel, s.regions[k.reg]? = some (some g)) →
      let n := tagBytes g.tag
      (s.pend.filter sel).Pairwise (fun x y => groupsMeet x.pa n y.pa n = false) →
      ∀ (i : Nat) k, (s.pend.filter sel)[i]? = some k →
        leNat (t.physBytes k.pa n) = combine (s.free + i) g.op g.tag (leNat (s.physBytes k.pa n)) k.vals % 256 ^ n)

/-! ### The host -/

/-- The session that a command message names, its keys derived (27 R384, R394). -/
def State.hasSession (s : State) (e : CmdEnv) (x : Session) : Prop :=
  s.sessions.find? (fun z => z.num == e.session) = some x ∧ x.live = true

/-- A message's tag verifies under the session's key and the nonce of its direction and SEQ, its MAGIC, VERSION, LENGTH and FLAGS are good, and its SEQ is at least 1 and not below h − 63 (27 R384, R385). -/
def Session.admits (x : Session) (e : CmdEnv) : Prop :=
  e.key = x.keyIn ∧ e.nonce = gcmNonce 0 e.seq ∧ e.length ≤ 8192 ∧ e.magic = 0x314B485A ∧ e.version = 1 ∧ e.flags < 8 ∧ 1 ≤ e.seq ∧ x.high ≤ e.seq + 63

/-- Session n apart, every session is as before. -/
def OtherSessions (n : Nat) (s t : State) : Prop :=
  ∀ m, m ≠ n → t.sessions.find? (fun z => z.num == m) = s.sessions.find? (fun z => z.num == m)

/-- The message's SEQ has joined the records of its session; nothing else changes (27 R385). -/
def Accepted (s : State) (e : CmdEnv) (x : Session) (t : State) : Prop :=
  let h := max x.high e.seq
  t.sessions.find? (fun z => z.num == e.session) = some { x with high := h, seen := (e.seq :: x.seen).filter fun q => decide (h < q + 64) } ∧
  OtherSessions e.session s t ∧ { t with sessions := s.sessions } = s

/-- A response with this status has gone out, is cached, and counts on its session; nothing else changes (27 R385, R386). -/
def Responded (s : State) (e : CmdEnv) (status : Nat) (data : List Nat) (t : State) : Prop :=
  ∃ x, s.sessions.find? (fun z => z.num == e.session) = some x ∧
    let msg := Sent.resp e.session (x.out + 1) x.keyOut e.seq status data
    t.sessions.find? (fun z => z.num == e.session) =
      some { x with out := x.out + 1, cached := (e.seq, msg) :: x.cached.filter fun c => decide (x.high < c.1 + 64) } ∧
    t.sent = s.sent ++ [msg] ∧ OtherSessions e.session s t ∧ { t with sessions := s.sessions, sent := s.sent } = s

/-- An accepted command has run: rel holds of the state that it found, its status, its data, and the state that it left (27 R386). -/
def Ran (s : State) (e : CmdEnv) (x : Session) (rel : State → Nat → List Nat → State → Prop) (t : State) : Prop :=
  ∃ a b status data, Accepted s e x a ∧ rel a status data b ∧ Responded b e status data t

/-- Of the whole state only the messages that have gone out may differ, and m is the one new of them. -/
def OnlySends (s : State) (m : Sent) (t : State) : Prop := t.sent = s.sent ++ [m] ∧ { t with sent := s.sent } = s

/-- The exact value of a finite operand, as a rational number. -/
def FVal.rat : FVal → Rat
  | .fin neg m e => (if neg then -1 else 1) * (m : Rat) * (2 : Rat) ^ e
  | _ => 0

/-- The exact value of a number before rounding. -/
def Ex.rat (x : Ex) : Rat := (if x.neg then -1 else 1) * (x.m : Rat) * (2 : Rat) ^ x.e

/-- The exact value of what an operation gives before rounding, where it is a number. -/
def RV.rat : RV → Rat
  | .num x => x.rat
  | _ => 0

/-- The patterns that 03 R36 allows for the sum of terms in an order that it leaves open, accumulated in FP64 or FP32: a NaN, an infinity,
or, where the exact sum stays within half the format's range, a finite value within (k + 1) × u × Σ|term| + k × η of it. -/
def SumAllowed (f : Fp) (terms : List RV) (v : Nat) : Prop :=
  let u : Rat := if f = .fp64 then 2 ^ (-53 : Int) else 2 ^ (-24 : Int)
  let eta : Rat := if f = .fp64 then 2 ^ (-1022 : Int) else 2 ^ (-126 : Int)
  let range : Rat := if f = .fp64 then 2 ^ (1023 : Int) else 2 ^ (127 : Int)
  let sum := (terms.map RV.rat).sum
  let mag := (terms.map fun x => if x.rat < 0 then -x.rat else x.rat).sum
  if (RV.inf false ∈ terms ∧ RV.inf true ∈ terms) ∨ RV.qnan ∈ terms ∨ RV.snan ∈ terms then v = f.canonicalNan
  else if RV.inf false ∈ terms then v = f.infPattern
  else if RV.inf true ∈ terms then v = f.infPattern + 2 ^ (f.width - 1)
  else -range < sum → sum < range → ∃ n m e, f.value v = .fin n m e ∧
    let d := (FVal.fin n m e).rat - sum
    let bound := (terms.length + 1 : Nat) * u * mag + (terms.length : Nat) * eta
    d ≤ bound ∧ -d ≤ bound

/-- m is y / 2^k rounded half to even. -/
def HalfEven (y : Int) (k : Nat) (m : Int) : Prop :=
  let r := 2 * (y - m * 2 ^ k)
  r ≤ 2 ^ k ∧ -(2 ^ k) ≤ r ∧ (r = 2 ^ k ∨ r = -(2 ^ k) → m % 2 = 0)

/-- z is the frame and the flags that the growth rule makes of exact outputs y / 2^sc under exponent f, in growth mode `mode`, of a radix-4 node
where r4 (19 R284). -/
def Grown (ys : List (Int × Int)) (sc : Nat) (f : Int) (mode : Nat) (r4 : Bool) (z : FabFrame × Flags) : Prop :=
  let past (g : Nat) : Prop := ∃ y ∈ ys, ∃ m : Int, (HalfEven y.1 (sc + g) m ∨ HalfEven y.2 (sc + g) m) ∧ 2 ^ 14 ≤ m.natAbs
  let held (m : Int) : Int := max (-16383) (min 16383 m)
  ∃ g : Nat, (mode = 0 → g ≤ 3 ∧ (g < 3 → ¬ past g) ∧ ∀ h, h < g → past h) ∧ (mode = 1 → g = if r4 then 2 else 1) ∧ (mode = 2 → g = 0) ∧
    if 254 < f + g then z = (.bad, flBGS)
    else
      let low := (1 - (f + g)).toNat
      (past g → z.2 = flBGS) ∧ (¬ past g → z.2 = flNone) ∧ ∃ ms : List (Int × Int), ms.length = ys.length ∧
        (∀ (i : Nat) (y m : Int × Int), ys[i]? = some y → ms[i]? = some m → ∃ a b, HalfEven y.1 (sc + g) a ∧ HalfEven y.2 (sc + g) b ∧
          HalfEven (held a) low m.1 ∧ HalfEven (held b) low m.2) ∧
        ((∀ m ∈ ms, m = (0, 0)) → z.1 = .zero) ∧ ((∃ m ∈ ms, m ≠ (0, 0)) → z.1 = .blk (max 1 (f + g)).toNat ms)

/-- The canonical form of the machine's and of the host's memory (log 1, log 12). -/
def State.MemInv (s : State) : Prop := Memory.wf s.mem = true ∧ Memory.wf s.hostMem = true

end Sys2Proof.Machine
end

