-- ==== Sys2Proof/Certificates/Slice0/Obligations.lean ====
section
/-! DEFINITION. The statements for the provers. `Answers i s P`: exec i s is a next state of which P holds. -/
open Sys2Proof Sys2Proof.Machine

/-- O1. The integer instructions of two source registers complete in every state: Xd takes the result of Table 11-1 modulo 2^64, division edge cases included, and nothing else changes but the pc. (from 11 R135, 11 R134, 11 R136) -/
def Obligations.IntegerRegisterForms : Prop :=
  ∀ (s : State) (d a b : XReg),
    let x := s.getX a
    let y := s.getX b
    let k := y.toNat % 64
    Answers (.add d a b) s (OnlyX s d (x + y) s.pc4) ∧
    Answers (.sub d a b) s (OnlyX s d (x - y) s.pc4) ∧
    Answers (.and d a b) s (OnlyX s d (x &&& y) s.pc4) ∧
    Answers (.or d a b) s (OnlyX s d (x ||| y) s.pc4) ∧
    Answers (.xor d a b) s (OnlyX s d (x ^^^ y) s.pc4) ∧
    Answers (.andn d a b) s (OnlyX s d (x &&& ~~~y) s.pc4) ∧
    Answers (.orn d a b) s (OnlyX s d (x ||| ~~~y) s.pc4) ∧
    Answers (.sll d a b) s (OnlyX s d (x <<< k) s.pc4) ∧
    Answers (.srl d a b) s (OnlyX s d (x >>> k) s.pc4) ∧
    Answers (.sra d a b) s (OnlyX s d (x.sshiftRight k) s.pc4) ∧
    Answers (.ror d a b) s (OnlyX s d (x.rotateRight k) s.pc4) ∧
    Answers (.mul d a b) s (OnlyX s d (x * y) s.pc4) ∧
    Answers (.mulh d a b) s (OnlyX s d ((x.signExtend 128 * y.signExtend 128).extractLsb' 64 64) s.pc4) ∧
    Answers (.mulhz d a b) s (OnlyX s d ((x.setWidth 128 * y.setWidth 128).extractLsb' 64 64) s.pc4) ∧
    Answers (.div d a b) s (OnlyX s d (if y = 0 then -1 else x.sdiv y) s.pc4) ∧
    Answers (.divz d a b) s (OnlyX s d (if y = 0 then -1 else x / y) s.pc4) ∧
    Answers (.rem d a b) s (OnlyX s d (if y = 0 then x else x.srem y) s.pc4) ∧
    Answers (.remz d a b) s (OnlyX s d (if y = 0 then x else x % y) s.pc4) ∧
    Answers (.min d a b) s (OnlyX s d (if x.slt y then x else y) s.pc4) ∧
    Answers (.max d a b) s (OnlyX s d (if x.slt y then y else x) s.pc4) ∧
    Answers (.minz d a b) s (OnlyX s d (if x < y then x else y) s.pc4) ∧
    Answers (.maxz d a b) s (OnlyX s d (if x < y then y else x) s.pc4) ∧
    Answers (.seq d a b) s (OnlyX s d (if x = y then 1 else 0) s.pc4) ∧
    Answers (.slt d a b) s (OnlyX s d (if x.slt y then 1 else 0) s.pc4) ∧
    Answers (.sltz d a b) s (OnlyX s d (if x < y then 1 else 0) s.pc4)

/-- O2. With x the value of Xa and y that of Xb: DIV and REM by zero give -1 and x, DIVZ and REMZ by zero 2^64 - 1 and x; DIV of -2^63 by -1 gives -2^63 and REM 0; in every other case x is y times the quotient plus the remainder, as signed or unsigned integers, and the remainder is smaller than y in magnitude. (R136) -/
def Obligations.DivisionIdentity : Prop :=
  ∀ (s : State) (d a b : XReg),
    ∃ q r u v : Word,
      Answers (.div d a b) s (OnlyX s d q s.pc4) ∧ Answers (.rem d a b) s (OnlyX s d r s.pc4) ∧
      Answers (.divz d a b) s (OnlyX s d u s.pc4) ∧ Answers (.remz d a b) s (OnlyX s d v s.pc4) ∧
      let x := s.getX a
      let y := s.getX b
      if y = 0 then q = -1 ∧ r = x ∧ u.toNat = 2 ^ 64 - 1 ∧ v = x
      else
        x.toNat = y.toNat * u.toNat + v.toNat ∧ v.toNat < y.toNat ∧
        (if x.toInt = -(2 ^ 63) ∧ y.toInt = -1 then q.toInt = -(2 ^ 63) ∧ r = 0
         else x.toInt = y.toInt * q.toInt + r.toInt ∧ r.toInt.natAbs < y.toInt.natAbs)

/-- O3. CLZ, CTZ and POPC count leading zeros, trailing zeros and ones; SEXT and ZEXT extend the low w bits; BFX extracts a zero-extended field and BFI replaces a field of Xd, bit by bit; each completes and changes nothing but Xd and the pc. (from 11 R135, 11 R137) -/
def Obligations.IntegerUnaryAndFields : Prop :=
  ∀ (s : State) (d a : XReg),
    let x := s.getX a
    (∃ n, n ≤ 64 ∧ Answers (.clz d a) s (OnlyX s d (BitVec.ofNat 64 n) s.pc4) ∧
      (∀ i, i < n → x.getMsbD i = false) ∧ (n < 64 → x.getMsbD n = true)) ∧
    (∃ n, n ≤ 64 ∧ Answers (.ctz d a) s (OnlyX s d (BitVec.ofNat 64 n) s.pc4) ∧
      (∀ i, i < n → x.getLsbD i = false) ∧ (n < 64 → x.getLsbD n = true)) ∧
    Answers (.popc d a) s (OnlyX s d (BitVec.ofNat 64 ((List.range 64).countP fun i => x.getLsbD i)) s.pc4) ∧
    (∀ w : BitVec 6,
      Answers (.sext d a w) s (OnlyX s d ((x.setWidth (w.toNat + 1)).signExtend 64) s.pc4) ∧
      Answers (.zext d a w) s (OnlyX s d ((x.setWidth (w.toNat + 1)).setWidth 64) s.pc4)) ∧
    (∀ (l : BitVec 5) (p : BitVec 6),
      Answers (.bfx d a l p) s (OnlyX s d (((x >>> p.toNat).setWidth (l.toNat + 1)).setWidth 64) s.pc4) ∧
      ∃ v : Word, Answers (.bfi d a l p) s (OnlyX s d v s.pc4) ∧
        ∀ i, i < 64 → v.getLsbD i =
          if p.toNat ≤ i ∧ i < p.toNat + l.toNat + 1 then x.getLsbD (i - p.toNat) else (s.getX d).getLsbD i)

/-- O4. The immediate instructions complete in every state: Xd takes the result of Xa and the sign-extended immediate, SHI the shift by its amount; nothing else changes but the pc. (from 11 R138, 11 R139) -/
def Obligations.IntegerImmediates : Prop :=
  ∀ (s : State) (d a : XReg),
    let x := s.getX a
    (∀ i : BitVec 16,
      let k : Word := i.signExtend 64
      Answers (.addi d a i) s (OnlyX s d (x + k) s.pc4) ∧
      Answers (.andi d a i) s (OnlyX s d (x &&& k) s.pc4) ∧
      Answers (.ori d a i) s (OnlyX s d (x ||| k) s.pc4) ∧
      Answers (.xori d a i) s (OnlyX s d (x ^^^ k) s.pc4) ∧
      Answers (.slti d a i) s (OnlyX s d (if x.slt k then 1 else 0) s.pc4) ∧
      Answers (.lih d a i) s (OnlyX s d (x + k <<< 16) s.pc4)) ∧
    (∀ k : BitVec 6,
      Answers (.slli d a k) s (OnlyX s d (x <<< k.toNat) s.pc4) ∧
      Answers (.srli d a k) s (OnlyX s d (x >>> k.toNat) s.pc4) ∧
      Answers (.srai d a k) s (OnlyX s d (x.sshiftRight k.toNat) s.pc4) ∧
      Answers (.rori d a k) s (OnlyX s d (x.rotateRight k.toNat) s.pc4))

/-- O5. A branch goes to PC + 4 times its sign-extended displacement where its condition on Xa and Xb holds, else to the next word; JL and JLR write the address past the instruction to Xd and jump, JLR to Xa + k with bits 1:0 clear, read before Xd is written. Nothing else changes. (from 11 R142, 11 R143, 09 R116) -/
def Obligations.BranchesAndJumps : Prop :=
  ∀ (s : State) (a b d : XReg),
    let x := s.getX a
    let y := s.getX b
    (∀ e : BitVec 16,
      let dest : Word := s.me.pc + 4 * e.signExtend 64
      Answers (.beq a b e) s (OnlyPc s (if x = y then dest else s.pc4)) ∧
      Answers (.bne a b e) s (OnlyPc s (if x ≠ y then dest else s.pc4)) ∧
      Answers (.blt a b e) s (OnlyPc s (if x.slt y then dest else s.pc4)) ∧
      Answers (.bge a b e) s (OnlyPc s (if x.slt y then s.pc4 else dest)) ∧
      Answers (.blo a b e) s (OnlyPc s (if x < y then dest else s.pc4)) ∧
      Answers (.bhs a b e) s (OnlyPc s (if x < y then s.pc4 else dest)) ∧
      Answers (.jlr d a e) s (OnlyX s d s.pc4 ((x + e.signExtend 64) &&& ~~~3))) ∧
    (∀ j : BitVec 21, Answers (.jl d j) s (OnlyX s d s.pc4 (s.me.pc + 4 * j.signExtend 64)))

/-- O6. A scalar load at Xa + e whose bytes can be read completes: LD sign-extends and LDZ zero-extends the n bytes read into Xd, FLDW and FLDD put 4 and 8 bytes into Fd, zero-extended, with tag FP32 and FP64. Besides that register and the pc only the pending pairs of the lines read are applied, and the strand holds no translation of a page that it has left. Where the read meets a translation fault or an uncorrectable error the load takes that trap and neither Xd nor Fd changes. (from 11 R140, 11 R141) -/
def Obligations.ScalarLoads : Prop :=
  ∀ (s : State) (d a : XReg) (f : FReg) (z : Size) (e : BitVec 14),
    let addr := s.getX a + e.signExtend 64
    let n := sizeBytes z
    let left (n : Nat) : State := s.leavePage s.myAgent addr.toNat n
    (∀ v s', s.noConflict addr n .read → s.read s.myAgent addr n .read = .ok (v, s') → OnlyTouched (left n) s' ∧
      Answers (.ld d a z e) s (OnlyX s' d ((BitVec.ofNat (8 * n) v).signExtend 64) s.pc4) ∧
      Answers (.ldz d a z e) s (OnlyX s' d ((BitVec.ofNat (8 * n) v).setWidth 64) s.pc4)) ∧
    (∀ v s', s.noConflict addr 4 .read → s.read s.myAgent addr 4 .read = .ok (v, s') → OnlyTouched (left 4) s' ∧
      Answers (.fldw f a e) s (OnlyF s' f .f32 ((BitVec.ofNat 32 v).setWidth 64) s.pc4)) ∧
    (∀ v s', s.noConflict addr 8 .read → s.read s.myAgent addr 8 .read = .ok (v, s') → OnlyTouched (left 8) s' ∧
      Answers (.fldd f a e) s (OnlyF s' f .f64 (BitVec.ofNat 64 v) s.pc4)) ∧
    FailsAs (.ld d a z e) s (s.read s.myAgent addr n .read) ∧ FailsAs (.ldz d a z e) s (s.read s.myAgent addr n .read) ∧
    FailsAs (.fldw f a e) s (s.read s.myAgent addr 4 .read) ∧ FailsAs (.fldd f a e) s (s.read s.myAgent addr 8 .read)

/-- O7. A scalar store at Xa + e whose bytes can be written completes: ST writes the n low bytes of Xd, FSTW bits 31:0 and FSTD all 64 bits of Fd whatever its tag. Of the state only what that write changes differs, the translations of a page that the strand has left, and the pc. A translation fault leaves memory unchanged and traps; a store that no message delivers aborts the cohort. (from 11 R140, 11 R141) -/
def Obligations.ScalarStores : Prop :=
  ∀ (s : State) (d a : XReg) (f : FReg) (z : Size) (e : BitVec 14),
    let addr := s.getX a + e.signExtend 64
    let n := sizeBytes z
    let left (n : Nat) : State := s.leavePage s.myAgent addr.toNat n
    (∀ s', s.noConflict addr n .write → s.write s.myAgent addr n (s.getX d).toNat .write = .ok s' → OnlyStored (left n) s' ∧
      Answers (.st d a z e) s (OnlyPc s' s.pc4)) ∧
    (∀ s', s.noConflict addr 4 .write → s.write s.myAgent addr 4 (s.getF f).bits.toNat .write = .ok s' → OnlyStored (left 4) s' ∧
      Answers (.fstw f a e) s (OnlyPc s' s.pc4)) ∧
    (∀ s', s.noConflict addr 8 .write → s.write s.myAgent addr 8 (s.getF f).bits.toNat .write = .ok s' → OnlyStored (left 8) s' ∧
      Answers (.fstd f a e) s (OnlyPc s' s.pc4)) ∧
    FailsAs (.st d a z e) s (s.write s.myAgent addr n (s.getX d).toNat .write) ∧
    FailsAs (.fstw f a e) s (s.write s.myAgent addr 4 (s.getF f).bits.toNat .write) ∧
    FailsAs (.fstd f a e) s (s.write s.myAgent addr 8 (s.getF f).bits.toNat .write)

/-- O8. An AMO at an aligned address whose location can be read and written, with no release left waiting, completes: the location takes the new value of Table 11-4 and Xd the old value, zero-extended for AMOMINZ and AMOMAXZ, sign-extended otherwise; AMOCAS writes only where the old value equals the low bytes of Xd, and Xd takes the old value in every case. (from 11 R148, 11 R149) -/
def Obligations.Atomics : Prop :=
  ∀ (s : State) (d a b : XReg) (o : Order) (c : Scope) (z : Bool) (old : Nat) (s1 : State),
    let addr := s.getX a
    let n := if z then 8 else 4
    let w := 8 * n
    let x := BitVec.ofNat w (s.getX b).toNat
    let u := BitVec.ofNat w old
    let sx : Word := u.signExtend 64
    let zx : Word := u.setWidth 64
    addr.toNat % n = 0 → (releases o = true → s.releaseReady = true) → s.noConflict addr n .rmw →
    s.read s.myAgent addr n .rmw = .ok (old, s1) → OnlyTouched (s.leavePage s.myAgent addr.toNat n) s1 ∧ ∀ s2 : State,
    let writes (new : BitVec w) : Prop := s1.write s1.myAgent addr n new.toNat .rmw = .ok s2
    (writes x → Answers (.amoswap d a b o c z) s (OnlyX s2 d sx s.pc4)) ∧
    (writes (u + x) → Answers (.amoadd d a b o c z) s (OnlyX s2 d sx s.pc4)) ∧
    (writes (u &&& x) → Answers (.amoand d a b o c z) s (OnlyX s2 d sx s.pc4)) ∧
    (writes (u ||| x) → Answers (.amoor d a b o c z) s (OnlyX s2 d sx s.pc4)) ∧
    (writes (u ^^^ x) → Answers (.amoxor d a b o c z) s (OnlyX s2 d sx s.pc4)) ∧
    (writes (if u.slt x then u else x) → Answers (.amomin d a b o c z) s (OnlyX s2 d sx s.pc4)) ∧
    (writes (if u.slt x then x else u) → Answers (.amomax d a b o c z) s (OnlyX s2 d sx s.pc4)) ∧
    (writes (if u < x then u else x) → Answers (.amominz d a b o c z) s (OnlyX s2 d zx s.pc4)) ∧
    (writes (if u < x then x else u) → Answers (.amomaxz d a b o c z) s (OnlyX s2 d zx s.pc4)) ∧
    (u = BitVec.ofNat w (s.getX d).toNat → writes x → Answers (.amocas d a b o c z) s (OnlyX s2 d sx s.pc4)) ∧
    (u ≠ BitVec.ofNat w (s.getX d).toNat → Answers (.amocas d a b o c z) s (OnlyX s1 d sx s.pc4))

/-- O9. LDACQ at an aligned address sign-extends what it reads into Xd; STREL, once older vector memory work is done, writes the low bytes of Xb. At an address that is no multiple of n, both, and every AMO, take the illegal-operand trap with TVAL the address. (from 11 R148, 11 R151) -/
def Obligations.AcquireLoadReleaseStore : Prop :=
  ∀ (s : State) (d a b : XReg) (o : Order) (c : Scope) (z : Bool),
    let addr := s.getX a
    let n := if z then 8 else 4
    let left (n : Nat) : State := s.leavePage s.myAgent addr.toNat n
    (addr.toNat % n = 0 → ∀ v s', s.noConflict addr n .read → s.read s.myAgent addr n .read = .ok (v, s') → OnlyTouched (left n) s' ∧
      Answers (.ldacq d a c z) s (OnlyX s' d ((BitVec.ofNat (8 * n) v).signExtend 64) s.pc4)) ∧
    (addr.toNat % n = 0 → ∀ s', s.releaseReady = true → s.noConflict addr n .write →
      s.write s.myAgent addr n ((s.getX b).toNat % 2 ^ (8 * n)) .write = .ok s' → OnlyStored (left n) s' ∧
      Answers (.strel a b c z) s (OnlyPc s' s.pc4)) ∧
    (addr.toNat % n ≠ 0 → s.me.vq = [] → s.mayTrap → s.me.wait = none →
      ∀ i ∈ [Instr.ldacq d a c z, .strel a b c z, .amoswap d a b o c z, .amocas d a b o c z, .amoadd d a b o c z, .amoand d a b o c z,
        .amoor d a b o c z, .amoxor d a b o c z, .amomin d a b o c z, .amomax d a b o c z, .amominz d a b o c z, .amomaxz d a b o c z],
        Answers i s (Trapped s 3 s.me.pc addr (preciseTstat s.me.level)))

/-- O10. A read of n bytes gives the little-endian value of the bytes at the places that its addresses translate to, after the pending pairs of their lines are applied; it changes no byte but those that such a pair writes, and none where no pair is pending. A write of n bytes at va changes no byte of memory but those at the places its addresses translate to, the zero-summary bytes of a saved partition among them, and the bytes that pending pairs of their lines write. Where the places are distinct and lie in plain memory, byte i of the value is read back at place i. An access to the translated space ends what its stream holds of a page that it leaves, and nothing else; while a strand sleeps in GCSLEEP the lines of a write are noted. (from 07 R76, 07 R77, 07 R88, 09 R133, 15 R234, 23 R343) -/
def Obligations.MemoryAccesses : Prop :=
  (∀ (s s' : State) (ag : Agent) (va : Word) (n v : Nat) (acc : Acc),
    Memory.wf s.mem = true → s.read ag va n acc = .ok (v, s') →
    ∃ ps, s.places ag acc false n va.toNat none = .ok ps ∧ ps.length = n ∧
      v = leNat (ps.map fun p => s'.byte p.pa) ∧ OnlyTouched (s.leavePage ag va.toNat n) s' ∧ Memory.wf s'.mem = true ∧
      (∀ a, a ∉ s.pendingBytes ps → s'.byte a = s.byte a) ∧ (s.pend = [] → s' = s.leavePage ag va.toNat n)) ∧
  (∀ (s : State) (ag : Agent) (va n : Nat),
    let t := s.leavePage ag va n
    { t with planes := s.planes } = s ∧ (∀ p, { t.plane p with held := (s.plane p).held } = s.plane p) ∧
    ∀ p h, h ∈ (t.plane p).held ↔ h ∈ (s.plane p).held ∧
      ¬ (p = ag.plane ∧ ag.stream = some h.stream ∧ n ≠ 0 ∧ va / 2 ^ 63 ≠ 1 ∧ ¬ (h.covers va = true ∧ h.covers (va + (n - 1)) = true))) ∧
  ∀ (s t : State) (ag : Agent) (va : Word) (n d : Nat) (acc : Acc),
    Memory.wf s.mem = true → s.write ag va n d acc = .ok t →
    ∃ ps, s.places ag acc false n va.toNat none = .ok ps ∧ ps.length = n ∧ OnlyStored (s.leavePage ag va.toNat n) t ∧ Memory.wf t.mem = true ∧
      (∀ a, a ∉ ps.map (·.pa) → a ∉ summaryBytes ps → a ∉ s.pendingBytes ps → t.byte a = s.byte a) ∧
      (s.watching ≠ [] → ∀ p ∈ ps, p.pa / 64 ∈ t.wrote) ∧
      ((ps.map (·.pa)).Nodup → summaryBytes ps = [] →
        ∀ i p, ps[i]? = some p → t.byte p.pa = BitVec.ofNat 8 (d / 256 ^ i % 256))

/-- O11. With tags and mode in order, FADD, FSUB, FMUL, FDIV, FSQRT, FMA and FCVT complete: the result, exact before its single rounding in the selected mode, goes to Fd with the tag of the format, or as an integer to Xd; the flags raised join FCSR, and a new enabled one is followed by the floating-point trap; nothing else changes. What the spec leaves open or to inference here is the model’s, as in log 16. (from 11 R144, 11 R145, 03 R25, 03 R26, 03 R43) -/
def Obligations.FloatRounding : Prop :=
  ∀ (s : State) (d a b : FReg) (xd xa : XReg) (t g : FFmt) (r m : RMode), s.roundMode? r = some m →
    let x := s.fval a t
    let y := s.fval b t
    let rounds (i : Instr) (v : RV × Flags) : Prop :=
      let q := (fpOf t).round m s.me.sat v.1
      s.canEnd (v.2 ||| q.2) →
        Answers i s (Raises s (v.2 ||| q.2) (encodeLast i) fun s1 => OnlyF s1 d t (BitVec.ofNat 64 q.1) s.pc4)
    let converts (i : Instr) (signed : Bool) (bits : Nat) : Prop :=
      let v := rvToInt signed bits m x.toRV
      s.canEnd v.2 → Answers i s (Raises s v.2 (encodeLast i) fun s1 => OnlyX s1 xd (BitVec.ofInt 64 v.1) s.pc4)
    (s.fTagged a t = true → s.fTagged b t = true →
      rounds (.fadd d a b t r) (fpAdd m x y) ∧ rounds (.fsub d a b t r) (fpAdd m x y.negate) ∧
      rounds (.fmul d a b t r) (fpMul x y) ∧ rounds (.fdiv d a b t r) (fpDiv x y) ∧
      (s.fTagged d t = true → rounds (.fma d a b t r) (fpFma m x y (s.fval d t)))) ∧
    (s.fTagged a t = true → rounds (.fsqrt d a t r) (fpSqrt x) ∧
      converts (.fcvt (.toS64 xd a) t r) true 64 ∧ converts (.fcvt (.toZ64 xd a) t r) false 64 ∧
      converts (.fcvt (.toS32 xd a) t r) true 32 ∧ converts (.fcvt (.toZ32 xd a) t r) false 32) ∧
    (s.fTagged a g = true → rounds (.fcvt (.ff g d a) t r) ((s.fval a g).toRV, 0)) ∧
    rounds (.fcvt (.fromS64 d xa) t r) (.num (exOfInt (s.getX xa).toInt), 0) ∧
    rounds (.fcvt (.fromZ64 d xa) t r) (.num (exOfInt (s.getX xa).toNat), 0)

/-- O12. FMIN and FMAX select by minimumNumber and maximumNumber; FNEG inverts, FABS clears and FCPS copies the sign bit of the pattern; FEQ, FLT and FLE write a truth value and FCLASS the class code to Xd; FMOVXF copies the low bits of Xa and FMOVFX all 64 bits of Fa. Flags join FCSR, a new enabled one traps, and nothing else changes. What the spec leaves open or to inference here is the model’s, as in log 16. (from 11 R144, 11 R146) -/
def Obligations.FloatWithoutRounding : Prop :=
  ∀ (s : State) (d a b : FReg) (xd xa : XReg) (t : FFmt) (r : RMode),
    let f := fpOf t
    let x := BitVec.ofNat f.width (s.getF a).bits.toNat
    let y := BitVec.ofNat f.width (s.getF b).bits.toNat
    let sign : BitVec f.width := BitVec.ofNat f.width (2 ^ (f.width - 1))
    let writesF (i : Instr) (v : Nat) (fl : Flags) : Prop :=
      s.canEnd fl → Answers i s (Raises s fl (encodeLast i) fun s1 => OnlyF s1 d t (BitVec.ofNat 64 v) s.pc4)
    let writesX (i : Instr) (v : Nat) (fl : Flags) : Prop :=
      s.canEnd fl → Answers i s (Raises s fl (encodeLast i) fun s1 => OnlyX s1 xd (BitVec.ofNat 64 v) s.pc4)
    let compares (i : Instr) (op : Nat) : Prop :=
      let c := fpCompare op (f.value x.toNat) (f.value y.toNat)
      writesX i (if c.1 then 1 else 0) c.2
    (s.fTagged a t = true → s.fTagged b t = true →
      writesF (.fmin d a b t r) (fpMinMax f false x.toNat y.toNat).1 (fpMinMax f false x.toNat y.toNat).2 ∧
      writesF (.fmax d a b t r) (fpMinMax f true x.toNat y.toNat).1 (fpMinMax f true x.toNat y.toNat).2 ∧
      writesF (.fcps d a b t r) ((x &&& ~~~sign) ||| (y &&& sign)).toNat 0 ∧
      compares (.feq xd a b t r) 0 ∧ compares (.flt xd a b t r) 1 ∧ compares (.fle xd a b t r) 2) ∧
    (s.fTagged a t = true →
      writesF (.fneg d a t r) (x ^^^ sign).toNat 0 ∧ writesF (.fabs d a t r) (x &&& ~~~sign).toNat 0 ∧
      writesX (.fclass xd a t r) (f.classify x.toNat) 0) ∧
    Answers (.fmovxf d xa t r) s (OnlyF s d t (((s.getX xa).setWidth f.width).setWidth 64) s.pc4) ∧
    Answers (.fmovfx xd a r) s (OnlyX s xd (s.getF a).bits s.pc4)

/-- O13. A scalar function one of whose F operands, the addend of FMA included, does not carry the tag of its format takes the illegal-operand trap; a rounding function with mode DYN takes the illegal-instruction trap while FCSR.RM holds 0b101, 0b110 or 0b111. A vector function, load or store takes the illegal-instruction trap where a group does not begin at a multiple of its size or groups of different counts overlap as they may not, else the illegal-operand trap where tags disagree, one is NONE or not of the function, or VL is above VLMAX, else the illegal-instruction trap where it rounds and FCSR.RM is reserved. TVAL is the word, and the queue is not entered. What the spec leaves open or to inference here is the model’s, as in log 20, log 65. (from 11 R144, 11 R147, 09 R106, 09 R111, 09 R112, 09 R124, 13 R185, 13 R187) -/
def Obligations.OperandChecks : Prop :=
  (∀ (s : State) (d a b : FReg) (xd xa : XReg) (t u : FFmt) (r : RMode), s.trapReady →
    let mismatch (i : Instr) : Prop := IllegalOperand i s
    let noMode (i : Instr) : Prop := TrapsAt i s causeIllinsn ((encodeLast i).zeroExtend 64)
    (s.fTagged a t = false →
      ∀ i ∈ [Instr.fadd d a b t r, .fsub d a b t r, .fmul d a b t r, .fdiv d a b t r, .fsqrt d a t r, .fmin d a b t r, .fmax d a b t r,
        .fma d a b t r, .fneg d a t r, .fabs d a t r, .fcps d a b t r, .feq xd a b t r, .flt xd a b t r, .fle xd a b t r,
        .fcvt (.toS64 xd a) t r, .fcvt (.toZ64 xd a) t r, .fcvt (.toS32 xd a) t r, .fcvt (.toZ32 xd a) t r, .fcvt (.ff t d a) u r,
        .fclass xd a t r], mismatch i) ∧
    (s.fTagged b t = false →
      ∀ i ∈ [Instr.fadd d a b t r, .fsub d a b t r, .fmul d a b t r, .fdiv d a b t r, .fmin d a b t r, .fmax d a b t r,
        .fma d a b t r, .fcps d a b t r, .feq xd a b t r, .flt xd a b t r, .fle xd a b t r], mismatch i) ∧
    (s.fTagged d t = false → mismatch (.fma d a b t r)) ∧
    (5 ≤ s.me.rm.toNat → (∀ i ∈ [Instr.fcvt (.fromS64 d xa) t .dyn, .fcvt (.fromZ64 d xa) t .dyn], noMode i) ∧
      (s.fTagged a t = true → ∀ i ∈ [Instr.fsqrt d a t .dyn, .fcvt (.toS64 xd a) t .dyn, .fcvt (.toZ64 xd a) t .dyn,
        .fcvt (.toS32 xd a) t .dyn, .fcvt (.toZ32 xd a) t .dyn, .fcvt (.ff t d a) u .dyn], noMode i) ∧
      (s.fTagged a t = true → s.fTagged b t = true →
        (∀ i ∈ [Instr.fadd d a b t .dyn, .fsub d a b t .dyn, .fmul d a b t .dyn, .fdiv d a b t .dyn], noMode i) ∧
        (s.fTagged d t = true → noMode (.fma d a b t .dyn))))) ∧
  ∀ (s : State) (d a b : VReg) (m : MReg) (c : BitVec 5) (i_ : Bool) (u : Tag) (xa xb : XReg), s.trapReady → (∀ k : Nat, (s.me.streams[k]?).join = none) →
    let g := s.vgroup
    let tag (r : VReg) : Tag := (s.me.vreg r.toNat).tag
    let t := tag a
    let w := tagWidth t
    let fits : Prop := s.me.vl ≤ g * (4096 / w)
    let off (r : VReg) (n : Nat) : Prop := r.toNat % n ≠ 0
    let illegal (i : Instr) : Prop := TrapsAt i s causeIllinsn ((encodeLast i).zeroExtend 64)
    let fp := tagIsF t
    let int := tagIsInt t
    let two : List (Instr × Instr × Bool) := [
      (.vadd d a b m, .vaddVs d a c m i_, fp || int), (.vsub d a b m, .vsubVs d a c m i_, fp || int), (.vmul d a b m, .vmulVs d a c m i_, fp || int),
      (.vdiv d a b m, .vdivVs d a c m i_, fp || int), (.vmin d a b m, .vminVs d a c m i_, fp || int), (.vmax d a b m, .vmaxVs d a c m i_, fp || int),
      (.vand d a b m, .vandVs d a c m i_, int), (.vor d a b m, .vorVs d a c m i_, int), (.vxor d a b m, .vxorVs d a c m i_, int),
      (.vsll d a b m, .vsllVs d a c m i_, int), (.vsrl d a b m, .vsrlVs d a c m i_, int), (.vsra d a b m, .vsraVs d a c m i_, int),
      (.vmulh d a b m, .vmulhVs d a c m i_, int), (.vsadd d a b m, .vsaddVs d a c m i_, int), (.vssub d a b m, .vssubVs d a c m i_, int),
      (.vcps d a b m, .vcpsVs d a c m i_, fp || tagIsF8 t), (.vmerge d a b m, .vmergeVs d a c m i_, t != .none),
      (.vmodmul d a b m, .vmodmulVs d a c m i_, t == .m32), (.vmodadd d a b m, .vmodaddVs d a c m i_, t == .m32),
      (.vmodsub d a b m, .vmodsubVs d a c m i_, t == .m32)]
    let one : List (Instr × Bool) := [
      (.vabs d a m, fp || tagIsF8 t || tagIsS t), (.vneg d a m, fp || tagIsF8 t || int), (.vsqrt d a m, fp), (.vnot d a m, int), (.vclz d a m, int),
      (.vpopc d a m, int), (.vmov d a m, t != .none), (.vclass d a m, fp || tagIsF8 t)]
    (∀ vv vs ok, (vv, vs, ok) ∈ two →
      (off a g ∨ off b g ∨ off d g → illegal vv) ∧ (off a g ∨ off d g → illegal vs) ∧
      (¬ off a g → ¬ off b g → ¬ off d g → t = .none ∨ ¬ s.me.holds a g t ∨ ¬ s.me.holds b g t ∨ ok = false ∨ ¬ fits → IllegalOperand vv s) ∧
      (¬ off a g → ¬ off d g → t = .none ∨ ¬ s.me.holds a g t ∨ tagIsQB t = true ∨ ok = false ∨ ¬ fits → IllegalOperand vs s)) ∧
    (∀ i ok, (i, ok) ∈ one → (off a g ∨ off d g → illegal i) ∧
      (¬ off a g → ¬ off d g → t = .none ∨ ¬ s.me.holds a g t ∨ ok = false ∨ ¬ fits → IllegalOperand i s)) ∧
    (∀ i ∈ [Instr.vfma d a b m, .vfms d a b m, .vfnma d a b m],
      ¬ off a g → ¬ off b g → ¬ off d g → tag d ≠ t → ¬ (t ∈ [.bf16, .fp16] ∧ tag d = .fp32) → IllegalOperand i s) ∧
    (5 ≤ s.me.rm.toNat → fp = true → s.me.holds a g t → s.me.holds b g t → ¬ off d g → fits →
      ∀ i ∈ [Instr.vadd d a b m, .vsub d a b m, .vmul d a b m, .vdiv d a b m, .vsqrt d a m], illegal i) ∧
    (int = true ∨ fp = true → tagIsInt u = true ∨ tagIsF u = true → 1 < g → s.me.vl ≤ g * (4096 / max w (tagWidth u)) →
      (tagWidth u = 2 * w → s.me.holds a (g / 2) t → ¬ off d g → groupsMeet d.toNat g a.toNat (g / 2) = true → illegal (.vcvtd d a u m)) ∧
      (tagWidth u * 2 = w → s.me.holds a g t → ¬ off d (g / 2) → groupsMeet d.toNat (g / 2) a.toNat g = true → d ≠ a → illegal (.vcvth d a u m))) ∧
    (∀ i ∈ [Instr.vld d xa m, .vlds d xa xb m, .vldff d xa m, .vst d xa m, .vsts d xa xb m], (off d g → illegal i) ∧
      (¬ off d g → s.me.tag = .none ∨ g * (4096 / tagWidth s.me.tag) < s.me.vl → IllegalOperand i s)) ∧
    (¬ off d g → ¬ s.me.holds d g s.me.tag → ∀ i ∈ [Instr.vst d xa m, .vsts d xa xb m], IllegalOperand i s)

/-- O14. On finite operands the sum, the product and the fused multiply-add that are then rounded are the exact rational results, with no flag raised before rounding; and a finite value or an infinity of FP64, FP32, FP16 or BF16, rounded to its own format in any mode, gives its own pattern and raises no flag. (from 03 R20, 03 R25, 03 R40, 11 R144, 11 R145) -/
def Obligations.ExactBeforeRounding : Prop :=
  (∀ (t : FFmt) (rm : RMode) (sat : Bool) (x : Nat), x < 2 ^ (fpOf t).width → ((fpOf t).value x).isNan = false →
    (fpOf t).round rm sat ((fpOf t).value x).toRV = (x, 0)) ∧
  ∀ (m : RMode) (n1 n2 n3 : Bool) (m1 m2 m3 : Nat) (e1 e2 e3 : Int),
    let x := FVal.fin n1 m1 e1
    let y := FVal.fin n2 m2 e2
    let z := FVal.fin n3 m3 e3
    (∃ v, fpAdd m x y = (.num v, 0) ∧ v.sticky = false ∧ v.rat = x.rat + y.rat) ∧
    (∃ v, fpAdd m x y.negate = (.num v, 0) ∧ v.sticky = false ∧ v.rat = x.rat - y.rat) ∧
    (∃ v, fpMul x y = (.num v, 0) ∧ v.sticky = false ∧ v.rat = x.rat * y.rat) ∧
    (∃ v, fpFma m x y z = (.num v, 0) ∧ v.sticky = false ∧ v.rat = x.rat * y.rat + z.rat)

/-- O15. WAITTL of v on Tn completes at once where the completed value has reached v; sleeps, unretired, where it has not; takes the illegal-operand trap where v exceeds the issue number. WAITTL_WAKE completes a sleeping WAITTL whose value has been reached and does nothing before. A completion changes only the pc and the record of what the strand waited for. (from 11 R154, 11 R152, 07 R99) -/
def Obligations.TimelineWaits : Prop :=
  ∀ (s : State) (a : XReg) (n : TReg) (k : BitVec 10),
    let t0 := s.timeline s.cur n
    let waited (v : Nat) (s t : State) : Prop :=
      GoesOn t s.pc4 ∧ OnlyMe s t ∧ SameButPc s.me { t.me with waited := s.me.waited } ∧
        t.me.waited = s.me.waited.set n.toFin (max v (s.me.waited.get n.toFin))
    (∀ i v, (i, v) ∈ [(Instr.waittl a n, (s.getX a).toNat), (.waittlImm k n, k.toNat)] →
      (v ≤ t0.issue → v ≤ t0.value → Answers i s (waited v s)) ∧
      (v ≤ t0.issue → t0.value < v → Answers i s (Sleeps s (.waittl n v))) ∧
      (t0.issue < v → s.trapReady → IllegalOperand i s)) ∧
    (∀ p v, s.waitOf p = some (.waittl n v) →
      (v ≤ (s.timeline p n).value → AnswersFor (.waittlWake p) s p (waited v)) ∧
      ((s.timeline p n).value < v → AnswersFor (.waittlWake p) s p fun u => Sleeps u (.waittl n v)))

/-- O16. A counter whose operations complete one at a time, in whatever order, has the value below which all have completed. TLREAD writes the completed value of Tn to Xd, with .ISS the issue number. TLBUMP of k issues k operations that are complete at once: the issue number rises by k and is written to Xd, the completed value reaches it where every older operation is complete; k = 0 changes no counter; beyond 2^64 - 1 it takes the illegal-operand trap. (from 11 R155) -/
def Obligations.TimelineReadsAndBumps : Prop :=
  (∀ (v i : Nat) (ks : List Nat), ks.Nodup →
    let t := ks.foldl (fun t k => t.complete (v + 1 + k) 1) (⟨v, i, []⟩ : Timeline)
    t.issue = i ∧ (∃ m, t.value = v + m ∧ (∀ k, k < m → k ∈ ks) ∧ m ∉ ks) ∧
    (∀ n, ks.Perm (List.range n) → t = ⟨v + n, i, []⟩)) ∧
  ∀ (s : State) (d a : XReg) (n : TReg),
    let t0 := s.timeline s.cur n
    let k := (s.getX a).toNat
    Answers (.tlread d n) s (OnlyX s d (BitVec.ofNat 64 t0.value) s.pc4) ∧
    Answers (.tlreadIss d n) s (OnlyX s d (BitVec.ofNat 64 t0.issue) s.pc4) ∧
    (k = 0 → t0.issue < 2 ^ 64 → Answers (.tlbump d a n) s (OnlyX s d (BitVec.ofNat 64 t0.issue) s.pc4)) ∧
    (0 < k → t0.issue + k < 2 ^ 64 → s.releaseReady = true → Answers (.tlbump d a n) s fun t =>
      ∃ s1 : State, OnlyX s1 d (BitVec.ofNat 64 (t0.issue + k)) s.pc4 t ∧ OnlyMe s s1 ∧ { s1.me with t := s.me.t } = s.me ∧
        (∀ m, m ≠ n → s1.timeline s.cur m = s.timeline s.cur m) ∧ (s1.timeline s.cur n).issue = t0.issue + k ∧
        (t0.value = t0.issue → t0.early = [] → s1.timeline s.cur n = ⟨t0.issue + k, t0.issue + k, []⟩)) ∧
    (2 ^ 64 ≤ t0.issue + k → s.trapReady → IllegalOperand (.tlbump d a n) s)

/-- O17. FENCE and IFENCE wait while older vector memory work is queued, IFENCE while an acquire is, such as one that takes a piece of a CONSUME stream; then they only go on, which for IFENCE is the model’s choice of log 4. QDRAIN goes on where the queues it names are empty, else stalls RUNNABLE; QDRAIN_RELEASE lets it go on once they are empty. What the spec leaves open or to inference here is the model’s, as in log 4, log 5. (from 11 R153, 11 R156, 11 R152, 11 R176, 17 R253) -/
def Obligations.FencesAndDrains : Prop :=
  ∀ (s : State) (c : Scope) (q : BitVec 5),
    (s.releaseReady = true → Answers (.fence c) s (OnlyPc s s.pc4)) ∧
    (s.releaseReady = true → (∀ e ∈ s.me.vq, e.acquires s.me = false) → Answers .ifence s (OnlyPc s s.pc4)) ∧
    (s.releaseReady = false → Idle (.fence c) s ∧ Idle .ifence s) ∧ (∀ e ∈ s.me.vq, e.acquires s.me = true → Idle .ifence s) ∧
    ((∀ k, k < 5 → q.getLsbD k = true → s.queued k = 0) → Answers (.qdrain q) s (OnlyPc s s.pc4)) ∧
    (∀ k, k < 5 → q.getLsbD k = true → s.queued k ≠ 0 → Answers (.qdrain q) s (Stalls s (.qdrain q))) ∧
    (s.me.vq = [] ↔ s.queued 3 = 0) ∧ (s.me.vq = [] → s.queued 0 = 0 ∧ s.queued 1 = 0 ∧ s.queued 2 = 0) ∧
    ((∀ o ∈ s.ops, o.plane ≠ s.cur) → s.queued 4 = 0) ∧
    (∀ p, s.waitOf p = some (.qdrain q) → (∀ k, k < 5 → q.getLsbD k = true → ({ s with cur := p } : State).queued k = 0) →
      AnswersFor (.qdrainRelease p) s p fun u => OnlyPc u u.pc4)

/-- O18. GARRIVE writes the generation to Xd and arrives: the strand joins the arrived and the count rises, or, as the last member, clears both and inverts the generation. GWAIT waits until the generation differs from Xa[0]. GBAR arrives and waits on the generation it found. BARRIER_WAKE ends a wait whose generation has changed. Without a VALID slot, or on a second arrival in a generation, they take the illegal-operand trap. (R158) -/
def Obligations.GroupBarriers : Prop :=
  (∀ (s : State) (d a : XReg) (k : BitVec 2), s.me.grps.getLsbD (32 + k.toNat) = false → s.trapReady →
    ∀ i ∈ [Instr.gbar k, .garrive d k, .gwait a k], IllegalOperand i s) ∧
  ∀ (s : State) (d a : XReg) (k : BitVec 2) (e : Nat), s.me.groupSlot k = some e →
    let g := s.group e
    let last := g.count + 1 = g.members.length
    let arrived (t : State) : Prop :=
      t.group e = (if last then { g with count := 0, arrived := [], gen := !g.gen }
        else { g with count := g.count + 1, arrived := g.arrived ++ [s.cur] }) ∧
      (∀ f, f % 256 ≠ e % 256 → t.group f = s.group f) ∧ { t with groups := s.groups } = s
    (s.cur ∉ g.arrived → s.releaseReady = true →
      (∃ s1, arrived s1 ∧ Answers (.garrive d k) s (OnlyX s1 d (if g.gen then 1 else 0) s.pc4)) ∧
      (s.me.wait = none → ∃ s1, arrived s1 ∧
        Answers (.gbar k) s (if last then OnlyPc s1 s.pc4 else Sleeps s1 (.gbar (some e) g.gen)))) ∧
    (s.cur ∈ g.arrived → s.trapReady → IllegalOperand (.garrive d k) s ∧ IllegalOperand (.gbar k) s) ∧
    (g.gen ≠ (s.getX a).getLsbD 0 → Answers (.gwait a k) s (OnlyPc s s.pc4)) ∧
    (g.gen = (s.getX a).getLsbD 0 → Answers (.gwait a k) s (Sleeps s (.gwait e g.gen))) ∧
    (∀ b, s.me.wait = some (.gbar none b) → g.gen ≠ b → Answers (.gbar k) s (OnlyPc s s.pc4)) ∧
    (∀ p b, (s.waitOf p = some (.gwait e b) ∨ s.waitOf p = some (.gbar (some e) b)) → g.gen ≠ b →
      AnswersFor (.barrierWake p) s p fun u => OnlyPc u u.pc4)

/-- O19. ACWAIT at an aligned address in scratchpad reads the counter: where it has reached Xb the value goes to Xd, else the strand sleeps; ACWAIT_WAKE evaluates the wait again with the address and threshold of issue. A misaligned address takes the illegal-operand trap with TVAL the address. (from 11 R160) -/
def Obligations.ArrivalCounterWaits : Prop :=
  ∀ (s : State) (d a b : XReg),
    let addr := s.getX a
    let thr := s.getX b
    (addr.toNat % 8 = 0 → s.noConflict addr 8 .read → ∀ v s', s.readSpad s.myAgent addr 8 = .ok (v, s') →
      s' = s.leavePage s.myAgent addr.toNat 8 ∧
      (thr.toNat ≤ v → Answers (.acwait d a b) s (OnlyX s' d (BitVec.ofNat 64 v) s.pc4)) ∧
      (v < thr.toNat → Answers (.acwait d a b) s (Sleeps s' (.acwait d addr thr)))) ∧
    (addr.toNat % 8 ≠ 0 → s.trapReady → TrapsAt (.acwait d a b) s causeIllop addr) ∧
    (∀ p x y v s', s.waitOf p = some (.acwait d x y) → State.readSpad { s with cur := p } (s.agent p) x 8 = .ok (v, s') → y.toNat ≤ v →
      AnswersFor (.acwaitWake p) s p fun u => OnlyX s' d (BitVec.ofNat 64 v) u.pc4)

/-- O20. A strand that may publish raises MARK to max(MARK, min(v, 2^48 - 1)), and on over each tracked range in turn that begins at or below the mark so far, to the greatest of their ends; those ranges go and the others stay. GEN and every other watermark keep their values. A strand that may not takes the illegal-operand trap. WMREAD writes GEN and MARK to Xd. What the spec leaves open or to inference here is the model’s, as in log 14. (from 11 R161, 05 R67) -/
def Obligations.WatermarkPublications : Prop :=
  ∀ (s : State) (d a : XReg) (w : WReg) (k : BitVec 10),
    let m := s.wm w
    (m.mark < 2 ^ 48 → Answers (.wmread d w) s (OnlyX s d (BitVec.ofNat 16 m.gen ++ BitVec.ofNat 48 m.mark) s.pc4)) ∧
    (∀ i v, (i, v) ∈ [(Instr.wmpub a w, (s.getX a).toNat), (.wmpubImm k w, k.toNat)] →
      (s.mayPublish s.cur w = true → s.releaseReady = true → m.mark < 2 ^ 48 → ∃ s1 : State,
        Answers i s (OnlyPc s1 s.pc4) ∧ { s1 with wms := s.wms } = s ∧ (∀ u, u ≠ w → s1.wm u = s.wm u) ∧
        (s1.wm w).gen = m.gen ∧
        let reach (j : Nat) : Nat := (m.ranges.take j).foldl (fun x r => max x r.2) (max m.mark (min v (2 ^ 48 - 1)))
        ∃ j, (∀ k r, k < j → m.ranges[k]? = some r → r.1 ≤ reach k) ∧ (∀ r, m.ranges[j]? = some r → reach j < r.1) ∧
          (s1.wm w).ranges = m.ranges.drop j ∧ (s1.wm w).mark = min (reach j) (2 ^ 48 - 1)) ∧
      (s.mayPublish s.cur w = false → s.trapReady → IllegalOperand i s))

/-- O21. SLEEP with a masked event pending writes the masked bits to Xd and clears them; with none it sleeps, to the deadline Xb clk from issue where Xb is not zero; SLEEP_WAKE and SLEEP_TIMEOUT end it, a timeout writing 0. With both operands zero it takes the illegal-operand trap. EVPOST of a strand of the own cohort sets its bits and writes 0; status 2 is decided before status 1. (from 11 R163, 11 R164) -/
def Obligations.SleepAndEvents : Prop :=
  ∀ (s : State) (d a b : XReg),
    let mask := s.getX a
    let hit := s.me.events &&& mask
    let dl : Option Nat := if s.getX b = 0 then none else some (s.cycle + (s.getX b).toNat)
    let took (h : Word) (s t : State) : Prop :=
      ∃ s1, OnlyMe s s1 ∧ { s1.me with events := s.me.events } = s.me ∧ s1.me.events = s.me.events &&& ~~~h ∧ OnlyX s1 d h s.pc4 t
    (s.me.wait = none → hit ≠ 0 → Answers (.sleep d a b) s (took hit s)) ∧
    (s.me.wait = none → hit = 0 → (mask ≠ 0 ∨ s.getX b ≠ 0) → Answers (.sleep d a b) s (Sleeps s (.sleep d mask dl))) ∧
    (mask = 0 → s.getX b = 0 → s.trapReady → IllegalOperand (.sleep d a b) s) ∧
    (∀ p m e, s.waitOf p = some (.sleep d m e) → (s.plane p).events &&& m ≠ 0 →
      AnswersFor (.sleepWake p) s p fun u => took (u.me.events &&& m) u) ∧
    (∀ p m e, s.waitOf p = some (.sleep d m (some e)) → (s.plane p).events &&& m = 0 → e ≤ s.cycle →
      AnswersFor (.sleepTimeout p) s p fun u => OnlyX u d 0 u.pc4) ∧
    (let rank := mask.toNat % 65536
     let num := mask.toNat / 65536
     let own := num = 0xFFFF ∨ num = s.me.coh
     (num < 65536 → s.me.level = .u → ¬ own → Answers (.evpost d a b) s (OnlyX s d 2 s.pc4)) ∧
     (num = 0xFFFF → s.cohort? s.me.coh = none → Answers (.evpost d a b) s (OnlyX s d 1 s.pc4)) ∧
     (∀ k, num = 0xFFFF → s.cohort? s.me.coh = some k → k.rcd.nstrand ≤ rank → Answers (.evpost d a b) s (OnlyX s d 1 s.pc4)) ∧
     (∀ k p, num = 0xFFFF → s.cohort? s.me.coh = some k → rank < k.rcd.nstrand → k.st = .resident → k.planes[rank]? = some p →
       Answers (.evpost d a b) s fun t => ∃ s1 : State,
         { s1 with planes := s.planes } = s ∧ (∀ q, q ≠ p → s1.plane q = s.plane q) ∧
         s1.plane p = { s.plane p with events := (s.plane p).events ||| s.getX b } ∧ OnlyX s1 d 0 s.pc4 t) ∧
     (65536 ≤ num → s.trapReady → IllegalOperand (.evpost d a b) s))

/-- O22. Where the level and the queue permit, CRGET writes the register to Xd, CRPUT writes Xa to its writable fields, and CRSWAP does both, Xd taking the old value; read-only registers and fields keep their values. FCSR, FEX0 and FEX1 wait for older vector instructions, after which FCSR_ACCESS takes the step. A U-level access to an S register traps. The write events write the same fields. (from 11 R170, 09 R109, 09 Table 9-2, 03 Table 3-8, 07 R73, 17 R247 to R254) -/
def Obligations.ControlRegisters : Prop :=
  ∀ (s : State) (d a : XReg) (c : CReg),
    let v := s.getX a
    let super := c ∈ [CReg.tvec, .tcause, .tpc, .tval, .tstat, .rframe, .xroot]
    let vector := c ∈ [CReg.fcsr, .fex0, .fex1]
    let old (s : State) : Word := match c with
      | .fcsr => s.me.fcsr | .fex0 => s.me.fex0 | .fex1 => s.me.fex1
      | .vcp => ((s.me.vq.head?.map fun e => e.qpos).getD s.me.qnext).setWidth 64
      | .planeid => BitVec.ofNat 64 (s.pkg * 65536 + s.cur.val)
      | .grps => s.me.grps | .prio => s.me.prio | .cycle => BitVec.ofNat 64 s.cycle
      | .tvec => s.me.tvec | .tcause => s.me.tcause | .tpc => s.me.tpc | .tval => s.me.tval | .tstat => s.me.tstat
      | .rframe => s.me.rframeRead | .xroot => s.me.xroot | .quota => s.me.quota
    let written (c : CReg) (v : Word) (p : Plane) : Plane := match c with
      | .fcsr => { p with fcsr := v &&& 0x01FFFF07 } | .fex0 => { p with fex0 := v } | .fex1 => { p with fex1 := v }
      | .tvec => { p with tvec := v &&& ~~~3 } | .tcause => { p with tcause := v &&& 0xFF0FFF }
      | .tpc => { p with tpc := v } | .tval => { p with tval := v }
      | .tstat =>
        let t := (p.tstat &&& ~~~0x1E) ||| (v &&& 0x1E)
        if v.extractLsb' 8 7 = 0 then { p with tstat := t &&& ~~~0x7F00, resume := [] } else { p with tstat := t }
      | .rframe => { p with sel := v.extractLsb' 0 8 }
      | .xroot => { p with xroot := v &&& 0x0000FFFFFFFFF000, held := [] }
      | _ => p
    ((super → s.me.level = .s) → (vector → s.me.vq = []) →
      Answers (.crget d c) s (OnlyX s d (old s) s.pc4) ∧
      ∃ s1, OnlyMe s s1 ∧ s1.me = written c v s.me ∧
        Answers (.crput a c) s (OnlyPc s1 s.pc4) ∧ Answers (.crswap d a c) s (OnlyX s1 d (old s) s.pc4)) ∧
    (super → s.me.level = .u → s.trapReady →
      ∀ i ∈ [Instr.crget d c, .crput a c, .crswap d a c], TrapsAt i s causePriv ((encodeLast i).setWidth 64)) ∧
    (vector → s.me.vq ≠ [] →
      Answers (.crget d c) s (Stalls s (.fcsr (some d) c none)) ∧ Answers (.crput a c) s (Stalls s (.fcsr none c (some v))) ∧
      Answers (.crswap d a c) s (Stalls s (.fcsr (some d) c (some v)))) ∧
    (∀ p x, s.waitOf p = some (.fcsr (some d) c (some x)) → (s.plane p).vq = [] →
      AnswersFor (.fcsrAccess p) s p fun u t => ∃ s1, OnlyMe u s1 ∧ s1.me = written c x u.me ∧ OnlyX s1 d (old u) u.pc4 t) ∧
    (∀ i k, (i, k) ∈ [(Instr.xrootWrite v, CReg.xroot), (.tstatWrite v, .tstat), (.rframeWrite v, .rframe)] →
      Answers i s fun t => OnlyMe s t ∧ t.me = written k v s.me)

/-- O23. With a handler set, none running and nothing older in the queue, ECALL and EBREAK take their traps with TVAL 0, a word that is no instruction the illegal-instruction trap with the word, a failed fetch the translation trap with the address, and a privileged instruction at U level the privilege-violation trap with its word: one step that saves PC, cause, value, level and INH, and continues at the handler at S level. Without a handler, or with INH set, the trap of a strand whose cohort has launched no other stops every strand of its cohort, whose other asynchronous operations and routes are gone; the cohort keeps outcome 1 with the cause, unless it was ending already. A vector computation that newly raises a flag whose EN bit is set completes as with EN clear, and the floating-point trap follows at its queue position, with VTRAP set, no resume entry, TPC past it and FPEN every enabled flag that it raised; SVCP is then 0 by log 76. What the spec leaves open or to inference here is the model’s, as in log 16, log 76. (from 17 R246, 17 R249, 17 R251, 11 R172, 09 R124, 09 Table 9-7, 17 Table 17-2, 17 Table 17-4, 17 R252, 17 R260, 03 R43) -/
def Obligations.TrapsTaken : Prop :=
  (∀ (s : State), s.me.vq = [] → s.me.st ≠ .free → ¬ s.mayTrap → s.aloneInCohort →
    Answers .ecall s (Aborted s causeSyscall) ∧ Answers .ebreak s (Aborted s causeBreak)) ∧
  (∀ (s t : State) (i : Instr) (w : IWord) (c : Flags), encode i = [w] → 0x21 ≤ (fldOp w).toNat → (fldOp w).toNat ≤ 0x25 → s.vlag = false → s.me.vq = [] →
    (∀ k : Nat, (s.me.streams[k]?).join = none) → exec i (s.modMe fun p => { p with fcsr := p.fcsr &&& ~~~0xFF0000 }) = .next t → GoesOn t s.pc4 →
    (∀ k, k < 8 → (c.getLsbD k = true ↔ s.me.en.getLsbD k = true ∧ t.me.fexOf k ≠ 0)) →
    let back := t.modMe fun p => { p with fcsr := p.fcsr ||| (s.me.fcsr &&& 0xFF0000) }
    (s.me.en &&& t.me.raised &&& ~~~s.me.raised = 0 → exec i s = .next back) ∧
    (s.me.en &&& t.me.raised &&& ~~~s.me.raised ≠ 0 → s.mayTrap →
      Answers i s (Trapped back (fpeCause c) s.pc4 (w.zeroExtend 64) (if s.me.level = .s then 7 else 5)))) ∧
  ∀ (s : State), s.trapReady →
    TrapsAt .ecall s causeSyscall 0 ∧ TrapsAt .ebreak s causeBreak 0 ∧
    (∀ w : IWord, TrapsAt (.illegalInstruction w) s causeIllinsn (w.setWidth 64)) ∧
    (∀ va k, Answers (.instructionFetchFault va k) s (Trapped s (xlateCause k) s.me.pc va (preciseTstat s.me.level))) ∧
    (s.me.level = .u → ∀ (a : XReg) (c : Scope), ∀ i ∈ [Instr.rte, .xinv c, .xinvPage a c, .ctxsv a, .ctxld a],
      TrapsAt i s causePriv ((encodeLast i).setWidth 64))

/-- O24. RTE at S level, once the queue has room for the resume entries, restores the level from PPL, clears INH, NRES and ARRIVED, re-enqueues the resume entries in order at the next queue positions, resumes the wait of a GBAR that had arrived, and continues at TPC; no other register of the plane changes. HALTS with an empty queue halts the plane, and waits otherwise. YIELD goes on and gives up the rest of the slot; SLOT_BOUNDARY moves the sequencer on exactly where a slot ends. (from 17 R258, 11 R172, 11 R173, 11 R162, 05 R59) -/
def Obligations.ReturnAndHalt : Prop :=
  ∀ (s : State),
    (s.me.level = .s → 64 < s.me.vq.length + s.me.resume.length → Idle .rte s) ∧
    (s.me.level = .s → s.me.vq.length + s.me.resume.length ≤ 64 → Answers .rte s fun t =>
      t.me.pc = s.me.tpc ∧ t.me.st = s.me.awake ∧ t.me.level = (if s.me.tstat.getLsbD 1 then .s else .u) ∧
      t.me.tstat = s.me.tstat &&& ~~~0x7F0C ∧ t.me.resume = [] ∧
      t.me.wait = (if s.me.tstat.getLsbD 3 then some (.gbar none (s.me.tstat.getLsbD 4)) else none) ∧
      t.me.vq = s.me.vq ++ (s.me.resume.mapIdx fun i e =>
        { e with qpos := s.me.qnext + BitVec.ofNat 16 i, lv := t.me.level, root := rootOf s.me.xroot }) ∧
      t.me.qnext = s.me.qnext + BitVec.ofNat 16 s.me.resume.length ∧ OnlyMe s t ∧
      SameButPc s.me { t.me with
        level := s.me.level
        tstat := s.me.tstat
        resume := s.me.resume
        vq := s.me.vq
        qnext := s.me.qnext }) ∧
    (s.me.vq = [] → Answers .halts s fun t =>
      t.me.st = .halted ∧ t.me.wait = none ∧ OnlyMe s t ∧ { t.me with st := s.me.st, wait := s.me.wait } = s.me) ∧
    (s.me.vq ≠ [] → Idle .halts s) ∧
    (Answers .yield s fun t => ∃ s1, OnlyPc s s.pc4 s1 ∧ t = s1.nextSlot (coreOf s.cur) ∧ { t with cores := s.cores } = s1) ∧
    (∀ c, (s.slotEnds c = true → Answers (.slotBoundary c) s fun t => t = s.nextSlot c ∧ { t with cores := s.cores } = s ∧
        (∀ i, (t.cores.get c).running = some i → s.takesSlots (planeOf c i) = true) ∧
        ((t.cores.get c).running = none → ∀ i ∈ (s.cores.get c).frame, s.takesSlots (planeOf c i) = false)) ∧
      (s.slotEnds c = false → Idle (.slotBoundary c) s))

/-- O25. PFX joined with an I16 word computes on the sign-extended 42-bit immediate, joined with a load or store it extends the displacement to 40 bits, joined with a vector instruction on an immediate it gives the operand that O30, O31 and O32 state, and where imm5 is not 0 on a floating-point tag the illegal-instruction trap, each 8 bytes long; joined with a word whose major takes no prefix it takes the illegal-instruction trap at the PFX with the following word in TVAL. (from 09 R121, 09 R122, 09 R123, 09 Table 9-7) -/
def Obligations.PrefixedForms : Prop :=
  ∀ (s : State) (k : BitVec 26) (w : IWord),
    let d := fldD w
    let x := s.getX (fldA w)
    let i : Word := (k ++ fldImm w).signExtend 64
    let pc8 := s.me.pc + 8
    (fldOp w = 0x02 → Answers (.pfx k w) s (OnlyX s d (x + i) pc8)) ∧
    (fldOp w = 0x03 → Answers (.pfx k w) s (OnlyX s d (x &&& i) pc8)) ∧
    (fldOp w = 0x04 → Answers (.pfx k w) s (OnlyX s d (x ||| i) pc8)) ∧
    (fldOp w = 0x05 → Answers (.pfx k w) s (OnlyX s d (x ^^^ i) pc8)) ∧
    (fldOp w = 0x06 → Answers (.pfx k w) s (OnlyX s d (if x.slt i then 1 else 0) pc8)) ∧
    (fldOp w = 0x07 → Answers (.pfx k w) s (OnlyX s d (x + i <<< 16) pc8)) ∧
    (fldOp w = 0x14 → Answers (.pfx k w) s (OnlyX s d pc8 ((x + i) &&& ~~~3))) ∧
    (∀ (z : Size), Size.ofCode? ((fldImm w).extractLsb' 14 2) = some z →
      let addr := x + (k ++ (fldImm w).extractLsb' 0 14).signExtend 64
      let n := sizeBytes z
      (fldOp w ∈ [(0x09 : BitVec 6), 0x0A] → ∀ v s', s.noConflict addr n .read → s.read s.myAgent addr n .read = .ok (v, s') →
        Answers (.pfx k w) s (OnlyX s' d (if fldOp w = 0x09 then (BitVec.ofNat (8 * n) v).signExtend 64 else (BitVec.ofNat (8 * n) v).setWidth 64) pc8)) ∧
      (fldOp w = 0x0B → ∀ s', s.noConflict addr n .write → s.write s.myAgent addr n (s.getX d).toNat .write = .ok s' →
        Answers (.pfx k w) s (OnlyPc s' pc8)) ∧
      (fldOp w = 0x0C → d.getLsbD 4 = false →
        let f : FReg := d.setWidth 4
        let size := if z = .b ∨ z = .w then 4 else 8
        (z = .b ∨ z = .h → ∀ v s', s.noConflict addr size .read → s.read s.myAgent addr size .read = .ok (v, s') →
          Answers (.pfx k w) s fun t => OnlyF s' f (if z = .b then .f32 else .f64) (BitVec.ofNat 64 (v % 2 ^ (8 * size))) pc8 t) ∧
        (z = .w ∨ z = .d → ∀ s', s.noConflict addr size .write → s.write s.myAgent addr size (s.getF f).bits.toNat .write = .ok s' →
          Answers (.pfx k w) s (OnlyPc s' pc8)))) ∧
    (∀ i, decodeWord w = some i → fldOp w = 0x22 → fldSi w = 1 → exec (.pfx k w) s = .next (s.vissue w (some k) 8)) ∧
    (∀ i, decodeWord w = some i → fldOp w = 0x22 → fldSi w = 1 → (fldVfn w).toNat ≠ 31 → fldXb w ≠ 0 →
      (tagFp? (s.me.vreg (fldVa w).toNat).tag).isSome = true → (∀ j : Nat, (s.me.streams[j]?).join = none) → s.trapReady →
      TrapsAt (.pfx k w) s causeIllinsn (w.setWidth 64)) ∧
    (fldOp w = 0x22 → fldSi w = 0 → s.trapReady → TrapsAt (.pfx k w) s causeIllinsn (w.setWidth 64)) ∧
    (fldOp w = 0x0C → d.getLsbD 4 = true → s.trapReady → TrapsAt (.pfx k w) s causeIllinsn (w.setWidth 64)) ∧
    (fldOp w ∉ [(0x02 : BitVec 6), 0x03, 0x04, 0x05, 0x06, 0x07, 0x09, 0x0A, 0x0B, 0x0C, 0x14, 0x22] → s.trapReady →
      TrapsAt (.pfx k w) s causeIllinsn (w.setWidth 64))

/-- O26. XINV at S level drops, from every plane within its scope, the held translations of the issuing plane's ROOT, of every page or of the page with Xa, keeps every other, and retires exactly when no operation or route within the scope, those of evicted strands included, holds one; in contexts that CTXSV saved the translations are marked to be walked afresh. WALK_REFILL makes the stream that asks hold the translation of a successful walk in place of the one it held, walking under the ROOT of the vector instruction that asks or of the plane, and changes nothing else. That routes and the operations of evicted strands hold XINV back and that saved contexts are marked is the model’s reading of log 50, how long a stream holds a translation that of log 57. What the spec leaves open or to inference here is the model’s, as in log 50, log 57. (from 11 R174, 07 R77, 07 R73, 15 R237) -/
def Obligations.TranslationMaintenance : Prop :=
  ∀ (s : State) (a : XReg) (c : Scope), s.me.level = .s →
    let root := rootOf s.me.xroot
    let within (p : PlaneId) : Prop := match c with
      | .plane => p = s.cur
      | .core => coreOf p = coreOf s.cur
      | .die => p.val / 256 = s.cur.val / 256
      | _ => True
    let away := (s.cohorts.filter fun k => k.st == .evicted).flatMap (·.saved)
    let gone (i : Instr) (hit : Nat → Nat → Bool) : Prop :=
      let hits (x : XFrame) : Bool := x.span != 0 && x.root == root && hit (x.vframe * 65536) x.span
      let holding : Prop := (∃ o ∈ s.ops, within o.plane ∧ ∃ x ∈ o.kind.holds, hits x = true) ∨
        (∃ r ∈ s.routes, within r.plane ∧ ∃ x ∈ r.xl, hits x = true) ∨
        (∃ y ∈ s.suspended, within y.1 ∧ ∃ o ∈ y.2.ops, ∃ x ∈ o.kind.holds, hits x = true)
      let stale (x : XFrame) : XFrame := if hits x then { x with stale := true } else x
      ∃ t u, exec i s = .next t ∧ (holding → t = u) ∧ (¬ holding → OnlyPc u s.pc4 t) ∧
        { u with planes := s.planes, parked := s.parked } = s ∧
        (∀ p, { u.plane p with held := (s.plane p).held } = s.plane p) ∧
        (∀ p h, h ∈ (u.plane p).held ↔ h ∈ (s.plane p).held ∧
          ¬ (within p ∧ h.root = root ∧ hit (h.vframe * 65536) h.span = true)) ∧
        u.parked = s.parked.mapIdx fun i e => if i ∈ away then e else { e with
          ops := e.ops.map fun o => { o with kind := o.kind.mapHolds stale }
          routes := e.routes.map fun r => { r with xl := r.xl.map stale } }
    gone (.xinv c) (fun _ _ => true) ∧
    gone (.xinvPage a c) (fun va span => va / span == (s.getX a).toNat / span) ∧
    (∀ p va l asks at_, (asks, at_) = s.refillAsks p va.toNat → (s.plane p).st ≠ .free → va.toNat < 2 ^ 57 → s.walk va.toNat 5 4 at_ = .ok l →
      s.formOf l.frame = l.form →
      (asks = .scalar ∧ at_ = rootOf (s.plane p).xroot ∨ ∃ e rest, (s.plane p).vq = e :: rest ∧ asks = .vector e.qpos ∧ at_ = e.root) ∧ Answers (.walkRefill p va) s fun t =>
        { t with planes := s.planes } = s ∧ (∀ q, q ≠ p → t.plane q = s.plane q) ∧
        { t.plane p with held := (s.plane p).held } = s.plane p ∧
        (∀ h, h ∈ (t.plane p).held ↔
          h = ⟨asks, va.toNat / 65536, l.span, l.frame, l.form == 2, l.r, l.w, l.x, l.u, at_⟩ ∨ (h ∈ (s.plane p).held ∧ h.stream ≠ asks)))

/-- O27. TLOOK writes the SLOT of the lowest valid entry whose key is Xa[47:0], all ones where none is; TSET makes entry Xa valid with Xb, TINV returns entry Xa and clears it, TCLR clears all; an entry number of 256 or more takes the illegal-operand trap. No other entry and nothing else changes. (R177) -/
def Obligations.TagTable : Prop :=
  ∀ (s : State) (d a b : XReg),
    let x := s.getX a
    let valid (e : Word) : Prop := e.getLsbD 63 = true ∧ e.extractLsb' 0 48 = x.extractLsb' 0 48
    let table (t : Vector Word 256) (s1 : State) : Prop := OnlyMe s s1 ∧ { s1.me with tags := s.me.tags } = s.me ∧ s1.me.tags = t
    (∀ i : Fin 256, valid (s.me.tags.get i) → (∀ j, j < i → ¬ valid (s.me.tags.get j)) →
      Answers (.tlook d a) s (OnlyX s d (((s.me.tags.get i).extractLsb' 48 15).setWidth 64) s.pc4)) ∧
    ((∀ j, ¬ valid (s.me.tags.get j)) → Answers (.tlook d a) s (OnlyX s d 0xFFFFFFFFFFFFFFFF s.pc4)) ∧
    (∀ h : x.toNat < 256,
      (∃ s1, table (s.me.tags.set x.toNat (s.getX b ||| 0x8000000000000000) h) s1 ∧ Answers (.tset a b) s (OnlyPc s1 s.pc4)) ∧
      (∃ s1, table (s.me.tags.set x.toNat 0 h) s1 ∧ Answers (.tinv d a) s (OnlyX s1 d (s.me.tags.get ⟨x.toNat, h⟩) s.pc4))) ∧
    (∃ s1, table (Vector.replicate 256 0) s1 ∧ Answers .tclr s (OnlyPc s1 s.pc4)) ∧
    (256 ≤ x.toNat → s.trapReady → IllegalOperand (.tset a b) s ∧ IllegalOperand (.tinv d a) s)

/-- O28. At an address in scratchpad FEGET reads whether its granule is FULL, FESET and FECLR make it FULL and EMPTY, no other granule and no byte of memory changes but the full/empty byte of a saved partition; ZSCAN of at most 8,192 blocks that all can be read counts those that are all zero, writes the count to Xd, sets their zero-summary bits, and changes no byte of memory but the zero-summary bytes of a saved partition; more blocks take the illegal-operand trap, and what cannot be accessed traps. What the spec leaves open or to inference here is the model’s, as in log 9, log 15, log 58. (from 11 R178, 11 R179, 07 R77, 07 R86, 07 R88) -/
def Obligations.GranulesAndScans : Prop :=
  ∀ (s : State) (d a b : XReg), Memory.wf s.mem = true →
    let gran : Word := s.getX a &&& ~~~15
    let start := (s.getX a).toNat / 256 * 256
    let n := (s.getX b).toNat
    let u := s.leavePage s.myAgent (s.getX a).toNat 1
    (∀ p, s.places s.myAgent .read true 1 (s.getX a).toNat none = .ok [p] →
      s.noConflict gran 16 .read → Answers (.feget d a) s (OnlyX u d (if s.feGet p then 1 else 0) s.pc4)) ∧
    (∀ p, s.places s.myAgent .write true 1 (s.getX a).toNat none = .ok [p] →
      let sets (b : Bool) (s1 : State) : Prop := s1.feGet p = b ∧
        { s1 with mem := u.mem, full := u.full, wrote := u.wrote } = u ∧ (∀ x, x ∉ fullBytes [p] → s1.byte x = s.byte x) ∧
        (p.kind = .spad → ∀ q : Place, (q.kind = .spad → q.pa / 16 ≠ p.pa / 16) → s1.feGet q = s.feGet q) ∧
        (∀ fe zs, p.kind = .saved fe zs → ∀ q : Place, q.kind = .spad ∨ (∃ z, q.kind = .saved fe z ∧ q.off / 16 ≠ p.off / 16) →
          s1.feGet q = s.feGet q)
      s.noConflict gran 16 .write → (s.releaseReady = true → ∃ s1, sets true s1 ∧ Answers (.feset a) s (OnlyPc s1 s.pc4)) ∧
      (∃ s1, sets false s1 ∧ Answers (.feclr a) s (OnlyPc s1 s.pc4))) ∧
    FailsAs (.feget d a) s (s.places s.myAgent .read true 1 (s.getX a).toNat none) ∧
    (∀ i ∈ [Instr.feset a, .feclr a], FailsAs i s (s.places s.myAgent .write true 1 (s.getX a).toNat none)) ∧
    (8192 < (s.getX b).toNat → s.trapReady → IllegalOperand (.zscan d a b) s) ∧
    (n ≤ 8192 → FailsAs (.zscan d a b) s (s.scanBlocks start n none)) ∧
    (∀ bs, n ≤ 8192 → s.scanBlocks start n none = .ok bs →
      let readable (ps : List Place) : Prop := ∃ v, s.readPlaces 0 ps = .ok v
      let zero (ps : List Place) : Bool := ps.all fun p => s.byte p.pa == 0
      (∀ i ps, bs[i]? = some ps → ¬ readable ps → (∀ j qs, j < i → bs[j]? = some qs → readable qs) → s.trapReady →
        TrapsAt (.zscan d a b) s causeMemerr (BitVec.ofNat 64 (start + 256 * i))) ∧
      ((∀ ps ∈ bs, readable ps) → s.noConflict (BitVec.ofNat 64 start) (256 * n) .read →
        let left := s.leavePage s.myAgent start (256 * n)
        Answers (.zscan d a b) s fun t => ∃ s1, { s1 with zsClear := left.zsClear, mem := left.mem, wrote := left.wrote } = left ∧
          (∀ x, x ∉ bs.flatMap summaryBytes → s1.byte x = s.byte x) ∧
          (∀ ps ∈ bs, zero ps = true → ∀ p ∈ ps.head?, s1.zsGet p = true) ∧
          OnlyX s1 d (BitVec.ofNat 64 (bs.countP zero)) s.pc4 t))

/-- O29. SETVL sets VL to the lesser of Xa and the largest length for the tag and G, and the current tag and G, and writes VL to Xd; CFGGET writes LG, TAG and VL in their places; VCPGET writes the oldest outstanding queue position, or the next where none is, and the next. No tag of a register and nothing else changes. (R182) -/
def Obligations.VectorConfiguration : Prop :=
  ∀ (s : State) (d a : XReg) (t : Tag) (g : BitVec 2),
    let vl := min (s.getX a).toNat (2 ^ g.toNat * (if tagWidth t = 0 then 0 else 4096 / tagWidth t))
    (∃ s1, OnlyMe s s1 ∧ s1.me = { s.me with vl := vl, lg := g, tag := t } ∧
      Answers (.setvl d a t g) s (OnlyX s1 d (BitVec.ofNat 64 vl) s.pc4)) ∧
    (s.me.vl ≤ 8192 → ∃ v, Answers (.cfgget d) s (OnlyX s d v s.pc4) ∧
      (v.extractLsb' 0 14).toNat = s.me.vl ∧ v.extractLsb' 16 5 = s.me.tag.code ∧ v.extractLsb' 24 2 = s.me.lg ∧
      v &&& 0xFFFFFFFFFCE0C000 = 0) ∧
    (∃ v, Answers (.vcpget d) s (OnlyX s d v s.pc4) ∧ v.extractLsb' 16 16 = s.me.qnext ∧ v.extractLsb' 32 32 = 0 ∧
      v.extractLsb' 0 16 = (match s.me.vq with | e :: _ => e.qpos | [] => s.me.qnext))

/-- O30. With operand groups that carry one integer tag and are aligned, VL within vlmax: each active element of vd below VL takes the result of its function modulo the width, the saturating functions their clamped result with SAT where it was clamped; a VS form uses the low bits of Xb, or its immediate, sign-extended from 5 bits or, with a PFX, from the 31 of imm26 and imm5, for every element. The group takes the tag; every other element and everything else is as before. (from 13 R195, 13 R196, 13 R186, 09 R121, 13 Table 13-4) -/
def Obligations.VectorIntegerElements : Prop :=
  ∀ (s : State) (d a b : VReg) (m : MReg) (t : Tag) (c : BitVec 5),
    let g := s.vgroup
    let w := tagWidth t
    let sg := tagIsS t
    s.vecReady → tagIsInt t = true → s.me.holds a g t → d.toNat % g = 0 → s.me.vl ≤ g * (4096 / w) →
    let x := s.me.lane a w
    let int (v : BitVec w) : Int := if sg then v.toInt else v.toNat
    let lo : Int := if sg then -(2 ^ (w - 1)) else 0
    let hi : Int := if sg then 2 ^ (w - 1) - 1 else 2 ^ w - 1
    let plain (f : BitVec w → BitVec w → BitVec w) (y : Nat → BitVec w) : State → Prop :=
      VecDone s m d g t fun k => ((f (x k) (y k)).toNat, 0)
    let clamped (f : Int → Int → Int) (y : Nat → BitVec w) : State → Prop :=
      VecDone s m d g t fun k =>
        let v := f (int (x k)) (int (y k))
        ((BitVec.ofInt w (max lo (min hi v))).toNat, if lo ≤ v ∧ v ≤ hi then 0 else flSAT)
    let forms (p : (Nat → BitVec w) → State → Prop) (vv : Instr) (vs : Bool → Instr) : Prop :=
      (s.me.holds b g t → Answers vv s (p (s.me.lane b w))) ∧
      Answers (vs false) s (p fun _ => (s.getX c).setWidth w) ∧ Answers (vs true) s (p fun _ => c.signExtend w) ∧
      ∀ k : BitVec 26, Prefixed k (vs true) s (p fun _ => (k ++ c).signExtend w)
    (∀ (vv : Instr) (vs : Bool → Instr) (f : BitVec w → BitVec w → BitVec w), (vv, vs, f) ∈ [
      (Instr.vadd d a b m, Instr.vaddVs d a c m, fun x y => x + y),
      (.vsub d a b m, .vsubVs d a c m, fun x y => x - y),
      (.vmul d a b m, .vmulVs d a c m, fun x y => x * y),
      (.vdiv d a b m, .vdivVs d a c m, fun x y => if y = 0 then -1 else if sg then x.sdiv y else x / y),
      (.vmin d a b m, .vminVs d a c m, fun x y => if int x ≤ int y then x else y),
      (.vmax d a b m, .vmaxVs d a c m, fun x y => if int x ≤ int y then y else x),
      (.vand d a b m, .vandVs d a c m, fun x y => x &&& y),
      (.vor d a b m, .vorVs d a c m, fun x y => x ||| y),
      (.vxor d a b m, .vxorVs d a c m, fun x y => x ^^^ y),
      (.vsll d a b m, .vsllVs d a c m, fun x y => x <<< (y.toNat % w)),
      (.vsrl d a b m, .vsrlVs d a c m, fun x y => x >>> (y.toNat % w)),
      (.vsra d a b m, .vsraVs d a c m, fun x y => x.sshiftRight (y.toNat % w)),
      (.vmulh d a b m, .vmulhVs d a c m, fun x y => BitVec.ofInt w (int x * int y / 2 ^ w))] → forms (plain f) vv vs) ∧
    forms (clamped fun x y => x + y) (.vsadd d a b m) (.vsaddVs d a c m) ∧
    forms (clamped fun x y => x - y) (.vssub d a b m) (.vssubVs d a c m) ∧
    Answers (.vneg d a m) s (plain (fun x _ => -x) x) ∧ Answers (.vnot d a m) s (plain (fun x _ => ~~~x) x) ∧
    (sg = true → Answers (.vabs d a m) s (plain (fun x _ => if x.toInt < 0 then -x else x) x)) ∧
    Answers (.vclz d a m) s (plain (fun x _ => BitVec.ofNat w ((List.range w).takeWhile fun i => !x.getMsbD i).length) x) ∧
    Answers (.vpopc d a m) s (plain (fun x _ => BitVec.ofNat w ((List.range w).countP fun i => x.getLsbD i)) x)

/-- O31. With operand groups that carry one of FP64, FP32, FP16 and BF16 and are aligned, VL within vlmax and FCSR.RM a mode: each active element takes the function of the exact values of its operands rounded once, an immediate being the integer imm5 or, with a PFX, the FP32 value whose bits 31:6 are imm26, VMIN and VMAX the operand selected, VABS, VNEG and VCPS a change of sign bit, VCLASS its class under the unsigned tag of the width. Flags join FCSR and FEX0 and FEX1 take the lowest index of each. What the spec leaves open or to inference here is the model’s, as in log 16. (from 13 R195, 13 R197, 13 R186, 03 R26, 03 R45, 09 R121, 13 Table 13-4) -/
def Obligations.VectorFloatElements : Prop :=
  ∀ (s : State) (d a b : VReg) (m : MReg) (t : Tag) (f : Fp) (mode : RMode) (c : BitVec 5),
    let g := s.vgroup
    let w := tagWidth t
    s.vecReady → tagIsF t = true → tagFp? t = some f → dynMode? s.me.rm = some mode → s.me.holds a g t → d.toNat % g = 0 →
    s.me.vl ≤ g * (4096 / w) →
    let x (k : Nat) := (s.me.lane a w k).toNat
    let y (k : Nat) := (s.me.lane b w k).toNat
    let z (k : Nat) := (s.me.lane d w k).toNat
    let low := (s.getX c).toNat % 2 ^ w
    let imm : FVal := .fin (decide (c.toInt < 0)) c.toInt.natAbs 0
    let pfx (k : BitVec 26) : FVal := Fp.fp32.value (k ++ (0 : BitVec 6)).toNat
    let rnd (r : RV × Flags) : Nat × Flags := let q := f.round mode s.me.sat r.1; (q.1, r.2 ||| q.2)
    let done (h : Nat → Nat × Flags) : State → Prop := VecDone s m d g t h
    let pick (isMax : Bool) (x : Nat) (y : FVal) (taken : Flags → Nat × Flags) : Nat × Flags :=
      let p := minMaxPick isMax (f.value x) y
      match p.1 with | none => (f.canonicalNan, p.2) | some false => (x, p.2) | some true => taken p.2
    (∀ (vv : Instr) (vs : Bool → Instr) (h : FVal → FVal → RV × Flags), (vv, vs, h) ∈ [
      (Instr.vadd d a b m, Instr.vaddVs d a c m, fun x y => fpAdd mode x y), (.vsub d a b m, .vsubVs d a c m, fun x y => fpAdd mode x y.negate),
      (.vmul d a b m, .vmulVs d a c m, fpMul), (.vdiv d a b m, .vdivVs d a c m, fpDiv)] →
      (s.me.holds b g t → Answers vv s (done fun k => rnd (h (f.value (x k)) (f.value (y k))))) ∧
      Answers (vs false) s (done fun k => rnd (h (f.value (x k)) (f.value low))) ∧
      Answers (vs true) s (done fun k => rnd (h (f.value (x k)) imm)) ∧
      (c = 0 → ∀ p, Prefixed p (vs true) s (done fun k => rnd (h (f.value (x k)) (pfx p))))) ∧
    (s.me.holds d g t → ∀ (vv : Instr) (vs : Bool → Instr) (h : FVal → FVal → FVal → RV × Flags), (vv, vs, h) ∈ [
      (Instr.vfma d a b m, Instr.vfmaVs d a c m, fun x y z => fpFma mode x y z), (.vfms d a b m, .vfmsVs d a c m, fun x y z => fpFma mode x y z.negate),
      (.vfnma d a b m, .vfnmaVs d a c m, fun x y z => fpFma mode x.negate y z)] →
      (s.me.holds b g t → Answers vv s (done fun k => rnd (h (f.value (x k)) (f.value (y k)) (f.value (z k))))) ∧
      Answers (vs false) s (done fun k => rnd (h (f.value (x k)) (f.value low) (f.value (z k)))) ∧
      Answers (vs true) s (done fun k => rnd (h (f.value (x k)) imm (f.value (z k)))) ∧
      (c = 0 → ∀ p, Prefixed p (vs true) s (done fun k => rnd (h (f.value (x k)) (pfx p) (f.value (z k)))))) ∧
    Answers (.vsqrt d a m) s (done fun k => rnd (fpSqrt (f.value (x k)))) ∧
    (∀ (vv : Instr) (vs : Bool → Instr) (isMax : Bool), (vv, vs, isMax) ∈ [
      (Instr.vmin d a b m, Instr.vminVs d a c m, false), (.vmax d a b m, .vmaxVs d a c m, true)] →
      (s.me.holds b g t → Answers vv s (done fun k => pick isMax (x k) (f.value (y k)) fun fl => (y k, fl))) ∧
      Answers (vs false) s (done fun k => pick isMax (x k) (f.value low) fun fl => (low, fl)) ∧
      Answers (vs true) s (done fun k => pick isMax (x k) imm fun fl => rnd (imm.toRV, fl)) ∧
      (c = 0 → ∀ p, Prefixed p (vs true) s (done fun k => pick isMax (x k) (pfx p) fun fl => rnd ((pfx p).toRV, fl)))) ∧
    Answers (.vabs d a m) s (done fun k => (x k % 2 ^ (w - 1), 0)) ∧
    Answers (.vneg d a m) s (done fun k => ((x k + 2 ^ (w - 1)) % 2 ^ w, 0)) ∧
    (s.me.holds b g t → Answers (.vcps d a b m) s (done fun k => (x k % 2 ^ (w - 1) + y k / 2 ^ (w - 1) * 2 ^ (w - 1), 0))) ∧
    Answers (.vcpsVs d a c m false) s (done fun k => (x k % 2 ^ (w - 1) + low / 2 ^ (w - 1) * 2 ^ (w - 1), 0)) ∧
    Answers (.vcpsVs d a c m true) s (done fun k => (x k % 2 ^ (w - 1) + (if c.toInt < 0 then 2 ^ (w - 1) else 0), 0)) ∧
    (c = 0 → ∀ p, Prefixed p (.vcpsVs d a c m true) s (done fun k => (x k % 2 ^ (w - 1) + (if p.msb then 2 ^ (w - 1) else 0), 0))) ∧
    (∀ tz, tagIsZ tz = true → tagWidth tz = w → Answers (.vclass d a m) s (VecDone s m d g tz fun k => (f.classify (x k), 0)))

/-- O32. VMOV copies the active elements, VMERGE takes vb, or the VS operand, where the mask is on and va elsewhere, VTAG copies the registers of a group under a new tag, with the side bytes that the tag has; VMODMUL, VMODADD and VMODSUB work modulo q with MOV for operands not below q; VFMA, VFMS and VFNMA of FP16 or BF16 operands into an FP32 group round once in FP32. (from 13 R195, 13 R197, 13 R198, 09 R121, 03 R35, 03 R34, 13 R188) -/
def Obligations.VectorMovesAndModular : Prop :=
  ∀ (s : State) (d a b : VReg) (m : MReg) (t : Tag) (c : BitVec 5),
    let g := s.vgroup
    let w := tagWidth t
    s.vecReady → t ≠ .none → tagIsQB t = false → d.toNat % g = 0 → s.me.vl ≤ g * (4096 / w) →
    let x (k : Nat) := (s.me.lane a w k).toNat
    let y (k : Nat) := (s.me.lane b w k).toNat
    let low := (s.getX c).toNat % 2 ^ w
    let q := s.me.modulus
    let imm (v : Int) := (v % (q : Int)).toNat
    let immFl (v : Int) : Flags := if v < -(((q : Int) - 1) / 2) ∨ ((q : Int) - 1) / 2 < v then flMOV else 0
    let real : FVal := .fin (decide (c.toInt < 0)) c.toInt.natAbs 0
    let pfx (k : BitVec 26) : FVal := Fp.fp32.value (k ++ (0 : BitVec 6)).toNat
    (s.me.holds a g t →
      Answers (.vmov d a m) s (VecDone s m d g t fun k => (x k, 0)) ∧
      (s.me.holds b g t → Answers (.vmerge d a b m) s (VecDone s 0 d g t fun k => (if s.me.maskBit m k then y k else x k, 0))) ∧
      Answers (.vmergeVs d a c m false) s (VecDone s 0 d g t fun k =>
        if s.me.maskBit m k = false then (x k, 0) else if t = .m32 ∧ q ≤ low then (low % q, flMOV) else (low, 0)) ∧
      (let merged (v : Nat × Flags) : State → Prop := VecDone s 0 d g t fun k => if s.me.maskBit m k then v else (x k, 0)
       let vs : Instr := .vmergeVs d a c m true
       (t = .m32 → 0 < q → Answers vs s (merged (imm c.toInt, immFl c.toInt)) ∧
         ∀ p : BitVec 26, Prefixed p vs s (merged (imm (p ++ c).toInt, immFl (p ++ c).toInt))) ∧
       (tagIsInt t = true → Answers vs s (merged ((c.signExtend w).toNat, 0)) ∧
         ∀ p : BitVec 26, Prefixed p vs s (merged (((p ++ c).signExtend w).toNat, 0))) ∧
       (∀ f mode, tagFp? t = some f → dynMode? s.me.rm = some mode → Answers vs s (merged (f.round mode s.me.sat real.toRV)) ∧
         (c = 0 → ∀ p, Prefixed p vs s (merged (f.round mode s.me.sat (pfx p).toRV))))) ∧
      (∀ u, Answers (.vtag d a u) s fun v => VecFrame s v ∧ VecFlags s (fun _ _ => False) v ∧
        (∀ j, j < g → v.me.vreg (d.toNat + j) =
          ⟨(s.me.vreg (a.toNat + j)).data,
            if u = .q4 then (s.me.vreg (a.toNat + j)).side
            else if u = .b16 then (s.me.vreg (a.toNat + j)).side &&& 0xFFFFFFFFFFFFFFFF else 0, u⟩) ∧
        (∀ k, k < 64 → k < d.toNat ∨ d.toNat + g ≤ k → v.me.vreg k = s.me.vreg k))) ∧
    (t = .m32 → s.me.holds a g t →
      let fl (r : Nat) : Flags := if q ≤ r then flMOV else 0
      0 < q → ∀ (vv : Instr) (vs : Bool → Instr) (f : Nat → Nat → Nat), (vv, vs, f) ∈ [
        (Instr.vmodmul d a b m, Instr.vmodmulVs d a c m, fun x y => x * y % q), (.vmodadd d a b m, .vmodaddVs d a c m, fun x y => (x + y) % q),
        (.vmodsub d a b m, .vmodsubVs d a c m, fun x y => ((x : Int) - y) % q |>.toNat)] →
        (s.me.holds b g t → Answers vv s (VecDone s m d g t fun k => (f (x k % q) (y k % q), fl (x k) ||| fl (y k)))) ∧
        Answers (vs false) s (VecDone s m d g t fun k => (f (x k % q) (low % q), fl (x k) ||| fl low)) ∧
        Answers (vs true) s (VecDone s m d g t fun k => (f (x k % q) (imm c.toInt), fl (x k) ||| immFl c.toInt)) ∧
        ∀ p : BitVec 26, Prefixed p (vs true) s (VecDone s m d g t fun k => (f (x k % q) (imm (p ++ c).toInt), fl (x k) ||| immFl (p ++ c).toInt))) ∧
    (∀ (u : Tag) (f : Fp) (mode : RMode), u ∈ [Tag.bf16, .fp16] → tagFp? u = some f → t = .fp32 → dynMode? s.me.rm = some mode → 1 < g →
      let h := g / 2
      s.me.holds a h u → s.me.holds d g .fp32 → groupsMeet d.toNat g a.toNat h = false →
      let xu (k : Nat) := f.value (s.me.lane a 16 k).toNat
      let z (k : Nat) := Fp.fp32.value (s.me.lane d 32 k).toNat
      let rnd (r : RV × Flags) : Nat × Flags := let q := Fp.fp32.round mode s.me.sat r.1; (q.1, r.2 ||| q.2)
      ∀ (vv : Instr) (vs : Bool → Instr) (e : FVal → FVal → FVal → RV × Flags), (vv, vs, e) ∈ [
        (Instr.vfma d a b m, Instr.vfmaVs d a c m, fun x y z => fpFma mode x y z), (.vfms d a b m, .vfmsVs d a c m, fun x y z => fpFma mode x y z.negate),
        (.vfnma d a b m, .vfnmaVs d a c m, fun x y z => fpFma mode x.negate y z)] →
        (s.me.holds b h u → groupsMeet d.toNat g b.toNat h = false →
          Answers vv s (VecDone s m d g .fp32 fun k => rnd (e (xu k) (f.value (s.me.lane b 16 k).toNat) (z k)))) ∧
        Answers (vs false) s (VecDone s m d g .fp32 fun k => rnd (e (xu k) (f.value ((s.getX c).toNat % 2 ^ 16)) (z k))) ∧
        Answers (vs true) s (VecDone s m d g .fp32 fun k => rnd (e (xu k) real (z k))) ∧
        (c = 0 → ∀ p, Prefixed p (vs true) s (VecDone s m d g .fp32 fun k => rnd (e (xu k) (pfx p) (z k)))))

/-- O33. Each active bit below VL of the destination mask takes the truth of the compare, by value for integers, M32 residues and floating-point tags, with the flags of its operands; MAND, MOR, MXOR, MANDN, MNOT, MSET and MFROMV set the bits below VL; every other bit keeps its value. MPOPC counts the active bits that are set and MFIRST finds the lowest, all ones where none is, into Xd. What the spec leaves open or to inference here is the model’s, as in log 16, log 17, log 79. (from 13 R199, 13 R200, 13 R201, 13 R190, 03 R45) -/
def Obligations.VectorMasks : Prop :=
  ∀ (s : State) (d a b m : MReg) (va vb : VReg) (x : XReg) (t : Tag),
    let g := s.vgroup
    let w := tagWidth t
    let vl := s.me.vl
    s.vecReady → vl ≤ 8192 →
    let below (f : Nat → Bool) (i : Nat) : Option Bool := if i < vl then some (f i) else none
    let active (f : Nat → Bool) (i : Nat) : Option Bool := if i < vl ∧ s.me.maskBit m i = true then some (f i) else none
    let on (i : Nat) : Bool := s.me.maskBit m i && s.me.maskBit a i
    (s.me.holds va g t → vl ≤ g * (4096 / w) →
      let ax (k : Nat) := s.me.lane va w k
      let bx (k : Nat) := s.me.lane vb w k
      (tagIsInt t = true → s.me.holds vb g t →
        let int (v : BitVec w) : Int := if tagIsS t then v.toInt else v.toNat
        let cmp (f : Int → Int → Bool) (u : State) : Prop :=
          MaskDone s d (active fun k => f (int (ax k)) (int (bx k))) u ∧ VecFlags s (fun _ _ => False) u
        Answers (.vcmpeq d va vb m) s (cmp fun x y => x == y) ∧ Answers (.vcmpne d va vb m) s (cmp fun x y => x != y) ∧
        Answers (.vcmplt d va vb m) s (cmp fun x y => decide (x < y)) ∧ Answers (.vcmple d va vb m) s (cmp fun x y => decide (x ≤ y)) ∧
        Answers (.vcmpun d va vb m) s (cmp fun _ _ => false)) ∧
      (∀ f, tagFp? t = some f → tagIsF t = true → s.me.holds vb g t →
        let xv (k : Nat) := f.value (ax k).toNat
        let yv (k : Nat) := f.value (bx k).toNat
        let cmp (h : FVal → FVal → Bool × Flags) (u : State) : Prop :=
          MaskDone s d (active fun k => (h (xv k) (yv k)).1) u ∧
          VecFlags s (fun j k => k < vl ∧ s.me.maskBit m k = true ∧ (h (xv k) (yv k)).2.getLsbD j = true) u
        Answers (.vcmpeq d va vb m) s (cmp (fpCompare 0)) ∧
        Answers (.vcmpne d va vb m) s (cmp fun x y => (!(fpCompare 0 x y).1, (fpCompare 0 x y).2)) ∧
        Answers (.vcmplt d va vb m) s (cmp (fpCompare 1)) ∧ Answers (.vcmple d va vb m) s (cmp (fpCompare 2)) ∧
        Answers (.vcmpun d va vb m) s (cmp fun x y => (x.isNan || y.isNan, nvOf [x, y]))) ∧
      (t = .m32 → s.me.holds vb g t →
        let q := s.me.modulus
        let cmp (h : Nat → Nat → Bool) (u : State) : Prop := MaskDone s d (active fun k => h ((ax k).toNat % q) ((bx k).toNat % q)) u ∧
          VecFlags s (fun j k => k < vl ∧ s.me.maskBit m k = true ∧ flMOV.getLsbD j = true ∧ (q ≤ (ax k).toNat ∨ q ≤ (bx k).toNat)) u
        Answers (.vcmpeq d va vb m) s (cmp fun x y => x == y) ∧ Answers (.vcmpne d va vb m) s (cmp fun x y => x != y)) ∧
      (t ≠ .none → tagIsQB t = false → Answers (.mfromv d va m) s fun u => VecQuiet s u ∧
        MaskDone s d (active fun k => if (tagFp? t).isSome then (ax k).toNat % 2 ^ (w - 1) != 0 else if t = .m32 then (ax k).toNat % s.me.modulus != 0 else ax k != 0) u)) ∧
    (∀ i f, (i, f) ∈ [(Instr.mand d a b, fun k => s.me.maskBit a k && s.me.maskBit b k), (.mor d a b, fun k => s.me.maskBit a k || s.me.maskBit b k),
        (.mxor d a b, fun k => s.me.maskBit a k != s.me.maskBit b k), (.mandn d a b, fun k => s.me.maskBit a k && !s.me.maskBit b k),
        (.mnot d a, fun k => !s.me.maskBit a k), (.mset d x, fun k => decide (k < (s.getX x).toNat))] →
      Answers i s fun u => VecQuiet s u ∧ MaskDone s d (below f) u) ∧
    Answers (.mpopc x a m) s (VecToX s x (BitVec.ofNat 64 ((List.range vl).countP on))) ∧
    (∀ k, k < vl → on k = true → (∀ j, j < k → on j = false) → Answers (.mfirst x a m) s (VecToX s x (BitVec.ofNat 64 k))) ∧
    ((∀ j, j < vl → on j = false) → Answers (.mfirst x a m) s (VecToX s x 0xFFFFFFFFFFFFFFFF))

/-- O34. Element 0 of vd takes element 0 of vb combined with each active element of va: integer sums, minima, maxima and bitwise combinations modulo the width, floating-point VREDMIN and VREDMAX in ascending order, VREDSUMO rounding after each addition; VDOT of integers adds the products exactly into element 0 of vd modulo the accumulator's width. VXACC adds the products of finite operands exactly into XAC; VXRND rounds XAC once, with .CLR clearing it. VREDSUM and VDOT of every floating-point tag and of Q4 complete with a result that the bound of R36 allows. What the spec leaves open or to inference here is the model’s, as in log 6, log 19, log 27, log 70, log 72. (from 13 R202, 13 R203, 13 R204, 13 R205, 13 R206, 03 R38, 03 R39, 13 Table 13-7) -/
def Obligations.VectorReductions : Prop :=
  ∀ (s : State) (d a b : VReg) (m : MReg) (t : Tag),
    let g := s.vgroup
    let w := tagWidth t
    let vl := s.me.vl
    let act := (List.range vl).filter fun i => s.me.maskBit m i
    let x (k : Nat) := s.me.lane a w k
    let first (v : Nat) (i : Nat) : Option Nat := if i = 0 then some v else none
    let tagOf (r : VReg) : Tag := (s.me.vreg r.toNat).tag
    s.vecReady → d.toNat % g = 0 →
    (s.me.holds a g t → b.toNat % g = 0 → vl ≤ g * (4096 / w) →
      (tagIsInt t = true → tagOf b = t →
        let int (v : BitVec w) : Int := if tagIsS t then v.toInt else v.toNat
        ∀ i f, (i, f) ∈ [(Instr.vredsum d a b m, fun x y : BitVec w => x + y), (.vredsumo d a b m, fun x y => x + y),
          (.vredmin d a b m, fun x y => if int x ≤ int y then x else y), (.vredmax d a b m, fun x y => if int x ≤ int y then y else x),
          (.vredand d a b m, fun x y => x &&& y), (.vredor d a b m, fun x y => x ||| y), (.vredxor d a b m, fun x y => x ^^^ y)] →
          Answers i s fun u => VecFrame s u ∧ VecFlags s (fun _ _ => False) u ∧
            VecPuts s d g t (first (act.foldl (fun r k => f r (x k)) (s.me.lane b w 0)).toNat) u) ∧
      (∀ f, tagFp? t = some f → tagIsF t = true → tagOf b = t →
        (∀ i isMax, (i, isMax) ∈ [(Instr.vredmin d a b m, false), (.vredmax d a b m, true)] → Answers i s fun u => VecFrame s u ∧
          VecPuts s d g t (first ((act.foldl (fun r k => (fpMinMax f isMax r (x k).toNat).1) (s.me.lane b w 0).toNat) % 2 ^ w)) u))) ∧
    (∀ f u h ga, tagIsF t = true → tagFp? t = some f →
      (u, h, ga) = (if t = .fp64 then (Tag.fp64, Fp.fp64, g) else if t = .fp32 then (.fp32, .fp32, g) else (.fp32, .fp32, max 1 (g / 2))) →
      s.me.holds a ga t → b.toNat % g = 0 → tagOf b = u → vl ≤ g * (4096 / tagWidth u) →
      let start := (s.me.lane b (tagWidth u) 0).toNat
      let val (k : Nat) : FVal := f.value (x k).toNat
      (∀ mode, dynMode? s.me.rm = some mode → Answers (.vredsumo d a b m) s fun o => VecFrame s o ∧
        VecPuts s d g u (first ((act.foldl (fun r k => (h.round mode s.me.sat (fpAdd mode (h.value r) (val k)).1).1) start) % 2 ^ tagWidth u)) o) ∧
      (∃ v : Nat, (act = [] → v = start) ∧ (act ≠ [] → SumAllowed h ((h.value start).toRV :: act.map fun k => (val k).toRV) v) ∧
        Answers (.vredsum d a b m) s fun o => VecFrame s o ∧ VecPuts s d g u (first v) o)) ∧
    (∀ u ga, (t, u, ga) ∈ [(Tag.s8, Tag.s32, g / 4), (.s16, .s32, g / 2), (.z8, .z32, g / 4), (.z16, .z32, g / 2), (.s32, .s64, g / 2), (.s64, .s64, g),
        (.z32, .z64, g / 2), (.z64, .z64, g)] →
      s.me.holds a (max 1 ga) t → s.me.holds b (max 1 ga) t → tagOf d = u → vl ≤ g * (4096 / tagWidth u) →
      let int (w : Nat) (v : BitVec w) : Int := if tagIsS t then v.toInt else v.toNat
      Answers (.vdot d a b m) s fun o => VecFrame s o ∧ VecFlags s (fun _ _ => False) o ∧ VecPuts s d g u (first (BitVec.ofInt (tagWidth u)
        (int (tagWidth u) (s.me.lane d (tagWidth u) 0) + (act.map fun k => int w (x k) * int w (s.me.lane b w k)).sum)).toNat) o) ∧
    (∀ u h ga, (t, u, h, ga) ∈ [(Tag.fp64, Tag.fp64, Fp.fp64, g), (.fp32, .fp32, .fp32, g), (.fp16, .fp32, .fp32, g / 2), (.bf16, .fp32, .fp32, g / 2),
        (.e4m3, .fp32, .fp32, g / 4), (.e5m2, .fp32, .fp32, g / 4), (.q4, .fp32, .fp32, g / 8)] →
      s.me.holds a (max 1 ga) t → s.me.holds b (max 1 ga) t → tagOf d = u → vl ≤ g * (4096 / tagWidth u) →
      let val (r : VReg) (k : Nat) : FVal :=
        if t = .q4 then q4Value (s.me.sideByte (r.toNat + k / 1024) (k % 1024 / 32)) (s.me.lane r 4 k).toNat
        else match tagFp? t with | some f => f.value (s.me.lane r w k).toNat | none => .nan false
      let start := (s.me.lane d (tagWidth u) 0).toNat
      ∃ v, (act = [] → v = start) ∧ (act ≠ [] → SumAllowed h ((h.value start).toRV :: act.map fun k => (fpMul (val a k) (val b k)).1) v) ∧
        Answers (.vdot d a b m) s fun o => VecFrame s o ∧ VecPuts s d g u (first v) o) ∧
    (t = .fp64 → s.me.holds a g t → s.me.holds b g t → vl ≤ g * (4096 / w) → s.me.xacSt = .fin →
      let p (r : VReg) (k : Nat) := Fp.fp64.value (s.me.lane r 64 k).toNat
      (∀ k ∈ act, ∀ r ∈ [a, b], ∃ n q e, p r k = .fin n q e) →
      let sum : Rat := (s.me.xac.toInt : Rat) + (act.map fun k => (p a k).rat * (p b k).rat * 2 ^ (2148 : Int)).sum
      sum > -(2 ^ 4351) → sum < 2 ^ 4351 →
      Answers (.vxacc a b m) s fun o => (o.me.xac.toInt : Rat) = sum ∧ o.me.xacSt = .fin ∧ VecFlags s (fun _ _ => False) o ∧
        GoesOn o s.pc4 ∧ o.me.qnext = s.me.qnext + 1 ∧ OnlyMe s { o with free := s.free } ∧
        SameButPc s.me { o.me with
          xac := s.me.xac
          xacSt := s.me.xacSt
          fcsr := s.me.fcsr
          fex0 := s.me.fex0
          fex1 := s.me.fex1
          qnext := s.me.qnext
          held := s.me.held } ∧ o.me.held = s.me.heldBut s.me.qnext) ∧
    (∀ mode, dynMode? s.me.rm = some mode →
      let v : Nat := (match s.me.xacSt with
        | .fin => (Fp.fp64.roundEx mode true (Ex.mk (if s.me.xac.toInt = 0 then zeroSign mode else decide (s.me.xac.toInt < 0))
            s.me.xac.toInt.natAbs (-2148) false)).1
        | .pinf => 0x7FF0000000000000
        | .ninf => 0xFFF0000000000000
        | .nan => Fp.fp64.canonicalNan)
      let done (z : Bool) (o : State) : Prop := VecPuts s d g .fp64 (first (v % 2 ^ 64)) o ∧
        o.me.xac = (if z then 0 else s.me.xac) ∧ o.me.xacSt = (if z then .fin else s.me.xacSt) ∧
        VecFrame s (o.modMe fun p => { p with xac := s.me.xac, xacSt := s.me.xacSt })
      s.me.vl ≤ 8192 → Answers (.vxrnd d) s (done false) ∧ Answers (.vxrndClr d) s (done true))

/-- O35. With aligned groups of the sizes that the widths give and no forbidden overlap: VCVTH, VCVTD, VCVTI and VCVTF convert each active element between floating-point, signed and unsigned types, rounding once or saturating, each reading its source as the elements before it have left it; VDEQ and VBFPN from a block type take the exact block value rounded; VSCALE scales by a power of two; VPACKS narrows two groups with saturation; VCVTF4, VQUANT and VBFPN to B16 convert blocks of 32 elements, the elements at or beyond VL counting as zero. What the spec leaves open or to inference here is the model’s, as in log 16, log 21, log 24, log 80. (from 13 R207, 13 R208, 13 R209, 13 R210, 13 R211, 13 R212, 13 R213, 03 R34, 03 R41, 13 R187) -/
def Obligations.VectorConversions : Prop :=
  ∀ (s : State) (d a b : VReg) (m : MReg) (t u : Tag) (mode : RMode) (ty : BitVec 2),
    let g := s.vgroup
    let w := tagWidth t
    let v := tagWidth u
    let vl := s.me.vl
    let ga := max 1 (g * w / max w v)
    let gd := max 1 (g * v / max w v)
    let x (k : Nat) := (s.me.lane a w k).toNat
    let int (sg : Bool) (w x : Nat) : Int := if sg then (BitVec.ofNat w x).toInt else x
    let clamp (k : Int) : Nat × Flags :=
      let lo : Int := if tagIsS u then -(2 ^ (v - 1)) else 0
      let hi : Int := if tagIsS u then 2 ^ (v - 1) - 1 else 2 ^ v - 1
      ((BitVec.ofInt v (max lo (min hi k))).toNat, if lo ≤ k ∧ k ≤ hi then 0 else flSAT)
    s.vecReady → dynMode? s.me.rm = some mode → s.me.holds a ga t → d.toNat % gd = 0 →
    (groupsMeet d.toNat gd a.toNat ga = false ∨ gd = ga ∨ (v < w ∧ d = a)) →
    let apart : Prop := groupsMeet d.toNat gd a.toNat ga = false ∨ w = v ∨ (v < w ∧ d = a)
    let converts (i : Instr) (f : Nat → Nat → Nat × Flags) : Prop :=
      (apart → Answers i s (VecDone s m d gd u fun k => f k (x k))) ∧
      Answers i s (VecInTurn s d gd u ((s.activeOn m).map fun k => (k, fun p => let r := f k (p.elem a.toNat w k); (p.setElem d.toNat v k r.1, r.2))))
    vl ≤ g * (4096 / max w v) →
    (∀ i, (i = .vcvth d a u m ∧ v * 2 = w) ∨ (i = .vcvtd d a u m ∧ v = 2 * w) →
      (∀ f h, tagFp? t = some f → tagFp? u = some h → converts i fun _ x => h.round mode s.me.sat (f.value x).toRV) ∧
      (∀ f, tagFp? t = some f → tagIsInt u = true → converts i fun _ x =>
        let r := rvToInt (tagIsS u) v mode (f.value x).toRV
        ((BitVec.ofInt v r.1).toNat, r.2)) ∧
      (∀ h, tagIsInt t = true → tagFp? u = some h → converts i fun _ x => h.round mode s.me.sat (.num (exOfInt (int (tagIsS t) w x)))) ∧
      (tagIsInt t = true → tagIsInt u = true → converts i fun _ x => clamp (int (tagIsS t) w x))) ∧
    (w = v → ∀ f, (tagFp? t = some f → tagIsInt u = true → converts (.vcvti d a u m) fun _ x =>
        let r := rvToInt (tagIsS u) v mode (f.value x).toRV
        ((BitVec.ofInt v r.1).toNat, r.2)) ∧
      (tagIsInt t = true → tagFp? u = some f → converts (.vcvtf d a u m) fun _ x => f.round mode s.me.sat (.num (exOfInt (int (tagIsS t) w x)))) ∧
      (∀ h, tagFp? t = some f → tagFp? u = some h → converts (.vcvtf d a u m) fun _ x => h.round mode s.me.sat (f.value x).toRV)) ∧
    (∀ h, t = .q4 → tagFp? u = some h → converts (.vdeq d a u m) fun k x =>
      h.round mode s.me.sat (q4Value (s.me.sideByte (a.toNat + k / 1024) (k % 1024 / 32)) x).toRV) ∧
    (∀ h, t = .b16 → u ∈ [Tag.fp32, .fp64] → tagFp? u = some h → converts (.vbfpn d a u m) fun k x =>
      h.round mode s.me.sat (b16Value (s.me.sideByte (a.toNat + k / 256) (k % 256 / 32)) x).toRV) ∧
    (∀ f, tagIsF t = true → tagFp? t = some f → tagIsS u = true → w = v → s.me.holds b g u →
      Answers (.vscale d a b m) s (VecDone s m d g t fun k => f.round mode s.me.sat (match f.value (x k) with
        | .fin n q e => .num ⟨n, q, e + max (-8192) (min 8192 (s.me.lane b w k).toInt), false⟩
        | o => o.toRV))) ∧
    ((t, u) ∈ [(Tag.s16, Tag.s8), (.s32, .s16), (.s64, .s32), (.z16, .z8), (.z32, .z16), (.z64, .z32)] → s.me.holds b g t → d.toNat % g = 0 →
      let write (r : VReg) (o k : Nat) (p : Plane) : Plane × Flags :=
        let c := clamp (int (tagIsS t) w (p.elem r.toNat w k))
        (p.setElem d.toNat v (o + k) c.1, c.2)
      Answers (.vpacks d a b m) s (VecInTurn s d g u ((s.activeOn m).flatMap fun k => [(k, write a 0 k), (vl + k, write b vl k)])) ∧
      (d ≠ a → d ≠ b → Answers (.vpacks d a b m) s fun o => VecFrame s o ∧ VecPuts s d g u (fun i =>
        let k := if i < vl then i else i - vl
        if i < 2 * vl ∧ s.me.maskBit m k = true then some (clamp (int (tagIsS t) w (if i < vl then x k else (s.me.lane b w k).toNat))).1 else none) o)) ∧
    (tagIsF t = true → ∀ f, tagFp? t = some f →
      let val (i : Nat) : FVal := if i < vl then f.value (x i) else .fin false 0 0
      let block (j : Nat) : List FVal := (List.range 32).map fun i => val (32 * j + i)
      let blocks (p : Nat) (conv : Nat → List FVal → Nat × List (Nat × Flags)) (o : State) : Prop :=
        VecFrame s o ∧ ∀ j i c, j < (vl + 31) / 32 → i < 32 → (conv j (block j)).2[i]? = some c →
          o.me.elem d.toNat v (32 * j + i) = c.1 % 2 ^ v ∧ o.me.sideByte (d.toNat + j / p) (j % p) = (conv j (block j)).1 % 256 ∧
          (o.me.vreg (d.toNat + j / p)).tag = u
      (u = .q4 → Answers (.vcvtf4 d a ty) s (blocks 32 fun _ => q4Block ty.toNat mode) ∧
        ((s.me.vreg b.toNat).tag = .z8 → Answers (.vquant d a b) s (blocks 32 fun j => q4Block ((s.me.lane b 8 j).toNat % 4) mode))) ∧
      (u = .b16 → Answers (.vbfpn d a .b16 0) s (blocks 8 fun _ => b16Block mode)))

/-- O36. With aligned groups that carry a plain tag, VL within vlmax: each permutation gives every active element of vd the element of va that its rule names, zero where that lies at or beyond VL, every source read before any element is written; VEXTR writes an element to Xd; VCONFD marks the first active element of each value. What the spec leaves open or to inference here is the model’s, as in log 20, log 24. (from 13 R214, 13 R215, 13 R216, 13 R217, 13 R218, 13 R219, 13 R190) -/
def Obligations.VectorPermutations : Prop :=
  ∀ (s : State) (d a b : VReg) (m mb : MReg) (t : Tag) (xd xa xb : XReg) (h : Bool),
    let g := s.vgroup
    let w := tagWidth t
    let vl := s.me.vl
    let k := (s.getX xb).toNat
    let act := (List.range vl).filter fun i => s.me.maskBit m i
    let x (i : Nat) : Nat := (s.me.lane a w i).toNat
    let moved (n : Nat) (f : Nat → Option Nat) : State → Prop := VecMoved s d n t f
    let each (f : Nat → Nat) (i : Nat) : Option Nat := if i < vl ∧ s.me.maskBit m i = true then some (f i) else none
    let all (n : Nat) (f : Nat → Nat) (i : Nat) : Option Nat := if i < n then some (f i) else none
    s.vecReady → t ≠ .none → tagIsQB t = false → d.toNat % g = 0 → vl ≤ g * (4096 / w) →
    (s.me.holds a g t →
      Answers (.vslideup d a xb m) s (moved g fun i => if k ≤ i then each (fun i => x (i - k)) i else none) ∧
      Answers (.vslidedn d a xb m) s (moved g (each fun i => if i + k < vl then x (i + k) else 0)) ∧
      Answers (.vbcast d a xb m) s (moved g (each fun _ => if k < vl then x k else 0)) ∧
      Answers (.vrev d a m) s (moved g (each fun i => x (vl - 1 - i))) ∧
      Answers (.vcompr d a m) s (moved g fun i => (act[i]?).map x) ∧
      Answers (.vexpnd d a m) s (moved g (each fun i => x (act.countP fun j => j < i))) ∧
      (0 < k → vl % k = 0 → Answers (.vstrp d a xb) s (moved g (all vl fun o => x (o % k * (vl / k) + o / k)))) ∧
      (vl % 2 = 0 → 1 < g → Answers (.vunzip d a h) s (VecMoved s d (g / 2) t (all (vl / 2) fun i => x (2 * i + if h then 1 else 0)))) ∧
      Answers (.vextr xd a xb) s (VecToX s xd (if k < vl then (if tagIsS t then (s.me.lane a w k).signExtend 64 else (s.me.lane a w k).setWidth 64) else 0)) ∧
      (∀ u, tagIsInt u = true → tagWidth u = w → s.me.holds b g u → Answers (.vgathr d a b m) s (moved g (each fun i =>
        let j := (s.me.lane b w i).toNat
        if j < vl then x j else 0))) ∧
      (tagIsInt t = true → ∀ md : MReg, Answers (.vconfd md a m) s fun u => VecQuiet s u ∧ MaskDone s md (fun i =>
        if i < vl then some (s.me.maskBit m i && act.all fun j => !(decide (j < i) && x j == x i)) else none) u)) ∧
    (vl % 2 = 0 → 1 < g → s.me.holds a (g / 2) t → s.me.holds b (g / 2) t →
      Answers (.vzip d a b) s (moved g (all vl fun i => if i % 2 = 0 then x (i / 2) else (s.me.lane b w (i / 2)).toNat))) ∧
    (s.me.holds d g t → Answers (.vinsrt d xa xb) s fun u => VecFrame s u ∧ VecQuiet s u ∧
      (∀ i, i < g * (4096 / w) → u.me.elem d.toNat w i = if i = k ∧ k < vl then (s.getX xa).toNat % 2 ^ w else s.me.elem d.toNat w i) ∧
      (∀ r, (u.me.vreg r).tag = (s.me.vreg r).tag ∧ (u.me.vreg r).side = (s.me.vreg r).side) ∧
      (∀ r, r < 64 → r < d.toNat ∨ d.toNat + g ≤ r → u.me.vreg r = s.me.vreg r)) ∧
    (s.me.tag = t → tagIsInt t = true →
      Answers (.vid d m) s (moved g (each fun i => i % 2 ^ w)) ∧
      Answers (.viota d mb m) s (moved g (each fun i => (act.countP fun j => decide (j < i) && s.me.maskBit mb j) % 2 ^ w)))

/-- O37. With no pending pairs and every active access readable: element i of vd takes the bytes at Xa + i × S for VLD and VLDFF, at Xa + i × Xb for VLDS, at the scaled or byte index for VLDX, field f of record i for VLDSEG, zero outside the window for VGWIN; VLDW takes them once MARK has passed its range index, VLDFE where every granule read is FULL, .C making them EMPTY; VLDFF cut by a translation fault past its first active element keeps the mask bits below it. The groups take the current tag. VLD, VLDS and VLDFF at its first active element, stopped by a translation fault or an uncorrectable error at element k, trap at their queue position with the elements below k loaded. VLD of Q4 and B16 takes superblocks, each one access for faults; the other loads take the illegal-operand trap on these tags. What the spec leaves open or to inference here is the model’s, as in log 5, log 33. (from 15 R220, 15 R222, 15 R226, 15 R227, 15 R228, 15 R229, 15 R230, 15 R232, 15 R223, 15 R225, 17 R252, 17 R257) -/
def Obligations.VectorLoads : Prop :=
  ∀ (s : State) (d b : VReg) (xa xb : XReg) (m : MReg) (o c : Bool) (nf : BitVec 3) (w : WReg) (ti : Tag),
    let t := s.me.tag
    let g := s.vgroup
    let n := tagBytes t
    let vl := s.me.vl
    let base := s.getX xa
    let ag := s.vecAgent s.me.qnext
    let on (i : Nat) : Prop := i < vl ∧ s.me.maskBit m i = true
    let reads (at_ : Nat → Word) (val : Nat → Nat) : Prop := ∀ i, on i → s.read ag (at_ i) n .read = .ok (val i, s)
    let loaded (e : VReg) (val : Nat → Nat) (u : State) : Prop :=
      VecMoved s e g t (fun i => if i < vl ∧ s.me.maskBit m i = true then some (val i) else none) u
    let seq (i : Nat) : Word := base + BitVec.ofNat 64 (i * n)
    let stride (i : Nat) : Word := base + BitVec.ofInt 64 ((i : Int) * (s.getX xb).toInt)
    let block := tagIsQB t
    let S := if t = .q4 then 544 else 520
    let bb := if t = .q4 then 16 else 64
    let per := 4096 / tagWidth t
    let nb (r : Nat) : Nat := min (per / 32) ((vl - r * per + 31) / 32)
    let codesAt (r : Nat) : Word := base + BitVec.ofNat 64 (r * S)
    let scalesAt (r : Nat) : Word := base + BitVec.ofNat 64 (r * S + 512)
    let super (k : Nat) (codes scales : Nat → Nat) (u : State) : Prop := ∀ r, r < g →
      let v := u.me.vreg (d.toNat + r)
      let old := s.me.vreg (d.toNat + r)
      let n := if r < k then nb r else 0
      v.tag = t ∧ (∀ j, j < 4096 → v.data.getLsbD j = if j < n * bb * 8 then (codes r).testBit j else old.data.getLsbD j) ∧
        ∀ j, j < 256 → v.side.getLsbD j = if j < n * 8 then (scales r).testBit j else old.side.getLsbD j && (t = .q4 || j < 64)
    let others (u : State) : Prop := ∀ k, k < 64 → k < d.toNat ∨ d.toNat + g ≤ k → u.me.vreg k = s.me.vreg k
    let supers (k : Nat) (codes scales : Nat → Nat) : Prop := ∀ r, r < k → s.read ag (codesAt r) (nb r * bb) .read = .ok (codes r, s) ∧
      s.read ag (scalesAt r) (nb r) .read = .ok (scales r, s)
    s.vecReady → s.pend = [] → t ≠ .none → d.toNat % g = 0 → vl ≤ g * (4096 / tagWidth t) →
    (block = true → base.toNat % 8 = 0 →
      let regs := (vl + per - 1) / per
      (∀ codes scales, supers regs codes scales → Answers (.vld d xa 0) s fun u => VecFrame s u ∧ VecQuiet s u ∧ super regs codes scales u ∧ others u) ∧
      (∀ codes scales k kind va, s.mayTrap → k < regs → supers k codes scales →
        s.read ag (codesAt k) (nb k * bb) .read = .error (.xlate kind va) ∨
          (∃ c, s.read ag (codesAt k) (nb k * bb) .read = .ok (c, s)) ∧ s.read ag (scalesAt k) (nb k) .read = .error (.xlate kind va) →
        Answers (.vld d xa 0) s fun u => StoppedAt s (encodeLast (.vld d xa 0)) (k * per) base 0 (xlateCause kind) va u ∧ super k codes scales u ∧ others u) ∧
      (s.trapReady → (m ≠ 0 → IllegalOperand (.vld d xa m) s) ∧
        ∀ i ∈ [Instr.vlds d xa xb m, .vldff d xa m, .vldw d xa w m, .vldfe d xa m c], IllegalOperand i s)) ∧
    (block = false →
    (∀ i at_ x (k : Nat) (val : Nat → Nat), (i, at_, x) ∈ [(Instr.vld d xa m, seq, (0 : Word)), (.vlds d xa xb m, stride, s.getX xb)] ∨
        i = .vldff d xa m ∧ at_ = seq ∧ x = 0 ∧ (∀ j, on j → k ≤ j) →
      s.mayTrap → on k → (∀ j, on j → j < k → s.read ag (at_ j) n .read = .ok (val j, s)) →
      let stopped (cause tval : Word) : Prop := Answers i s fun u => StoppedAt s (encodeLast i) k base x cause tval u ∧
        VecPuts s d g t (fun j => if j < k ∧ s.me.maskBit m j = true then some (val j) else none) u
      (∀ kind va, s.read ag (at_ k) n .read = .error (.xlate kind va) → stopped (xlateCause kind) va) ∧
      (∀ va, s.read ag (at_ k) n .read = .error (.memerr va) → stopped (BitVec.ofNat 64 causeMemerr) va)) ∧
    (∀ val, reads seq val →
      Answers (.vld d xa m) s (loaded d val) ∧ Answers (.vldff d xa m) s (loaded d val) ∧
      (base.toNat % n = 0 → s.mayConsume s.cur w = true → (∀ i, on i → (s.getX (xa + 1)).toNat + i < (s.wm w).mark) →
        Answers (.vldw d xa w m) s (loaded d val))) ∧
    (∀ val, reads stride val → Answers (.vlds d xa xb m) s (loaded d val)) ∧
    (tagIsInt ti = true → s.me.holds b g ti → tagWidth ti = tagWidth t →
      let idx (i : Nat) : Int := (if tagIsS ti then (s.me.lane b (tagWidth ti) i).toInt else (s.me.lane b (tagWidth ti) i).toNat) * (if o then 1 else n)
      let win (i : Nat) : Prop := 0 ≤ idx i ∧ idx i + n ≤ (s.getX (xa + 1)).toNat * (if o then 1 else n)
      (∀ val, reads (fun i => base + BitVec.ofInt 64 (idx i)) val → Answers (.vldx d xa b m o) s (loaded d val)) ∧
      (∀ val, (∀ i, on i → win i → s.read ag (base + BitVec.ofInt 64 (idx i)) n .read = .ok (val i, s)) → (∀ i, on i → ¬ win i → val i = 0) →
        Answers (.vgwin d xa b m o) s (loaded d val))) ∧
    (∀ val : Nat → Nat → Nat, d.toNat + (nf.toNat + 1) * g ≤ 64 → tagIsInt t = true ∨ tagIsF t = true →
      (∀ f, f ≤ nf.toNat → s.me.holds (d + BitVec.ofNat 6 (f * g)) g t) →
      (∀ i, on i → ∀ f, f ≤ nf.toNat → s.read ag (base + BitVec.ofNat 64 ((i * (nf.toNat + 1) + f) * n)) n .read = .ok (val f i, s)) →
      Answers (.vldseg d xa m nf) s fun u => VecFrame s u ∧ VecQuiet s u ∧ ∀ f, f ≤ nf.toNat → ∀ i, i < g * (4096 / tagWidth t) →
        u.me.elem (d.toNat + f * g) (tagWidth t) i =
          if i < vl ∧ s.me.maskBit m i = true then val f i % 2 ^ tagWidth t else s.me.elem (d.toNat + f * g) (tagWidth t) i) ∧
    (∀ (k : Nat) (val : Nat → Nat) va kind, on k → (∃ i, i < k ∧ on i) → (∀ i, on i → i < k → s.read ag (seq i) n .read = .ok (val i, s)) →
      s.read ag (seq k) n .read = .error (.xlate kind va) →
      Answers (.vldff d xa m) s fun u => (∀ i, u.me.maskBit m i = if m = 0 then true else s.me.maskBit m i && (decide (i < k) || decide (vl ≤ i))) ∧
        (∀ i, on i → i < k → u.me.elem d.toNat (tagWidth t) i = val i % 2 ^ tagWidth t) ∧ GoesOn u s.pc4 ∧ u.me.vq = []) ∧
    (∀ (val : Nat → List Byte) (ps : Nat → List Place), base.toNat % n = 0 → base.toNat + vl * n < 2 ^ 64 →
      (∀ i j p q, on i → on j → p ∈ ps i → q ∈ ps j → p.pa / 16 = q.pa / 16 → (seq i).toNat / 16 = (seq j).toNat / 16) →
      (∀ i, on i → s.places ag .read true n (seq i).toNat none = .ok (ps i) ∧ (∀ p ∈ ps i, p.kind = .spad ∧ s.feGet p = true) ∧
        s.readPlaces (seq i).toNat (ps i) = .ok (val i)) →
      Answers (.vldfe d xa m c) s fun u =>
        (∀ i, i < g * (4096 / tagWidth t) → u.me.elem d.toNat (tagWidth t) i =
          if i < vl ∧ s.me.maskBit m i = true then leNat (val i) % 2 ^ tagWidth t else s.me.elem d.toNat (tagWidth t) i) ∧
        (c = true → ∀ i, on i → ∀ p ∈ ps i, u.feGet p = false) ∧
        VecFrame s { u with full := s.full } ∧ (c = false → u.full = s.full)))

/-- O38. Where every active element can be written, a vector store leaves memory as its active elements written one after the other, ascending, leave it: VST at Xa + i × S, VSTS at Xa + i × Xb, VSTX and VSTXO at the scaled or byte index, VSTX where no two elements meet, VSTSEG the fields of record i; VSTFE also makes the granules written FULL, VSTWM publishes its range, or tracks it where it begins above MARK. VST and VSTS, stopped by a translation fault at element k, have performed the active elements below k and trap at their queue position. VST of Q4 and B16 writes superblocks, the elements at or above VL as zero; the other stores take the illegal-operand trap on these tags. Nothing else changes but the pc and the next queue position. What the spec leaves open or to inference here is the model’s, as in log 5, log 6. (from 15 R220, 15 R222, 15 R223, 15 R225, 15 R226, 15 R231, 15 R233, 07 R101, 15 Table 15-1, 17 R252, 17 R257) -/
def Obligations.VectorStores : Prop :=
  ∀ (s : State) (d b : VReg) (xa xb : XReg) (m : MReg) (o : Bool) (nf : BitVec 3) (w : WReg) (ti : Tag),
    let t := s.me.tag
    let g := s.vgroup
    let n := tagBytes t
    let vl := s.me.vl
    let base := s.getX xa
    let ag := s.vecAgent s.me.qnext
    let act := (List.range vl).filter fun i => s.me.maskBit m i
    let x (f i : Nat) : Nat := s.me.elem (d.toNat + f * g) (tagWidth t) i
    let store (at_ : Nat → Word) (val : Nat → Nat) (l : List Nat) : Except MemErr State :=
      l.foldlM (fun u i => u.write ag (at_ i) n (val i) .write) s
    let seq (i : Nat) : Word := base + BitVec.ofNat 64 (i * n)
    let lands (at_ : Nat → Word) (k : Nat) : Prop := ∀ i ∈ act, ∃ ps, s.places ag .write false k (at_ i).toNat none = .ok ps
    let stride (i : Nat) : Word := base + BitVec.ofInt 64 ((i : Int) * (s.getX xb).toInt)
    let block := tagIsQB t
    let S := if t = .q4 then 544 else 520
    let bb := if t = .q4 then 16 else 64
    let per := 4096 / tagWidth t
    let nb (r : Nat) : Nat := min (per / 32) ((vl - r * per + 31) / 32)
    let codesAt (r : Nat) : Word := base + BitVec.ofNat 64 (r * S)
    let scalesAt (r : Nat) : Word := base + BitVec.ofNat 64 (r * S + 512)
    let wrote (s2 t : State) : Prop := t.mem = s2.mem ∧ t.full = s2.full ∧ t.zsClear = s2.zsClear ∧ t.poison = s2.poison ∧ t.pend = s2.pend ∧ t.me.v = s.me.v
    s.vecReady → s.pend = [] → t ≠ .none → s.me.holds d g t → vl ≤ g * (4096 / tagWidth t) →
    (block = true → base.toNat % 8 = 0 →
      (∀ f : Nat → State, f 0 = s →
        (∀ r, r < (vl + per - 1) / per →
          let v := s.me.vreg (d.toNat + r)
          (∃ ps, (f r).places ag .write false (nb r * bb) (codesAt r).toNat none = .ok ps) ∧ (∃ ps, (f r).places ag .write false (nb r) (scalesAt r).toNat none = .ok ps) ∧
          ∃ u, (f r).write ag (codesAt r) (nb r * bb) (v.data.toNat % 2 ^ ((vl - r * per) * tagWidth t)) .write = .ok u ∧
            u.write ag (scalesAt r) (nb r) v.side.toNat .write = .ok (f (r + 1))) →
        Answers (.vst d xa 0) s (VecStored s (f ((vl + per - 1) / per)))) ∧
      (s.trapReady → (m ≠ 0 → IllegalOperand (.vst d xa m) s) ∧
        ∀ i ∈ [Instr.vsts d xa xb m, .vstfe d xa m, .vstwm d xa w m], IllegalOperand i s)) ∧
    (block = false →
    (∀ i at_ y k kind va s2, (i, at_, y) ∈ [(Instr.vst d xa m, seq, (0 : Word)), (.vsts d xa xb m, stride, s.getX xb)] → s.mayTrap → k ∈ act →
      (∀ j ∈ act, j < k → ∃ ps, s.places ag .write false n (at_ j).toNat none = .ok ps) →
      s.places ag .write false n (at_ k).toNat none = .error (.xlate kind va) → store at_ (x 0) (act.filter (· < k)) = .ok s2 →
      Answers i s fun u => wrote s2 u ∧ StoppedAt s (encodeLast i) k base y (xlateCause kind) va
        { u with mem := s.mem, wrote := s.wrote, full := s.full, zsClear := s.zsClear, poison := s.poison, pend := s.pend }) ∧
    (∀ s2, lands seq n → store seq (x 0) act = .ok s2 →
      Answers (.vst d xa m) s (VecStored s s2) ∧
      (s.mayPublish s.cur w = true → (s.wm w).mark < 2 ^ 48 →
        let lo := (s.getX (xa + 1)).toNat
        lo ≤ (s.wm w).mark ∨ (s.wm w).ranges.length < 16 →
        Answers (.vstwm d xa w m) s fun u => VecStored s s2 { u with wms := s.wms } ∧ (∀ v, v ≠ w → u.wm v = s.wm v) ∧
          (u.wm w).gen = (s.wm w).gen ∧ (s.wm w).mark ≤ (u.wm w).mark ∧ (lo + vl ≤ (s.wm w).mark → u.wm w = s.wm w) ∧
          ((s.wm w).mark < lo → 0 < vl → (u.wm w).mark = (s.wm w).mark ∧ ∀ r, r ∈ (u.wm w).ranges ↔ r = (lo, lo + vl) ∨ r ∈ (s.wm w).ranges) ∧
          (lo ≤ (s.wm w).mark → (s.wm w).ranges = [] → (u.wm w).mark = max (s.wm w).mark (min (lo + vl) (2 ^ 48 - 1))))) ∧
    (∀ s2, lands stride n → store stride (x 0) act = .ok s2 → Answers (.vsts d xa xb m) s (VecStored s s2)) ∧
    (tagIsInt ti = true → s.me.holds b g ti → tagWidth ti = tagWidth t →
      let idx (i : Nat) : Int := (if tagIsS ti then (s.me.lane b (tagWidth ti) i).toInt else (s.me.lane b (tagWidth ti) i).toNat) * (if o then 1 else n)
      let at_ (i : Nat) : Word := base + BitVec.ofInt 64 (idx i)
      ∀ s2, lands at_ n → store at_ (x 0) act = .ok s2 → Answers (.vstxo d xa b m o) s (VecStored s s2) ∧
        ((∀ i ∈ act, ∀ j ∈ act, i ≠ j → groupsMeet (at_ i).toNat n (at_ j).toNat n = false) → Answers (.vstx d xa b m o) s (VecStored s s2))) ∧
    (d.toNat + (nf.toNat + 1) * g ≤ 64 → (∀ f, f ≤ nf.toNat → s.me.holds (d + BitVec.ofNat 6 (f * g)) g t) →
      lands (fun i => base + BitVec.ofNat 64 (i * (nf.toNat + 1) * n)) ((nf.toNat + 1) * n) → ∀ s2,
      store (fun j => base + BitVec.ofNat 64 (j * n)) (fun j => x (j % (nf.toNat + 1)) (j / (nf.toNat + 1)))
        (act.flatMap fun i => (List.range (nf.toNat + 1)).map fun f => i * (nf.toNat + 1) + f) = .ok s2 →
      Answers (.vstseg d xa m nf) s (VecStored s s2)) ∧
    (∀ s2 (ps : Nat → List Place), base.toNat % n = 0 → base.toNat + vl * n < 2 ^ 64 → store seq (x 0) act = .ok s2 → 
      (∀ i ∈ act, s.places ag .write true n (seq i).toNat none = .ok (ps i) ∧ ∀ p ∈ ps i, p.kind = .spad) →
      (∀ k i u, act[k]? = some i → store seq (x 0) (act.take (k + 1)) = .ok u → u.places ag .write true n (seq i).toNat none = .ok (ps i)) →
      Answers (.vstfe d xa m) s fun u => VecStored s { s2 with full := u.full } u ∧ (∀ i ∈ act, ∀ p ∈ ps i, u.feGet p = true) ∧
        ∀ q : Place, q.kind = .spad → (∀ i ∈ act, ∀ p ∈ ps i, p.pa / 16 ≠ q.pa / 16) → u.feGet q = s.feGet q))

/-- O39. UPD and UPDA take the next sequence number on the counter of the stream word and emit one pair (physical address, value) for each active element; UFLUSH takes one and covers the plane’s own older updates, those that a trap has stopped with pairs emitted among them. PRESS_ACCEPT moves a pair to its key; UPD_COMPLETE counts the operation once no pair is left; UFLUSH_COMPLETE applies the region’s pairs and counts it once the covered updates are accepted; EAGER_APPLY applies a block of an EAGER region, and either writes the combinations to their locations and no other byte. A lone key of an integer ADD region becomes the wrapped sum. What the spec leaves open or to inference here is the model’s, as in log 23, log 26. (from 23 R339, 23 R340, 23 R341, 23 R342, 23 R344, 07 R99, 07 R103) -/
def Obligations.PressUpdates : Prop :=
  (∀ (s : State) (d : XReg) (a b : VReg) (m : MReg) (ti t : Tag),
    let x := s.getX d
    let n := streamCounter x
    let reg := x.toNat % 256
    let idx (i : Nat) : Int := s.me.index a ti i
    let val (i : Nat) : Nat := s.me.elem b.toNat (tagWidth t) i
    let issues (k : OpKind) (u : State) : Prop := ∃ s1, OpIssued s n k s1 ∧ VecNothing s1 u
    let goes (at_ pa : Nat) : Prop := ∃ f, s.frameOf (s.vecAgent s.me.qnext) at_ .write false = .ok f ∧ (f.place at_).pa = pa
    s.vecReady → x.toNat < 4096 → s.hasIssue n →
    (∀ (g : Region) (pa : Nat → Nat), s.region? s.cur reg = some g → g.tag = t → t ≠ .none → tagIsInt ti = true → s.pairHeld a b ti t →
      (∀ i ∈ s.activeOn m, 0 ≤ idx i ∧ idx i < g.len ∧ goes (g.base + (idx i).toNat * tagBytes t) (pa i)) →
      Answers (.upd d a b m) s (issues (.upd (some reg) ((s.activeOn m).map fun i => ⟨reg, pa i, val i, s.me.waited.toList⟩) true))) ∧
    (∀ (r pa : Nat → Nat), reg = 0 → t ≠ .none → (ti = .s64 ∨ ti = .z64) → s.pairHeld a b ti t →
      (∀ i ∈ s.activeOn m, ∃ g, s.regionHolding (s.rootOfPlane s.cur) (s.me.elem a.toNat 64 i) = some (r i, g) ∧ g.tag = t ∧
        s.me.elem a.toNat 64 i % tagBytes t = 0 ∧ goes (s.me.elem a.toNat 64 i) (pa i)) →
      Answers (.upda d a b m) s (issues (.upd none ((s.activeOn m).map fun i => ⟨r i, pa i, val i, s.me.waited.toList⟩) true))) ∧
    (∀ g, s.region? s.cur reg = some g →
      Answers (.uflush d) s (issues (.uflush reg true (s.ops.filterMap fun o =>
        match o.kind with
        | .upd _ ps done => if o.plane = s.cur ∧ (done = true ∨ ps ≠ []) then some (o.n, o.seq) else none
        | _ => none))))) ∧
  (∀ (s : State) (p : PlaneId) (n : TReg) (seq k : Nat) (r : Option Nat) (ps : List Pair) (dn : Bool) (x : Pair),
    let key (y : PendKey) : Prop := y.reg = x.reg ∧ y.pa = x.pa
    s.op? p n seq = some ⟨p, n, seq, .upd r ps dn⟩ →
    (ps[k]? = some x → s.leesUsed (stackOf (x.pa % pkgSpan)) < s.leeSize →
      (s.pend.filter fun y => y.reg = x.reg ∧ y.pa / 4096 = x.pa / 4096).length < 256 →
      Answers (.pressAccept p n seq k) s fun t =>
        t.op? p n seq = some ⟨p, n, seq, .upd r (ps.eraseIdx k) dn⟩ ∧ t.otherOps p n seq = s.otherOps p n seq ∧
        { t with ops := s.ops, pend := s.pend } = s ∧ (∀ y, ¬ key y → (y ∈ t.pend ↔ y ∈ s.pend)) ∧
        ∃ y ∈ t.pend, key y ∧ y.vals.getLast? = some ⟨x.val, p, n, seq, x.waited⟩) ∧
    (ps[k]? = some x → Answers (.pressAccept p n seq k) s fun t =>
      t.op? p n seq = some ⟨p, n, seq, .upd r (ps.eraseIdx k) dn⟩ ∧ t.otherOps p n seq = s.otherOps p n seq ∧
      OnlyTouched s { t with ops := s.ops }) ∧
    (ps[k]? = none → Idle (.pressAccept p n seq k) s) ∧
    (ps = [] ∧ dn = true → Answers (.updComplete p n seq) s (OpDone s p n seq)) ∧
    (¬ (ps = [] ∧ dn = true) → Idle (.updComplete p n seq) s)) ∧
  (∀ (s : State) (p : PlaneId) (n : TReg) (seq r : Nat) (own : List (TReg × Nat)),
    let covered : Prop := ∃ x ∈ own, ∃ o, s.op? p x.1 x.2 = some o ∧ (∃ g ps done, o.kind = .upd g ps done ∧ ((done = true ∧ g = some r) ∨ ∃ y ∈ ps, y.reg = r))
    s.op? p n seq = some ⟨p, n, seq, .uflush r true own⟩ → s.MemInv →
    (covered → Idle (.uflushComplete p n seq) s) ∧
    (¬ covered → Answers (.uflushComplete p n seq) s fun t => ∃ s1, Applied s (fun k => k.reg == r) s1 ∧ OpDone s1 p n seq t ∧
      ∀ (g : Region) (pa : Nat) (vs : List PendVal), s.regions[r]? = some (some g) → g.op = 0 → tagIsInt g.tag = true →
        s.pend.filter (fun k => k.reg == r) = [⟨r, pa, vs⟩] →
        leNat (t.physBytes pa (tagBytes g.tag)) =
          (leNat (s.physBytes pa (tagBytes g.tag)) + (vs.map (·.val)).sum) % 2 ^ tagWidth g.tag ∧
        ∀ a, a < pa ∨ pa + tagBytes g.tag ≤ a → t.byte a = s.byte a)) ∧
  (∀ (s : State) (r pa : Nat) (g : Region), s.regions[r]? = some (some g) →
    (g.eager = true → Answers (.eagerApply r pa) s (Applied s fun k => k.reg == r && k.pa / 4096 == pa / 4096)) ∧
    (g.eager = false → Idle (.eagerApply r pa) s))

/-- O40. UWIN and UREGION read their descriptors: a window whose copies hold the identity, status 0, or 1 with no space; a region under the lowest free number, or 1 with none free and 2 where it overlaps. UACC combines each active element, ascending, into the copy of its lane, and traps before the element group that reads a poisoned granule of the window; UMERGE folds each element’s copies into memory and resets them; UWIN.REL discards the window. UREGION.REL applies the region’s pairs, writing their combinations and no other byte, and frees it once no update of a resident or evicted strand names it, else stalls, which REGION_RELEASE_APPLY ends. UQUERY writes Tables 23-4 and 23-5. What the spec leaves open or to inference here is the model’s, as in log 6, log 22, log 28, log 61. (from 23 R335, 23 R337, 23 R338, 23 R345, 23 R346, 23 R347, 23 R348, 27 R400, 23 Table 23-2) -/
def Obligations.WindowsAndRegions : Prop :=
  ∀ (s : State) (d xa : XReg),
    let a := s.getX xa
    let wrote (s1 : State) (v : Word) (t : State) : Prop := VecToX s1 d v t
    let released (r : Nat) (u t : State) : Prop := ∃ s1, s1.regions = u.regions.setIfInBounds r none ∧
      Applied u (fun k => k.reg == r) { s1 with regions := u.regions } ∧ VecToX s1 d 0 t
    let queryReg : Word := match s.region? s.cur (a.toNat % 256) with
      | none => 0
      | some g => BitVec.ofNat 64 (2 ^ 63 + (if g.eager then 2 ^ 62 else 0) + g.tag.code.toNat * 2 ^ 48 + g.op * 2 ^ 40 +
          min (s.pend.filter fun k => k.reg = a.toNat % 256).length (2 ^ 40 - 1))
    let queryWin : Word := match s.me.window with
      | none => 0
      | some w => BitVec.ofNat 64 (2 ^ 63 + w.logc * 2 ^ 56 + w.tag.code.toNat * 2 ^ 48 + w.op * 2 ^ 40 + w.n * 2 ^ 16 + w.oor)
    let named (s : State) (r : Nat) : Prop :=
      (∃ o ∈ s.ops, o.kind.updates r = true) ∨ ∃ y ∈ s.suspended, ∃ o ∈ y.2.ops, o.kind.updates r = true
    s.vecReady →
    (∀ v s1 t, s.read s.myAgent a 16 .read = .ok (v, s1) → OnlyTouched (s.leavePage s.myAgent a.toNat 16) s1 ∧ (a.toNat % 8 = 0 → s.me.window = none →
      let n := v / 2 ^ 64 % 2 ^ 16
      let c := v / 2 ^ 80 % 256
      let op := v / 2 ^ 96
      let size := (n * tagBytes t * 2 ^ c + 63) / 64 * 64
      v / 2 ^ 88 % 256 = t.code.toNat → 1 ≤ n → n ≤ 4096 → c ≤ 5 → op < 256 → windowPair t op = true → v % 2 ^ 64 % tagBytes t = 0 →
      (65536 < s.windowUsed (coreOf s.cur) + size → Answers (.uwin d xa) s (wrote s1 1)) ∧
      (s.windowUsed (coreOf s.cur) + size ≤ 65536 → Answers (.uwin d xa) s (wrote (s1.modMe fun p => { p with
        window := some ⟨BitVec.ofNat 64 v, n, c, t, op, List.replicate (2 ^ c) (List.replicate n (windowIdentity t op)), 0, []⟩ }) 0)))) ∧
    (s.me.window = none → Answers (.uwinRel d) s (wrote s 1)) ∧
    (∀ w, s.me.window = some w →
      Answers (.uwinRel d) s (wrote (s.modMe fun p => { p with window := none }) 0) ∧
      let md := (dynMode? s.me.rm).getD .rne
      let f (x y : Nat) : Nat := (windowOp w.tag w.op md s.me.sat x y).1
      let kept (t : State) : Prop := t.me.fcsr &&& ~~~0xFF00 = s.me.fcsr &&& ~~~0xFF00 ∧ (tagIsInt w.tag = true → t.me.fcsr = s.me.fcsr)
      ((tagFp? w.tag).isSome = true → (dynMode? s.me.rm).isSome = true) →
      (∀ (b v : VReg) (m : MReg) (ti : Tag), tagIsInt ti = true → w.tag ≠ .none → s.pairHeld b v ti w.tag →
        let copy (i : Nat) : Nat := i % (2048 / tagWidth w.tag) * tagWidth w.tag / 64 % 2 ^ w.logc
        let out (i : Nat) : Bool := s.me.index b ti i < 0 || (w.n : Int) ≤ s.me.index b ti i
        let rest (t : State) : State := { t with planes := t.planes.set s.cur { t.me with window := s.me.window } }
        let added (act : List Nat) (t : State) : Prop := kept t ∧ t.me.v = s.me.v ∧
          ∃ w2, t.me.window = some w2 ∧ { w2 with copies := w.copies, oor := w.oor } = w ∧
            (w.oor ≤ 0xFFFF → w2.oor = min (w.oor + (act.filter out).length) 0xFFFF) ∧
            ∀ c k x, c < 2 ^ w.logc → k < w.n → (w.copies[c]?).bind (·[k]?) = some x → (w2.copies[c]?).bind (·[k]?) = some
              ((act.filter fun i => copy i = c ∧ s.me.index b ti i = k).foldl (fun y i => f y (s.me.elem v.toNat (tagWidth w.tag) i)) x)
        let poisoned (i : Nat) : Prop := out i = false ∧ (copy i * w.n + (s.me.index b ti i).toNat) * tagBytes w.tag / 16 ∈ w.bad
        ((∀ i ∈ s.activeOn m, ¬ poisoned i) → Answers (.uacc b v m) s fun t => VecFrame s (rest t) ∧ added (s.activeOn m) t) ∧
        (∀ i ∈ s.activeOn m, poisoned i → (∀ j ∈ s.activeOn m, j < i → ¬ poisoned j) → s.mayTrap →
          let group := i / (2048 / max (tagWidth ti) (tagWidth w.tag))
          Answers (.uacc b v m) s fun t => added ((s.activeOn m).filter fun j => decide (j / (2048 / max (tagWidth ti) (tagWidth w.tag)) < group)) t ∧
            ∃ e, QueueTrapped s (BitVec.ofNat 64 causeMemerr) s.pc4 (w.base + BitVec.ofNat 64 ((s.me.index b ti i).toNat * tagBytes w.tag)) [e] (rest t) ∧
              e.w = encodeLast (.uacc b v m) ∧ e.prog = group ∧ e.qpos = s.me.qnext)) ∧
      (∀ s2 (acc : Nat → Nat), w.bad = [] → w.copies.length = 2 ^ w.logc → (∀ y ∈ w.copies, y.length = w.n) →
        (∀ k, k < w.n → ∃ l, w.copies.map (fun y => (y[k]?).getD 0) = l ∧ acc k = l.tail.foldl f (l.headD 0)) →
        (List.range w.n).foldlM (fun (u : State) k => match u.read (u.vecAgent s.me.qnext) (w.base + BitVec.ofNat 64 (k * tagBytes w.tag)) (tagBytes w.tag) .read with
          | .ok (old, u) => u.write (u.vecAgent s.me.qnext) (w.base + BitVec.ofNat 64 (k * tagBytes w.tag)) (tagBytes w.tag) (f old (acc k)) .write
          | .error e => .error e) s = .ok s2 →
        Answers .umerge s fun t => kept t ∧ t.mem = s2.mem ∧ t.zsClear = s2.zsClear ∧ t.pend = s2.pend ∧ t.poison = s2.poison ∧
          OnlyStored s { t with planes := s.planes } ∧ (∀ p, p ≠ s.cur → t.plane p = s.plane p) ∧
          t.me.window = some { w with copies := List.replicate (2 ^ w.logc) (List.replicate w.n (windowIdentity w.tag w.op)) } ∧
          GoesOn t s.pc4 ∧ t.me.qnext = s.me.qnext + 1 ∧ t.me.v = s.me.v ∧ t.me.x = s.me.x)) ∧
    (∀ v s1 t fs, s.read s.myAgent a 32 .read = .ok (v, s1) → OnlyTouched (s.leavePage s.myAgent a.toNat 32) s1 ∧ (a.toNat % 8 = 0 → v / 2 ^ 128 % 256 = t.code.toNat →
      let base := v % 2 ^ 64
      let len := v / 2 ^ 64 % 2 ^ 64
      let op := v / 2 ^ 136 % 256
      let g : Region := ⟨s.me.coh, s.rootOfPlane s.cur, base, len, t, op, v / 2 ^ 144 = 1, fs⟩
      base % 64 = 0 → base < 2 ^ 57 → 1 ≤ len → len ≤ 2 ^ 34 → regionPair t op = true → v / 2 ^ 144 < 2 →
      fs.length = (base % 65536 + len * tagBytes t + 65535) / 65536 →
      (∀ j pf, fs[j]? = some pf → ∃ f, s1.frameOf s.myAgent (if j = 0 then base else (base / 65536 + j) * 65536) .rmw false = .ok f ∧
        f.base = pf ∧ pf / pkgSpan = s.pkg ∧ areaOf (pf % pkgSpan) = .hbm ∧ s1.formOf pf = 0) →
      let meets : Prop := ∃ h, some h ∈ s.regions.toList ∧ g.overlaps h = true
      (meets → Answers (.uregion d xa) s (wrote s1 2)) ∧
      (¬ meets → (∀ k : Nat, s.regions[k]? ≠ some none) → Answers (.uregion d xa) s (wrote s1 1)) ∧
      (¬ meets → ∀ k : Nat, s.regions[k]? = some none → (∀ j : Nat, j < k → s.regions[j]? ≠ some none) →
        Answers (.uregion d xa) s (wrote { s1 with regions := s.regions.setIfInBounds k (some g) } (BitVec.ofNat 64 (256 * k)))))) ∧
    (a.toNat < 256 →
      (s.region? s.cur a.toNat = none → Answers (.uregionRel d xa) s (wrote s 3)) ∧
      (∀ g, s.region? s.cur a.toNat = some g → ¬ named s a.toNat → Answers (.uregionRel d xa) s (released a.toNat s)) ∧
      (∀ g, s.region? s.cur a.toNat = some g → named s a.toNat →
        Answers (.uregionRel d xa) s (Stalls s (.regrel d a.toNat)))) ∧
    (∀ p g r, s.waitOf p = some (.regrel d r) → s.region? p r = some g → ¬ named { s with cur := p } r →
      AnswersFor (.regionReleaseApply p) s p (released r)) ∧
    (a.toNat < 512 → Answers (.uquery d xa) s (wrote s (if a.getLsbD 8 then queryWin else queryReg)))

/-- O41. GCSLEEP completes at once where some active location differs from its comparison value, with exactly those mask bits, and sleeps at the head of the queue where none does; a line noted as written brings about an evaluation where it is watched, and GCSLEEP_WAKE completes it with the mask bits of the evaluation that found one to differ. VDRAIN goes on with an empty queue and waits otherwise. While the vector unit lags an instruction is only queued; in the plane’s slot VECTOR_EXECUTE performs it, or traps at its position, with it and the younger ones as resume entries, and VLDW_RELEASE, CONSUMING_LOAD_WAKE and VSTWM_COMPLETE perform a VLDW below MARK, a VLDFE of FULL granules and a VSTWM. What the spec leaves open or to inference here is the model’s, as in log 5, log 29. (from 13 R183, 13 R192, 15 R228, 15 R231, 15 R232, 15 R234, 15 R235, 17 R252, 05 R59, 05 R69, 07 R87) -/
def Obligations.VectorQueueWaits : Prop :=
  ∀ (s : State) (d a b : VReg) (md m : MReg) (xa : XReg) (wm : WReg) (t ti : Tag),
    let g := s.vgroup
    let n := tagBytes t
    let w := tagWidth t
    let entry (i : Instr) : VEntry := { s.entryOf (encodeLast i) none with qpos := s.me.qnext - 1 }
    let queued (i : Instr) : Prop := s.me.vq = [entry i] ∧ (s.me.en = 0 ∧ ∀ k : Nat, (s.me.streams[k]?).join = none) ∧ s.me.gcs = false
    let unit_ (t : State) : Prop := t.me.vq = [] ∧ t.me.pc = s.me.pc ∧ t.me.qnext = s.me.qnext ∧ t.me.x = s.me.x ∧ t.me.m = s.me.m
    let seq (i : Nat) : Word := s.getX xa + BitVec.ofNat 64 (i * n)
    let old := s.vecAgent (s.me.qnext - 1)
    let differs (val : Nat → Nat) (i : Nat) : Prop := i ∈ s.activeOn m ∧ val i ≠ s.me.elem b.toNat (tagWidth ti) i
    let gcs (ag : Agent) (val : Nat → Nat) : Prop := (t = .s64 ∨ t = .z64) ∧ tagIsInt ti = true ∧ 32 ≤ tagWidth ti ∧
      s.me.holds a g t ∧ s.me.holds b (groupSize g (tagWidth ti) 64) ti ∧ s.me.vl ≤ g * 64 ∧ (s.activeOn m).length ≤ 64 ∧
      ∀ i ∈ s.activeOn m, s.me.elem a.toNat 64 i % tagBytes ti = 0 ∧
        s.read ag (BitVec.ofNat 64 (s.me.elem a.toNat 64 i)) (tagBytes ti) .read = .ok (val i, s)
    let bits (val : Nat → Nat) (t : State) : Prop := (∀ r i, r ≠ md → t.me.maskBit r i = s.me.maskBit r i) ∧
      ∀ i, i < 8192 → md ≠ 0 → (t.me.maskBit md i = true ↔ differs val i ∨ (s.me.vl ≤ i ∧ s.me.maskBit md i = true))
    (s.me.vq = [] → Answers .vdrain s fun t => ∃ s1, OnlyMe s s1 ∧ { s1.me with qnext := s.me.qnext } = s.me ∧
      s1.me.qnext = s.me.qnext + 1 ∧ OnlyPc s1 s.pc4 t) ∧
    (s.me.vq ≠ [] → Idle .vdrain s) ∧
    (∀ val, s.vecReady → s.me.gcs = false → s.me.gcsSeen = none → gcs (s.vecAgent s.me.qnext) val →
      ((∃ i, differs val i) → Answers (.gcsleep md a b m) s fun t => GoesOn t s.pc4 ∧ t.me.qnext = s.me.qnext + 1 ∧ t.me.vq = [] ∧ bits val t ∧
        t.me.held = s.me.heldBut s.me.qnext ∧ OnlyMe s t ∧ SameButPc s.me { t.me with m := s.me.m, qnext := s.me.qnext, held := s.me.held }) ∧
      ((¬ ∃ i, differs val i) → Answers (.gcsleep md a b m) s fun t => t.me.st = .asleep ∧ t.me.gcs = true ∧ t.me.pc = s.pc4 ∧
        t.me.vq = [s.entryOf (encodeLast (.gcsleep md a b m)) none] ∧ t.watching = SortedPlanes.insert s.watching s.cur ∧
        OnlyMe s { t with watching := s.watching } ∧ t.me.m = s.me.m)) ∧
    (s.me.gcsSeen = none → Idle (.gcsleepWake s.cur) s) ∧
    (∀ val e, e = entry (.gcsleep md a b m) → s.me.vq = [e] → s.me.gcs = true → s.me.wait = none → s.me.en = 0 →
      (∀ k : Nat, (s.me.streams[k]?).join = none) → gcs old val →
      (∀ on, s.me.gcsSeen = some on → s.holdsSlot s.cur = true → s.me.st = .asleep ∨ s.me.st = .runnable →
        Answers (.gcsleepWake s.cur) s fun t => t.me.st = .runnable ∧ t.me.gcs = false ∧ t.me.gcsSeen = none ∧ t.me.vq = [] ∧
          (∀ r i, r ≠ md → t.me.maskBit r i = s.me.maskBit r i) ∧
          (∀ i, i < 8192 → md ≠ 0 → t.me.maskBit md i = if i < s.me.vl then on.getLsbD i else s.me.maskBit md i) ∧
          t.me.pc = s.me.pc ∧ OnlyMe s t) ∧
      (s.me.gcsSeen = none → s.watching = [s.cur] →
        let written : Prop := ∃ i ∈ s.activeOn m, ∃ pl, s.places old .read false 1 (s.me.elem a.toNat 64 i) none = .ok [pl] ∧ pl.pa / 64 ∈ s.wrote
        let looked : State := { s with wrote := [] }
        (written → (∃ i, differs val i) → ∃ on : BitVec 8192, (∀ i, on.getLsbD i = true ↔ differs val i) ∧
          s.watch = looked.modMe fun p => { p with gcsSeen := some on }) ∧
        (¬ (written ∧ ∃ i, differs val i) → s.watch = looked))) ∧
    (∀ rest (k : Nat) (val : Nat → Nat) kind va, s.me.vq = entry (.vld d xa m) :: rest → rest.length < 64 → s.mayTrap → s.me.en = 0 → (∀ j : Nat, (s.me.streams[j]?).join = none) →
      s.me.gcs = false → s.me.wait = none → s.holdsSlot s.cur = true → s.me.st ≠ .free → s.pend = [] → t = s.me.tag → t ≠ .none → tagIsQB t = false →
      d.toNat % g = 0 → s.me.vl ≤ g * (4096 / w) → k ∈ s.activeOn m → (∀ j ∈ s.activeOn m, j < k → s.read old (seq j) n .read = .ok (val j, s)) →
      s.read old (seq k) n .read = .error (.xlate kind va) →
      Answers (.vectorExecute s.cur 0) s fun t' => ∃ e, QueueTrapped s (xlateCause kind) s.me.pc va (e :: rest) t' ∧
        e.w = encodeLast (.vld d xa m) ∧ e.prog = k ∧ e.qpos = s.me.qnext - 1 ∧ t'.me.qnext = s.me.qnext ∧
        VecPuts s d g t (fun j => if j < k ∧ s.me.maskBit m j = true then some (val j) else none) t') ∧
    (tagIsInt t = true → s.me.holds a g t → s.me.holds b g t → d.toNat % g = 0 → s.me.vl ≤ g * (4096 / w) →
      let sums (t' : State) : Prop := ∀ i, i < g * (4096 / w) → t'.me.elem d.toNat w i =
        if i < s.me.vl ∧ s.me.maskBit m i = true then (s.me.elem a.toNat w i + s.me.elem b.toNat w i) % 2 ^ w else s.me.elem d.toNat w i
      (s.vlag = true → s.me.vq = [] → (∀ k : Nat, (s.me.streams[k]?).join = none) → Answers (.vadd d a b m) s fun t' => GoesOn t' s.pc4 ∧
        OnlyMe s t' ∧ t'.me.vq = [s.entryOf (encodeLast (.vadd d a b m)) none] ∧ t'.me.v = s.me.v ∧ t'.me.qnext = s.me.qnext + 1) ∧
      (queued (.vadd d a b m) → s.holdsSlot s.cur = true → s.me.st ≠ .free →
        Answers (.vectorExecute s.cur 0) s fun t' => unit_ t' ∧ OnlyMe s { t' with free := s.free } ∧ sums t')) ∧
    (s.pend = [] → t = s.me.tag → t ≠ .none → tagIsQB t = false → s.me.vl ≤ g * (4096 / w) → s.holdsSlot s.cur = true → s.me.st ≠ .free →
      (s.getX xa).toNat % n = 0 → (s.getX xa).toNat + s.me.vl * n < 2 ^ 64 →
      (∀ val : Nat → Nat, d.toNat % g = 0 → (∀ i ∈ s.activeOn m, s.read old (seq i) n .read = .ok (val i, s)) →
        let loaded (t' : State) : Prop := unit_ t' ∧ OnlyMe s { t' with free := s.free } ∧ ∀ i, i < g * (4096 / w) →
          t'.me.elem d.toNat w i = if i < s.me.vl ∧ s.me.maskBit m i = true then val i % 2 ^ w else s.me.elem d.toNat w i
        (queued (.vldw d xa wm m) → s.mayConsume s.cur wm = true →
          (∀ i ∈ s.activeOn m, (s.getX (xa + 1)).toNat + i < (s.wm wm).mark) → Answers (.vldwRelease s.cur) s loaded) ∧
        (∀ ps : Nat → List Place, queued (.vldfe d xa m false) → (∀ i ∈ s.activeOn m,
          s.places old .read true n (seq i).toNat none = .ok (ps i) ∧
          (∀ p ∈ ps i, p.kind = .spad ∧ s.feGet p = true) ∧ ∃ bs, s.readPlaces (seq i).toNat (ps i) = .ok bs ∧ val i = leNat bs) →
          Answers (.consumingLoadWake s.cur) s loaded)) ∧
      (∀ s2, s.me.holds d g t → queued (.vstwm d xa wm m) → s.mayPublish s.cur wm = true → (s.wm wm).mark < 2 ^ 48 →
        (s.getX (xa + 1)).toNat ≤ (s.wm wm).mark → (s.wm wm).ranges = [] →
        (∀ i ∈ s.activeOn m, ∃ ps, s.places old .write false n (seq i).toNat none = .ok ps) →
        (s.activeOn m).foldlM (fun u i => u.write old (seq i) n (s.me.elem d.toNat w i) .write) s = .ok s2 →
        Answers (.vstwmComplete s.cur) s fun t' => unit_ t' ∧ t'.mem = s2.mem ∧ t'.me.v = s.me.v ∧
          (t'.wm wm).mark = max (s.wm wm).mark (min ((s.getX (xa + 1)).toNat + s.me.vl) (2 ^ 48 - 1))))

/-- O42. Within their limits and with every page readable or writable, XCOPY, XCOPYT, XFILL, XDECODE, XEXPORT and XHOST issue one operation on the named counter, holding the translations they walked, and change nothing else. COPY_COMPLETE performs it and counts it: the destination bytes are the source’s, the transposed cells, the pattern, the decoded tensor with its status word, or the prefixed export; XHOST moves bytes to or from host memory; every scratchpad granule written becomes FULL; no other byte changes; a destination byte that is a byte of the source extent under another address is left open. What the spec leaves open or to inference here is the model’s, as in log 12, log 30, log 59, log 68, log 73, log 74. (from 15 R236, 15 R237, 15 R238, 15 R239, 15 R240, 15 R241, 15 R242, 15 R243, 15 R244, 15 R245, 07 R88) -/
def Obligations.CopyEngines : Prop :=
  (∀ (s : State) (d a b : XReg) (n : TReg),
    let dst := (s.getX d).toNat
    let src := (s.getX a).toNat
    let third := (s.getX b).toNat
    let apart (x k y l : Nat) : Prop := k = 0 ∨ l = 0 ∨ x + k ≤ y ∨ y + l ≤ x
    let walks (x k y l : Nat) (xs ys : List XFrame) : Prop :=
      s.walkRange s.myAgent .read x k = .ok xs ∧ s.walkRange s.myAgent .write y l = .ok ys
    let issues (job : CopyJob) (xl : List XFrame) (t : State) : Prop := OnlyIssues s n (.copy job xl) t
    s.hasIssue n → s.releaseReady = true → (s.ops.filter fun o => o.plane = s.cur ∧ o.kind.isCopy = true).length < 16 →
    (third ≤ 2 ^ 40 → apart dst third src third → ∀ xs ys, walks src third dst third xs ys →
      Answers (.xcopy d a b n) s (issues (.copy dst src third) (xs ++ ys))) ∧
    (third ≤ 2 ^ 40 → ∀ ys, s.walkRange s.myAgent .write dst third = .ok ys →
      Answers (.xfill d a b n) s (issues (.fill dst (s.getX a) third) ys)) ∧
    (∀ (z : Size) (v : Nat), third % 8 = 0 → s.noConflict (s.getX b) 32 .read → s.read s.myAgent (s.getX b) 32 .read = .ok (v, s) →
      let e := sizeBytes z
      let rows := v % 2 ^ 32
      let cols := v / 2 ^ 32 % 2 ^ 32
      let ss := v / 2 ^ 64 % 2 ^ 64
      let ds := v / 2 ^ 128
      let se := (rows - 1) * ss + cols * e
      let de := (cols - 1) * ds + rows * e
      1 ≤ rows → rows ≤ 65536 → 1 ≤ cols → cols ≤ 65536 → cols * e ≤ ss → rows * e ≤ ds → ds < 2 ^ 64 → ss % e = 0 → ds % e = 0 →
      dst % e = 0 → src % e = 0 → se ≤ 2 ^ 40 → de ≤ 2 ^ 40 → apart dst de src se → ∀ xs ys, walks src se dst de xs ys →
      Answers (.xcopyt d a b z n) s (issues (.transpose dst src e rows cols ss ds) (xs ++ ys))) ∧
    (∀ v fv t, src % 64 = 0 → s.noConflict (s.getX a) 64 .read → s.noConflict (s.getX a + BitVec.ofNat 64 t.freqoff) 512 .read → s.read s.myAgent (s.getX a) 64 .read = .ok (v, s) → tensorOf (leBytes 64 v) = some t → t.extent ≤ 2 ^ 40 →
      s.read s.myAgent (s.getX a + BitVec.ofNat 64 t.freqoff) 512 .read = .ok (fv, s) →
      let freq := unitsOf 2 256 (leBytes 512 fv)
      freq.sum = 2 ^ t.n →
      (∀ xs ys zs, third % 8 = 0 → apart dst t.raw src t.extent → walks src t.extent dst t.raw xs ys →
        s.walkRange s.myAgent .write third 8 = .ok zs → s.formsIn (xs ++ ys ++ zs) src t.extent [1] = true →
        s.formsIn (xs ++ ys ++ zs) dst t.raw [0, 2] = true →
        Answers (.xdecode d a b n) s (issues (.decode dst src third t.n t.raw t.extent t.dataoff t.datalen t.crc t.check freq) (xs ++ ys ++ zs))) ∧
      (∀ xs ys, t.extent + 32 ≤ third → t.extent + 32 ≤ 2 ^ 40 → apart dst (t.extent + 32) src t.extent → walks src t.extent dst (t.extent + 32) xs ys →
        s.formsIn (xs ++ ys) src t.extent [1] = true → s.formsIn (xs ++ ys) dst (t.extent + 32) [0] = true →
        Answers (.xexport d a b n) s (issues (.exportTo dst src t.extent) (xs ++ ys)))) ∧
    (∀ g xl, s.hostRegions.find? (fun g => g.num == src / 2 ^ 48) = some g → third ≤ 2 ^ 40 → src % 2 ^ 48 + third ≤ g.len →
      (g.fromh = true → s.walkRange s.myAgent .write dst third = .ok xl →
        Answers (.xhost d a b n) s (issues (.fromHost (g.base + src % 2 ^ 48) dst third) xl)) ∧
      (g.toh = true → s.walkRange s.myAgent .read dst third = .ok xl →
        Answers (.xhostToh d a b n) s (issues (.toHost (g.base + src % 2 ^ 48) dst third) xl)))) ∧
  ∀ (s : State) (p : PlaneId) (n : TReg) (seq : Nat) (job : CopyJob) (xl : List XFrame),
    let shared (dst src : List Nat) (x : Nat) : Prop := ∃ ds ss, s.heldPlaces xl dst = some ds ∧ s.heldPlaces xl src = some ss ∧
      x ∈ ds.map (·.pa) ∧ x ∈ ss.map (·.pa)
    let writes (dsts : List Nat) (bs : List Byte) (loose : Nat → Prop) : Prop :=
      ∀ qs, s.heldPlaces xl dsts = some qs → s.writeFails qs = false → (qs.map (·.pa)).Nodup →
        Answers (.copyComplete p n seq) s fun t => ∃ s1, OnlyStored s { s1 with full := s.full } ∧ OpDone s1 p n seq t ∧
          (∀ q b, (q, b) ∈ qs.zip bs → q.pa ∉ summaryBytes qs ++ fullBytes qs → ¬ loose q.pa → t.byte q.pa = b) ∧
          (∀ a, a ∉ qs.map (·.pa) → a ∉ summaryBytes qs ++ fullBytes qs → t.byte a = s.byte a) ∧
          ∀ q ∈ qs, q.kind = .spad → t.feGet q = true
    let reads (src : List Nat) (bs : List Byte) : Prop := ∃ ps, s.heldPlaces xl src = some ps ∧ s.readPlaces 0 ps = .ok bs
    let cells (rows cols : Nat) (f : Nat → Nat → Nat) (e : Nat) : List Nat :=
      (List.range rows).flatMap fun r => (List.range cols).flatMap fun c => (List.range e).map fun i => f r c + i
    s.op? p n seq = some ⟨p, n, seq, .copy job xl⟩ → s.pend = [] → s.MemInv →
    (∀ dst src len bs, job = .copy dst src len → reads (addrs src len) bs →
      writes (addrs dst len) bs (shared (addrs dst len) (addrs src len))) ∧
    (∀ dst src e rows cols ss ds bs, job = .transpose dst src e rows cols ss ds → 
      let from_ := cells rows cols (fun r c => src + r * ss + c * e) e
      let into := cells rows cols (fun r c => dst + c * ds + r * e) e
      reads from_ bs → writes into bs (shared into (addrs src ((rows - 1) * ss + cols * e)))) ∧
    (∀ dst pat len, job = .fill dst pat len →
      writes (addrs dst len) ((List.range len).map fun i => pat.extractLsb' (8 * ((dst + i) % 8)) 8) (fun _ => False)) ∧
    (∀ dst hdr stat nb raw extent dataoff datalen crc check freq bs, job = .decode dst hdr stat nb raw extent dataoff datalen crc check freq →
      reads (addrs (hdr + dataoff) (128 + datalen)) bs →
      let r := ransDecode freq nb raw (unitsOf 4 32 bs) (unitsOf 2 (datalen / 2) (bs.drop 128))
      let code := if r.2.1 = false then 1 else if check = true ∧ crc32c r.1 ≠ crc then 2 else 0
      (∀ s2 : State, OnlyStored s { s2 with full := s.full } → s2.heldPlaces xl (addrs stat 8) = s.heldPlaces xl (addrs stat 8)) →
      writes (addrs dst raw ++ addrs stat 8) (r.1 ++ leBytes 8 (r.2.2 % 2 ^ 40 * 256 + code)) (shared (addrs dst raw) (addrs hdr extent))) ∧
    (∀ dst src total bs, job = .exportTo dst src total → reads (addrs src total) bs →
      writes (addrs dst (32 + total)) (exportPrefix total (crc32c bs) ++ bs)
        (shared (addrs dst (32 + total)) (addrs src total))) ∧
    (∀ host dev len, job = .fromHost host dev len → writes (addrs dev len) ((List.range len).map fun i => Memory.get s.hostMem (host + i))
      (fun _ => False)) ∧
    (∀ host dev len bs, job = .toHost host dev len → reads (addrs dev len) bs → Answers (.copyComplete p n seq) s fun t =>
      OpDone { s with hostMem := t.hostMem } p n seq t ∧ (∀ i b, bs[i]? = some b → Memory.get t.hostMem (host + i) = b) ∧
        ∀ a, a < host ∨ host + len ≤ a → Memory.get t.hostMem a = Memory.get s.hostMem a)

/-- O43. With a good image, descriptor or operand: SLOAD addresses the new image with fresh sections and issues its installation; SPORT sets a port descriptor; SARM issues a run with the settings in force; TWLOAD issues new coefficient bytes; SGROW sets a growth mode; MODCFG sets modulus and roots once no vector work or M32 run is left; MODCHK and SSTAT read a section’s record; SABORT ends and counts its runs, those at once that wait on a port; SFREE releases the image, else stalls. SLOAD_INSTALL, TWLOAD_APPLY, MODCFG_APPLY and FABRIC_RELEASE finish what waited. What the spec leaves open or to inference here is the model’s, as in log 35, log 36, log 38, log 57, log 61, log 77, log 78. (from 19 R294, 19 R299, 19 R300, 19 R301, 19 R302, 19 R303, 19 R304, 19 R305, 19 R306, 19 R307, 19 R308, 19 Table 19-11) -/
def Obligations.TrellisInstructions : Prop :=
  (∀ (s : State) (d a b : XReg) (n : TReg) (gr : Growth) (clear bound : Bool),
    let f := s.me.fab
    let k := (s.getX a).toNat
    let runs := s.runsOf k
    let ready : Prop := s.hasIssue n ∧ s.releaseReady = true
    let fabIs (g : Fabric) (s1 t : State) : Prop :=
      t.me.fab = g ∧ GoesOn t s.pc4 ∧ OnlyMe s1 t ∧ SameButPc s1.me { t.me with fab := s1.me.fab }
    let freed : Fabric := { f with image := none, secs := [], descs := [], bound := none }
    (∀ h size v m, s.getX a &&& 63 = 0 → s.noConflict (s.getX a) 64 .read → s.noConflict (s.getX a) size .read →
      s.read s.myAgent (s.getX a) 64 .read = .ok (h, s) → imageSize (leBytes 64 h) = some size →
      s.read s.myAgent (s.getX a) size .read = .ok (v, s) → streamImage? (leBytes size v) = some m → s.fits m = true → m.progresses = true → ready →
      Answers (.sload a n) s fun t => ∃ s1, OpIssued s n (.sload (f.gen + 1) m) s1 ∧
        fabIs { f with gen := f.gen + 1, image := some m, secs := m.secs.map fun c => ⟨c.grow, false, 0, 0, 0, 0, 0⟩,
                       descs := List.replicate m.slots.length none } s1 t) ∧
    (∀ (m : StreamImage) (nd : NodeRec) (v : Nat), f.image = some m → m.nodes[k]? = some nd → nd.clen ≠ 0 → s.noConflict (s.getX b) nd.clen .read →
      s.read s.myAgent (s.getX b) nd.clen .read = .ok (v, s) → ready →
      Answers (.twload a b n) s (OnlyIssues s n (.twload f.gen k (leBytes nd.clen v)))) ∧
    (∀ (m : StreamImage) (sl : SlotRec) (c : SecRec) (v : Nat) (pd : PortDesc), f.image = some m → m.slots[k]? = some sl → m.secs[sl.sec]? = some c → (s.getX b).toNat % 8 = 0 →
      s.noConflict (s.getX b) 64 .read → s.read s.myAgent (s.getX b) 64 .read = .ok (v, s) → portDesc? (leBytes 64 v) sl c = some pd →
      Answers (.sport a b) s (fabIs { f with descs := f.descs.set k (some pd) } s)) ∧
    (∀ v, k % 8 = 0 → s.noConflict (s.getX a) 64 .read → s.read s.myAgent (s.getX a) 64 .read = .ok (v, s) → 
      let q := v % 2 ^ 32
      let nroot := v / 2 ^ 128 % 2 ^ 16
      let at_ := v / 2 ^ 192
      q % 2 = 1 → 3 ≤ q → q < 2 ^ 31 → (q * (v / 2 ^ 32 % 2 ^ 32) + 1) % 2 ^ 32 = 0 → v / 2 ^ 64 % 2 ^ 64 = 2 ^ 64 % q → nroot ≤ 1024 →
      v / 2 ^ 144 % 2 ^ 48 = 0 → at_ < 2 ^ 64 → at_ % 4 = 0 → ∀ rv roots, s.noConflict (BitVec.ofNat 64 at_) (4 * nroot) .read →
      s.read s.myAgent (BitVec.ofNat 64 at_) (4 * nroot) .read = .ok (rv, s) →
      roots = (List.range nroot).map (fun i => rv / 2 ^ (32 * i) % 2 ^ 32) → (∀ x ∈ roots, x < q) → (∀ q' rs, s.me.wait ≠ some (.modcfg q' rs)) →
      let busy : Prop := s.me.vq ≠ [] ∨ ∃ o ∈ s.ops, o.plane = s.cur ∧ ∃ r, o.kind = .run r ∧ r.kind = 2
      (¬ busy → Answers (.modcfg a) s fun t => t.me.modulus = q ∧ t.me.roots = roots ∧ GoesOn t s.pc4 ∧ OnlyMe s t ∧
        SameButPc s.me { t.me with modulus := s.me.modulus, roots := s.me.roots }) ∧
      (busy → Answers (.modcfg a) s (Stalls s (.modcfg q roots)))) ∧
    (s.section? a = none → Answers (.modchk d a clear bound) s (OnlyX s d 0 s.pc4) ∧ Answers (.sstat d a) s (OnlyX s d 0 s.pc4) ∧
      Answers (.sabort d a) s (OnlyX s d 0 s.pc4)) ∧
    (∀ m c x, s.section? a = some (m, c, x) →
      (∀ xl, 1 ≤ (s.getX b).toNat → (s.getX d).toNat + (s.getX b).toNat ≤ 2 ^ 32 → m.rootsNeeded k c ≤ s.me.roots.length → ready → runs.length < 4 →
        (∀ (j : Nat) (sl : SlotRec), m.slots[j]? = some sl → sl.sec = k → ((f.descs[j]?).join).isSome = true) →
        joinWalks ((List.range (s.getX b).toNat).flatMap fun t => s.walkTile m k c f.descs ((s.getX d).toNat + t)) = .ok xl →
        Answers (.sarm d a b n) s (OnlyIssues s n (.run
          { sec := k, gen := f.gen, kind := c.kind, first := (s.getX d).toNat, count := (s.getX b).toNat, descs := f.descs, grow := x.grow
            q := s.me.modulus, roots := s.me.roots, xl := xl, done := List.replicate m.slots.length 0, got := []
            chans := List.replicate m.chans.length none, norms := [], fl := 0, limit := (s.getX b).toNat, status := 0 }))) ∧
      (c.kind ≠ 2 ∨ gr = .cond → Answers (.sgrow a gr) s
        (fabIs { f with secs := f.secs.modify k fun y => { y with grow := match gr with | .cond => 0 | .always => 1 | .none => 2 } } s)) ∧
      Answers (.modchk d a clear bound) s (fun t => ∃ s1,
        OnlyX s1 d (BitVec.ofNat 64 (if bound then (if x.valid then x.bound else 0)
          else (if x.valid then 2 ^ 63 else 0) + x.count * 2 ^ 32 + x.first % 2 ^ 32)) s.pc4 t ∧
        s1 = if clear then s.modMe fun p => { p with fab := { f with secs := f.secs.modify k fun y =>
          { y with valid := false, count := 0, first := 0, bound := 0 } } } else s) ∧
      Answers (.sstat d a) s (OnlyX s d (BitVec.ofNat 64 (2 ^ 63 + x.fl.toNat * 2 ^ 48 + x.last * 2 ^ 40 + runs.length * 2 ^ 32 +
        (match runs with | r :: _ => r.tiles m % 2 ^ 32 | [] => 0))) s.pc4) ∧
      ((s.ops.map fun o => (o.plane, o.n, o.seq)).Nodup → Answers (.sabort d a) s (fun t =>
        t.getX d = (if d = 0 then 0 else BitVec.ofNat 64 runs.length) ∧ GoesOn t s.pc4 ∧ (∀ p, p ≠ s.cur → t.plane p = s.plane p) ∧
        (∀ x, t.byte x = s.byte x) ∧
        t.runsOf k = (runs.map (SecRun.aborted · m)).filter (fun r => !s.runWaits r m c) ∧ (∀ r ∈ t.runsOf k, r.status = 1) ∧
        ((∀ r ∈ runs, s.runWaits (r.aborted m) m c = false) → OnlyX { s with ops := t.ops } d (BitVec.ofNat 64 runs.length) s.pc4 t) ∧
        t.ops.filter (fun o => o.kind.run?.isNone || o.plane != s.cur) = s.ops.filter (fun o => o.kind.run?.isNone || o.plane != s.cur)))) ∧
    (s.fabricBusy s.cur = false → Answers .sfree s (fabIs freed s)) ∧
    (s.fabricBusy s.cur = true → Answers .sfree s (Stalls s .sfree))) ∧
  ∀ (s : State) (p : PlaneId) (o : AOp),
    let turn : Prop := o.plane = p ∧ (s.ops.filter fun x => x.plane == p).find? (fun x => x.kind.isImageLoad || x.kind.run?.isSome) = some o ∧
      s.op? p o.n o.seq = some o
    (∀ g m, turn → o.kind = .sload g m → Answers (.sloadInstall p) s
      (OpDone (s.modPlane p fun q => { q with fab := { q.fab with bound := some (g, m) } }) p o.n o.seq)) ∧
    (∀ g k bs m, turn → o.kind = .twload g k bs → (s.plane p).fab.bound = some (g, m) → Answers (.twloadApply p) s
      (OpDone (s.modPlane p fun q => { q with fab := { q.fab with
        bound := some (g, { m with nodes := m.nodes.modify k fun y => { y with coef := bs, bad := [] } }) } }) p o.n o.seq)) ∧
    (∀ q roots, s.waitOf p = some (.modcfg q roots) → (s.plane p).vq = [] → (∀ x ∈ s.ops, x.plane = p → ∀ r, x.kind = .run r → r.kind ≠ 2) →
      AnswersFor (.modcfgApply p) s p fun u t => t.me.modulus = q ∧ t.me.roots = roots ∧ GoesOn t u.pc4 ∧ OnlyMe u t) ∧
    (s.waitOf p = some .sfree →
      (s.fabricBusy p = true → Idle (.fabricRelease p) s) ∧
      (s.fabricBusy p = false → AnswersFor (.fabricRelease p) s p fun u t =>
        t.me.fab = { u.me.fab with image := none, secs := [], descs := [], bound := none } ∧ GoesOn t u.pc4 ∧ OnlyMe u t))

/-- O44. In its plane’s slot and turn a run works frame by frame: a node whose inputs have frames and whose output channels are empty fires, emptying its inputs and putting its frame, permuted, on every channel it feeds, or, where it meets a poisoned coefficient, ends the run at its tile; an input port reads its tile’s bytes into a frame, an FE port granule by granule, each once FULL, .CLR making it EMPTY; an output port writes its frame’s bytes. A unit that cannot fire does nothing. Once every output port has written every tile, or an aborted run waits, the run records flags, status and check record and is counted. A node’s frame is that of 19 R278 to R284: BFLY and PWISE nodes compute exactly, round once under the growth mode’s shift, and saturate with BGS; MOD and M32 PWISE nodes compute modulo q; zero and invalid frames pass. What the spec leaves open or to inference here is the model’s, as in log 34, log 36, log 37, log 38, log 57, log 61. (from 19 R274, 19 R278 to R284, 19 R285, 19 R286, 19 R288, 19 R290, 19 R291, 19 R292, 19 R295, 19 R297, 05 R59) -/
def Obligations.TrellisRuns : Prop :=
  (∀ (n : NodeRec) (kind mode q : Nat) (roots : List Nat) (a b : FabFrame),
    let z := n.fire kind mode q roots a b
    let st := 2 ^ n.logs
    let vs := if kind = 1 then 2 else 4
    let val (o : Nat) : Int × Int :=
      (patternInt true 16 (fieldAt n.coef o 2), if kind = 0 then patternInt true 16 (fieldAt n.coef (o + 2) 2) else 0)
    let entry (p : Nat) : Nat := n.cbase + p / 2 ^ n.cshift % 2 ^ n.clog
    let pos (r j : Nat) : Nat := j / (st * r) * st + j % st
    (n.mode = 3 → z = (a, flNone)) ∧
    (n.mode ≠ 3 → a = .bad → z = (.bad, flNone)) ∧
    (n.mode ≠ 3 → n.two = false → a = .zero → z = (.zero, flNone)) ∧
    (n.two = true → (b = .bad → (∀ x, a ≠ .res x) → z = (.bad, flNone)) ∧ (a = .zero → b = .zero → z = (.zero, flNone))) ∧
    (∀ f x, a = .blk f x → n.mode = 0 → n.op < 6 →
      let r := if n.op % 2 = 1 then 4 else 2
      let xs (i : Nat) : Int × Int := (x[i]?).getD (0, 0)
      ∃ ys, ys.length = x.length ∧ Grown ys 14 f mode (n.op % 2 = 1) z ∧
        ∀ j k, j / st % r = 0 → k < r → j + k * st < x.length →
          let e := entry (pos r j)
          (n.op < 2 → ys[j + k * st]? = some
            (((List.range r).map fun i => (cMul (val ((e * (r * r) + k * r + i) * vs)) (xs (j + i * st))).1).sum,
             ((List.range r).map fun i => (cMul (val ((e * (r * r) + k * r + i) * vs)) (xs (j + i * st))).2).sum)) ∧
          (n.op = 2 → ys[j + k * st]? = some (
            let u := cScale (2 ^ 14) (xs j)
            let v := cMul (val (e * vs)) (xs (j + st))
            if k = 0 then cAdd u v else cSub u v)) ∧
          (n.op = 4 → ys[j + k * st]? = some (
            if k = 0 then cScale (2 ^ 14) (cAdd (xs j) (xs (j + st))) else cMul (val (e * vs)) (cSub (xs j) (xs (j + st)))))) ∧
    (∀ f x, a = .blk f x → n.mode = 2 →
      (n.op = 0 → ∃ ys, Grown ys 14 f mode false z ∧ ys.length = x.length ∧ ∀ i v, x[i]? = some v →
        ys[i]? = some (cMul (val ((n.cbase + i % (n.repl + 1)) * vs)) v)) ∧
      (n.op = 4 → Grown (x.map fun v => (v.1, -v.2)) 0 f mode false z) ∧
      (n.op = 5 → Grown x 0 f mode false z)) ∧
    (∀ f g x y, a = .blk f x → b = .blk g y → n.mode = 2 → x.length = y.length → x ≠ [] →
      (n.op = 1 → ∃ ys, Grown ys 14 ((f : Int) + g - 127) mode false z ∧ ys.length = x.length ∧
        ∀ (i : Nat) (u v : Int × Int), x[i]? = some u → y[i]? = some v → ys[i]? = some (cMul u v)) ∧
      (n.op = 2 ∨ n.op = 3 → ∃ ys, Grown ys 0 ((max f g : Nat) : Int) mode false z ∧ ys.length = x.length ∧
        ∀ (i : Nat) (u v w : Int × Int), x[i]? = some u → y[i]? = some v → ys[i]? = some w → ∃ u1 u2 v1 v2,
          HalfEven u.1 (max f g - f) u1 ∧ HalfEven u.2 (max f g - f) u2 ∧ HalfEven v.1 (max f g - g) v1 ∧ HalfEven v.2 (max f g - g) v2 ∧
          w = if n.op = 2 then (u1 + v1, u2 + v2) else (u1 - v1, u2 - v2))) ∧
    (∀ f x, n.mode = 2 → (n.op = 1 → (a = .zero ∧ b = .blk f x) ∨ (a = .blk f x ∧ b = .zero) → z = (.zero, flNone)) ∧
      (n.op = 2 ∨ n.op = 3 →
        (a = .blk f x → b = .zero → Grown x 0 f mode false z) ∧
        (a = .zero → b = .blk f x → Grown (if n.op = 2 then x else x.map fun v => (-v.1, -v.2)) 0 f mode false z))) ∧
    (∀ x, a = .res x → n.mode = 1 ∨ n.mode = 2 → z.2 = flNone ∧ ∃ ys, z.1 = .res ys ∧ ys.length = x.length ∧
      let xs (i : Nat) : Int := ((x[i]?).getD 0 : Nat)
      let root (i : Nat) : Int := ((roots[i]?).getD 0 : Nat)
      let is (i : Nat) (v : Int) : Prop := ys[i]? = some (v % (q : Int)).toNat
      (∀ j, n.mode = 1 → j / st % 2 = 0 → j + st < x.length →
        let w := root (entry (pos 2 j))
        (n.op = 0 → is j (xs j + w * xs (j + st)) ∧ is (j + st) (xs j - w * xs (j + st))) ∧
        (n.op = 1 → is j (xs j + xs (j + st)) ∧ is (j + st) ((xs j - xs (j + st)) * w))) ∧
      (∀ i, n.mode = 2 → i < x.length →
        (n.op = 5 → is i (xs i)) ∧
        (n.op = 8 → is i (xs i * root (n.cbase + i % (n.repl + 1)))) ∧
        ∀ y, b = .res y →
          let v : Int := ((y[i]?).getD 0 : Nat)
          (n.op = 9 → is i (xs i * v)) ∧ (n.op = 10 → is i (xs i + v)) ∧ (n.op = 11 → is i (xs i - v))))) ∧
  ∀ (s : State) (p : PlaneId) (n : TReg) (seq : Nat) (r : SecRun) (m : StreamImage) (c : SecRec),
    let became (u : State) (r1 : SecRun) (t : State) : Prop :=
      t.run? p n seq = some r1 ∧ t.otherOps p n seq = s.otherOps p n seq ∧ { t with ops := u.ops } = u
    let chan (f : ChanRec → Option FabFrame → Option FabFrame) (r1 : SecRun) : Prop :=
      r1.chans.length = r.chans.length ∧
      ∀ (j : Nat) (ch : ChanRec), m.chans[j]? = some ch → j < r.chans.length → r1.chans[j]? = some (f ch (r.chans[j]?).join)
    let room (src : Nat) : Prop := ∀ (j : Nat) (ch : ChanRec), m.chans[j]? = some ch → ch.src = src → (r.chans[j]?).join = none
    let bytesAt (as : List Nat) : Option (List Byte) := match s.heldPlaces r.xl as with
      | some ps => (s.readPlaces 0 ps).toOption
      | none => none
    s.run? p n seq = some r → s.runContext p n seq r = some (m, c) → s.pend = [] → s.MemInv →
    (∀ (k : Nat) (nd : NodeRec) (a b : FabFrame), m.nodes[k]? = some nd → nd.sec = r.sec → r.at m k 0 = some a → (nd.two = true → r.at m k 1 = some b) →
      (nd.two = false → b = .zero ∧ r.at m k 1 = none) →
      (room k → nd.meetsPoison c.kind a = true → Answers (.nodeFire p n seq (.node k)) s (became s (r.failAt (r.tileAt m 64 k)))) ∧
      (room k → nd.meetsPoison c.kind a = false → Answers (.nodeFire p n seq (.node k)) s fun t => ∃ r1, became s r1 t ∧
        let y := nd.fire c.kind r.grow r.q r.roots a b
        { r1 with chans := r.chans, fl := r.fl } = r ∧ r1.fl = r.fl ||| y.2 ∧
        chan (fun ch old => if ch.src = k then some (ch.carry c.logn y.1) else if ch.dst = k then none else old) r1) ∧
      (¬ room k → Idle (.nodeFire p n seq (.node k)) s)) ∧
    (∀ (k : Nat) (sl : SlotRec) (d : PortDesc), m.slots[k]? = some sl → (r.descs[k]?).join = some d → sl.sec = r.sec →
      let rel := r.doneBy k
      let parts := d.parts (2 ^ c.logn) (r.first + rel)
      let grans := granuleAddrs d sl.tag c.kind (2 ^ c.logn) (r.first + rel)
      (∀ bss ess, sl.out = false → rel < r.limit → room (0x40 + k) →
        (if d.fe then ∃ gr : Nat → List Byte,
            (∀ (i va : Nat), grans[i]? = some va → r.got.find? (fun x => x.1 == k && x.2.1 == i) = some (k, i, gr va)) ∧
            (∀ x ∈ parts, ∀ va ∈ x.dataAddrs d sl.tag c.kind, va / 16 * 16 ∈ grans) ∧
            bss = parts.map fun x => (x.dataAddrs d sl.tag c.kind).map fun va => ((gr (va / 16 * 16))[va % 16]?).getD 0
          else (parts.map fun x => bytesAt (x.dataAddrs d sl.tag c.kind)) = bss.map some) →
        (parts.map fun x => bytesAt (x.expAddrs sl.tag c.kind)) = ess.map some →
        Answers (.nodeFire p n seq (.inPort k)) s fun t => ∃ r1, became s r1 t ∧
          let f := inputFrame r.q sl.tag c.kind parts bss ess
          r1.fl = r.fl ||| f.2.1 ∧ r1.done = r.done.set k (rel + 1) ∧ r1.got = r.got.filter (fun x => x.1 ≠ k) ∧
          r1.norms = (if c.check = true ∧ (k = c.chka ∨ k = c.chkb) then r.norms ++ [(k, r.first + rel, f.2.2)] else r.norms) ∧
          { r1 with chans := r.chans, fl := r.fl, done := r.done, got := r.got, norms := r.norms } = r ∧
          chan (fun ch old => if ch.src = 0x40 + k then some (ch.carry c.logn f.1) else old) r1) ∧
      (∀ fr s1 fl, sl.out = true → rel < r.limit → r.at m (0x40 + k) 0 = some fr → s.remoteWaits r m c k = false →
        s.portWrites r d sl.tag c fr parts = some (s1, fl) →
        Answers (.nodeFire p n seq (.outPort k)) s fun t => ∃ r1, became s1 r1 t ∧ r1.fl = r.fl ||| fl ∧ r1.done = r.done.set k (rel + 1) ∧
          { r1 with chans := r.chans, fl := r.fl, done := r.done } = r ∧ chan (fun ch old => if ch.dst = 0x40 + k then none else old) r1) ∧
      (∀ (fr : FabFrame) (x : PortPart) qs, x.off = false → s.heldPlaces r.xl (x.dataAddrs d sl.tag c.kind) = some qs → sl.tag ≠ .b16 →
        (∀ q ∈ qs, q.isSaved = false) →
        s.writeFails qs = false → (qs.map (·.pa)).Nodup → ∃ s1 fl, s.portWrites r d sl.tag c fr [x] = some (s1, fl) ∧
          OnlyStored s { s1 with full := s.full } ∧ (∀ q b, (q, b) ∈ qs.zip (portBytes r.q sl.tag c.kind (2 ^ c.logn) x fr).1 →
            q.pa ∉ summaryBytes qs ++ fullBytes qs → s1.byte q.pa = b) ∧ (d.fe = true → ∀ q ∈ qs, q.kind = .spad → s1.feGet q = true)) ∧
      (∀ (g va : Nat) (pl : Place) (bs : List Byte), sl.out = false → d.fe = true → rel < r.limit → grans[g]? = some va → (∀ x ∈ r.got, x.1 = k → x.2.1 ≠ g) →
        s.heldPlace r.xl va = some pl → bytesAt (ringAddrs va 16) = some bs →
        (s.feGet pl = true → Answers (.inputPortFeRead p n seq k g) s
          (became (if d.clr then s.feSet pl false else s) { r with got := r.got ++ [(k, g, bs)] })) ∧
        (s.feGet pl = false → Idle (.inputPortFeRead p n seq k g) s))) ∧
    ((∀ k ∈ m.slotsOf r.sec true, r.limit ≤ r.doneBy k) ∨ (r.status = 1 ∧ s.runWaits r m c = true) →
      let ovf := r.flagged c
      let fl := r.fl ||| (if ovf = [] then 0 else flMOV)
      Answers (.sectionRunComplete p n seq) s fun t => ∃ s1, OpDone s1 p n seq t ∧ (∀ q, q ≠ p → s1.plane q = s.plane q) ∧
        { s1 with planes := s.planes } = s ∧ (s1.plane p).raised = (s.plane p).raised ||| fl ∧
        { s1.plane p with fcsr := (s.plane p).fcsr, fab := (s.plane p).fab } = s.plane p ∧
        ((s.plane p).fab.gen = r.gen → ∀ x, (s.plane p).fab.secs[r.sec]? = some x → ∃ y, (s1.plane p).fab.secs[r.sec]? = some y ∧
          y.fl = fl ∧ y.last = r.status ∧ y.grow = x.grow ∧
          (ovf = [] → y.valid = x.valid ∧ y.count = x.count ∧ y.first = x.first ∧ y.bound = x.bound) ∧
          (∀ z rest, ovf = z :: rest → y.valid = true ∧ y.count = min (x.count + ovf.length) (2 ^ 24 - 1) ∧
            (x.valid = false → y.first = z.1 ∧ y.bound = min z.2 (2 ^ 63 - 1)) ∧
            (x.valid = true → y.first = x.first ∧ y.bound = x.bound))) ∧
        ((s.plane p).fab.gen ≠ r.gen → (s1.plane p).fab = (s.plane p).fab))

/-- O45. MGRP makes the binding, SOLO or of a group, or reports 1 where another plane of the core is bound and 2 where the plane holds a stream image or graph; MGRP.REL gives it up once no matrix operation is left; the group operations that its partners hold unmatched end UNBOUND. MWLOAD, MMA, MACCZ, MACCST, MACCLD and MALOAD check their operands and issue one matrix operation, group operations under the next ordinal; MSTAT reports the binding. What the spec leaves open or to inference here is the model’s, as in log 39, log 40, log 61. (from 21 R310, 21 R313, 21 R314, 21 R316, 21 R317, 21 R319, 21 R320, 21 R322 to R328, 21 Table 21-1, 21 Table 21-8) -/
def Obligations.MatrixInstructions : Prop :=
  ∀ (s : State) (d a b : XReg) (c k f : Bool) (n : TReg),
    let xa := (s.getX a).toNat
    let xb := (s.getX b).toNat
    let read (at_ : Word) (l v : Nat) : Prop := s.noConflict at_ l .read ∧ s.read s.myAgent at_ l .read = .ok (v, s)
    let signed (v : Nat) : Int := (BitVec.ofNat 64 v).toInt
    let released (u t : State) : Prop := t.me.mx = none ∧ GoesOn t u.pc4 ∧ (∀ x, t.byte x = u.byte x) ∧ SameButPc u.me { t.me with mx := u.me.mx } ∧
      (∀ q, q ≠ u.cur → t.plane q = u.plane q) ∧ { t with planes := u.planes, ops := u.ops } = u ∧
      let told (o : AOp) : Prop := o.plane ≠ u.cur ∧ ∃ m c y, u.me.mx = some m ∧ m.solo = false ∧ o.plane ∈ (u.group m.entry).members ∧
        (u.plane o.plane).mx = some c ∧ c.solo = false ∧ c.entry = m.entry ∧ o.kind = .mat y ∧ y.job.group = true ∧ y.st = none
      (u.ops.map fun o => (o.plane, o.n, o.seq)).Nodup → t.ops.length = u.ops.length ∧ ∀ (i : Nat) (o : AOp), u.ops[i]? = some o →
        (told o → ∃ y, o.kind = .mat y ∧ t.ops[i]? = some { o with kind := .mat { y with st := some 2, fl := flNone } }) ∧
        (¬ told o → t.ops[i]? = some o)
    (∀ t, matrixTag? (xa / 2 ^ 16 % 32) = some t → s.me.mx = none →
      let rm := xa / 16 % 4
      let cm := xa / 256 % 8
      let made (e : Nat) (ms : List PlaneId) : Prop :=
        let r := (ms.findIdx? (· == s.cur)).getD 0
        let taken : Prop := ∃ q : PlaneId, q ≠ s.cur ∧ coreOf q = coreOf s.cur ∧ (s.plane q).mx ≠ none
        (taken → Answers (.mgrp d a) s (OnlyX s d 1 s.pc4)) ∧
        (¬ taken → s.fabricHeld s.cur = true → Answers (.mgrp d a) s (OnlyX s d 2 s.pc4)) ∧
        (¬ taken → s.fabricHeld s.cur = false → Answers (.mgrp d a) s fun u => ∃ m : Binding,
          OnlyX (s.modMe fun p => { p with mx := some m }) d 0 s.pc4 u ∧ m.tag = t ∧ m.entry = e ∧ m.rm1 = rm ∧ m.cm1 = cm ∧
          m.i = r / (cm + 1) ∧ m.j = r % (cm + 1) ∧ m.ord = 0 ∧ m.bad = [] ∧ m.slots.length = 8 ∧
          (∀ i j, i < 96 → j < 128 → (m.acc0[i]?).bind (·[j]?) = some 0 ∧ (m.acc1[i]?).bind (·[j]?) = some 0))
      (xa = 2 ^ 16 * (xa / 2 ^ 16 % 32) + 4 → made 0 [s.cur]) ∧
      (∀ e, xa / 4 % 2 = 0 → xa &&& 0x1F0733 = xa → s.me.groupSlot ((s.getX a).extractLsb' 0 2) = some e → cm ≤ 4 →
        (s.group e).members.length = (rm + 1) * (cm + 1) → ((s.group e).members.map coreOf).Nodup → made e (s.group e).members)) ∧
    (s.matOps s.cur = [] → Answers .mgrpRel s (released s)) ∧
    (s.matOps s.cur ≠ [] → Answers .mgrpRel s (Stalls s .mgrpRel)) ∧
    (∀ p, s.waitOf p = some .mgrpRel → (s.matOps p = [] → AnswersFor (.mgrpReleaseDone p) s p released) ∧
      (s.matOps p ≠ [] → Idle (.mgrpReleaseDone p) s)) ∧
    Answers (.mstat d) s (OnlyX s d (BitVec.ofNat 64 (s.me.mxLast.getD 0 * 2 ^ 48 + match s.me.mx with
      | none => 0
      | some m => 2 ^ 63 + (s.matOps s.cur).length * 2 ^ 40 + m.tag.code.toNat * 2 ^ 32 + m.entry * 2 ^ 24 + m.cm1 * 2 ^ 20 + m.rm1 * 2 ^ 16 +
          m.j * 2 ^ 8 + m.i)) s.pc4) ∧
    ∀ m, s.me.mx = some m → s.hasIssue n → s.releaseReady = true → (s.matOps s.cur).length < 8 →
      let q4 := m.tag == .q4
      let issues (g : Bool) (job : MatJob) (xl : List XFrame) (t : State) : Prop := ∃ s1,
        OpIssued (s.modMe fun p => { p with mx := some { m with ord := m.ord + if g then 1 else 0 } }) n
          (.mat ⟨job, xl, if g then m.ord + 1 else 0, none, 0⟩) s1 ∧ OnlyPc s1 s.pc4 t
      Answers (.maccz c n) s (issues false (.maccz c) []) ∧
      (∀ rows t pitch xl, layoutWord? xb = some (rows, t, pitch) →
        let rowsOf (acc : Acc) := (List.range rows).map fun r => s.walkRange s.myAgent acc ((xa + r * pitch) % 2 ^ 64) (128 * tagBytes t)
        (joinWalks (rowsOf .write) = .ok xl → ∀ md, dynMode? s.me.rm = some md →
          Answers (.maccst a b c n) s (issues false (.maccst c xa rows t pitch md s.me.sat) xl)) ∧
        (joinWalks (rowsOf .read) = .ok xl → t = .fp32 ∨ t = .bf16 → Answers (.maccld a b c n) s (issues false (.maccld c xa rows t pitch) xl))) ∧
      (let kcount := xb / 2 ^ 12 % 8 + 1
        let first := xb / 256 % 8
        let mrows := xb % 128
        first + kcount ≤ 8 → 1 ≤ mrows → mrows ≤ 96 →
        (m.j ≠ 0 → Answers (.mma a b c n) s (issues true (.mma c kcount first mrows none) [])) ∧
        (∀ xl, m.j = 0 → 2 ^ 63 ≤ xa → xa % 256 = 0 → xa - 2 ^ 63 + kcount * panelStride m.tag ≤ s.me.qsize * 65536 →
          s.walkRange s.myAgent .read xa (kcount * panelStride m.tag) = .ok xl →
          Answers (.mma a b c n) s (issues true (.mma c kcount first mrows (some xa)) xl))) ∧
      (∀ v xl, xa % 8 = 0 → read (s.getX a) 64 v →
        let base := v % 2 ^ 64
        let pitch := signed (v / 2 ^ 64)
        let sbase := v / 2 ^ 128 % 2 ^ 64
        let spitch := signed (v / 2 ^ 192)
        let first := v / 2 ^ 256 % 256
        let npanel := v / 2 ^ 264 % 256
        let ncols := v / 2 ^ 272 % 2 ^ 16
        let klen := v / 2 ^ 288
        let cols := if m.i = 0 then List.range ncols else []
        (q4 = false → sbase = 0 ∧ spitch = 0) → (q4 = true → klen % 32 = 0) → first ≤ 7 → 1 ≤ npanel → first + npanel ≤ 8 → 1 ≤ ncols →
        ncols ≤ 128 → 1 ≤ klen → klen ≤ npanel * panelDepth m.tag →
        joinWalks ((cols.map fun (i : Nat) => s.walkRange s.myAgent .read (addrPlus base (i * pitch)) (matBytes m.tag klen)) ++
          if q4 then cols.map fun (i : Nat) => s.walkRange s.myAgent .read (addrPlus sbase (i * spitch)) (klen / 32) else []) = .ok xl →
        Answers (.mwload a n) s (issues true (.mwload base pitch sbase spitch first npanel ncols klen) xl)) ∧
      (∀ v xl yl got fault, xa % 8 = 0 → 1 ≤ xb → xb ≤ 96 → (q4 = true → k = false) → read (s.getX a) 64 v →
        let src := v % 2 ^ 64
        let pitch := signed (v / 2 ^ 64)
        let ssrc := v / 2 ^ 128 % 2 ^ 64
        let spitch := signed (v / 2 ^ 192)
        let dst := v / 2 ^ 256 % 2 ^ 64
        let npanel := v / 2 ^ 320 % 256
        let klen := v / 2 ^ 352 % 2 ^ 32
        let size := npanel * panelStride m.tag
        (q4 = false → ssrc = 0 ∧ spitch = 0) → (q4 = true → klen % 32 = 0) → 2 ^ 63 ≤ dst → dst % 256 = 0 → dst - 2 ^ 63 + size ≤ s.me.qsize * 65536 →
        1 ≤ npanel → npanel ≤ 8 → 1 ≤ klen → klen ≤ npanel * panelDepth m.tag → v / 2 ^ 328 % 2 ^ 24 = 0 → v / 2 ^ 384 = 0 →
        s.grantRows (matRow m.tag k src pitch ssrc spitch klen) xb 0 = (got, xl, fault) → (fault ≠ none → f = true ∧ got ≠ 0) →
        s.walkRange s.myAgent .write dst size = .ok yl →
        Answers (.maload d a b k f n) s fun t => ∃ s1, OpIssued s n (.mat ⟨.maload k src pitch ssrc spitch dst npanel klen got, xl ++ yl, 0, none, 0⟩) s1 ∧
          OnlyX s1 d (BitVec.ofNat 64 got) s.pc4 t)

/-- O46. MATRIX_GROUP_START runs a group operation once every member has issued its own of that ordinal and none waits and each holds its slot: MWLOAD fills each member’s slots from its weight source, MMA adds the products of the A tile’s rows into the buffer, each element a sum that 03 R36 allows, a zero +0; members that disagree take MISMATCH. MATRIX_OP_COMPLETE performs a local operation and counts it with its status. GLOAD and GRUN issue, GSTAT reports, GFREE releases; a graph run takes input vectors to the outputs of 21 R330, each node the wrapped sum of its shifted, signed sources. What the spec leaves open or to inference here is the model’s, as in log 6, log 27, log 39, log 40, log 61. (from 21 R315, 21 R316, 21 R319, 21 R322, 21 R323, 03 R36, 05 R59, 21 R325 to R327, 21 R330 to R333) -/
def Obligations.MatrixWorkAndGraphs : Prop :=
  (∀ (s : State) (p : PlaneId) (b : Binding) (o : AOp) (m : MatOp),
    let members := s.matMembers p b
    (s.plane p).mx = some b → (s.matOps p).find? (fun x => x.2.job.group && x.2.st.isNone) = some (o, m) → s.pend = [] →
    ((∃ q ∈ members, s.groupOp q m.ord = none) → Idle (.matrixGroupStart p) s) ∧
    ((∃ q ∈ members, s.holdsSlot q = false ∨ ∃ x y, s.groupOp q m.ord = some (x, y) ∧ s.matReady x y = false) → Idle (.matrixGroupStart p) s) ∧
    ((∀ q ∈ members, s.holdsSlot q = true ∧ ∃ x y, s.groupOp q m.ord = some (x, y) ∧ s.matReady x y = true) →
      let agree (q : PlaneId) : Prop := ∃ x y c, s.groupOp q m.ord = some (x, y) ∧ (s.plane q).mx = some c ∧ sharedFields c y.job = sharedFields b m.job
      let done (q : PlaneId) (st : Nat) (t : State) : Prop := ∃ x y fl, s.groupOp q m.ord = some (x, y) ∧
        t.op? q x.n x.seq = some { x with kind := .mat { y with st := some st, fl := fl } }
      let calm (t : State) : Prop := (∀ q, q ∉ members → t.plane q = s.plane q) ∧ { t with planes := s.planes, ops := s.ops, free := s.free } = s
      ((∃ q ∈ members, ∃ x y, s.groupOp q m.ord = some (x, y) ∧ ∀ c, (s.plane q).mx = some c → sharedFields c y.job ≠ sharedFields b m.job) →
        (∀ q ∈ members, (s.plane q).mx ≠ none) → sharedFields b m.job ≠ [] →
        Answers (.matrixGroupStart p) s fun t => calm t ∧ (∀ q, t.plane q = s.plane q) ∧ ∀ q ∈ members, done q 1 t) ∧
      ((∀ q ∈ members, agree q) →
        (∀ (cols : PlaneId → List (List Nat)), (∀ q ∈ members, ∃ c src so sm x y base np sb sp first npanel nc kl, (s.plane q).mx = some c ∧
            members[c.j]? = some src ∧ (s.matOps src).find? (fun z => z.2.job.group && z.2.ord == m.ord) = some (so, sm) ∧ s.groupOp src m.ord = some (so, sm) ∧
            s.weights c.tag sm = some (cols q, s) ∧ s.groupOp q m.ord = some (x, y) ∧ y.job = .mwload base np sb sp first npanel nc kl) →
          Answers (.matrixGroupStart p) s fun t => calm t ∧ ∀ q ∈ members, done q 0 t ∧
            ∀ c x y base np sb sp first npanel nc kl, (s.plane q).mx = some c → s.groupOp q m.ord = some (x, y) →
              y.job = .mwload base np sb sp first npanel nc kl → ∃ c2, (t.plane q).mx = some c2 ∧ { c2 with slots := c.slots } = c ∧
                ∀ i, i < 8 → c2.slots[i]? = some (if first ≤ i ∧ i < first + npanel then panelOf (panelDepth c.tag) (i - first) (cols q)
                  else (c.slots[i]?).getD [])) ∧
        (∀ (bytes : PlaneId → List Byte) (a1 : Bool) (kcount first mrows : Nat), (∀ q ∈ members, members.count q = 1 ∧ ∃ c src so sm x y tile ta, (s.plane q).mx = some c ∧
            c.accPoisoned a1 mrows = false ∧ members[c.i * (c.cm1 + 1)]? = some src ∧ (s.matOps src).find? (fun z => z.2.job.group && z.2.ord == m.ord) = some (so, sm) ∧ s.groupOp src m.ord = some (so, sm) ∧
            sm.job = .mma a1 kcount first mrows (some ta) ∧ s.engineRead sm.xl (ringAddrs ta (kcount * panelStride c.tag)) = some (bytes q, s) ∧
            s.groupOp q m.ord = some (x, y) ∧ y.job = .mma a1 kcount first mrows tile) →
          Answers (.matrixGroupStart p) s fun t => calm t ∧ ∀ q ∈ members, done q 0 t ∧ ∀ c, (s.plane q).mx = some c → (c.acc a1).length = 96 →
            mrows ≤ 96 → ∃ c2, (t.plane q).mx = some c2 ∧ { c2 with acc0 := c.acc0, acc1 := c.acc1 } = c ∧ c2.acc (!a1) = c.acc (!a1) ∧
              (∀ i, mrows ≤ i → (c2.acc a1)[i]? = (c.acc a1)[i]?) ∧
              ∀ i j old, i < mrows → j < 128 → ((c.acc a1)[i]?).bind (·[j]?) = some old →
                ∃ v, ((c2.acc a1)[i]?).bind (·[j]?) = some v ∧ v ≠ 2 ^ 31 ∧
                  let row := tileRow c.tag kcount (bytes q) i
                  let col := (List.range kcount).flatMap fun z => ((c.slots[first + z]?).bind (·[j]?)).getD []
                  SumAllowed .fp32 ((Fp.fp32.value old).toRV :: (row.zip col).map fun z => (fpMul (matValue c.tag z.1) (matValue c.tag z.2)).1) v)))) ∧
  (∀ (s : State) (p : PlaneId) (n : TReg) (seq : Nat) (m : MatOp) (b : Binding),
    let ended (st : Nat) (fl : Flags) (s1 t : State) : Prop := ∃ s2, OpDone s2 p n seq t ∧ (s2.plane p).mxLast = some st ∧
      (s2.plane p).raised = (s1.plane p).raised ||| fl ∧ { s2.plane p with mxLast := (s1.plane p).mxLast, fcsr := (s1.plane p).fcsr } = s1.plane p ∧
      (∀ q, q ≠ p → s2.plane q = s1.plane q) ∧ { s2 with planes := s1.planes } = s1
    let o : AOp := ⟨p, n, seq, .mat m⟩
    let at_ (base pitch i : Nat) (l : Nat) : List Nat := ringAddrs (base + i * pitch) l
    s.op? p n seq = some o → s.holdsSlot p = true → (s.plane p).mx = some b → s.pend = [] → s.MemInv →
    (∀ st, m.st = some st → Answers (.matrixOpComplete p n seq) s (ended st m.fl s)) ∧
    (m.st = none → m.job.group = false → s.matReady o m = true →
      (∀ a1, m.job = .maccz a1 → Answers (.matrixOpComplete p n seq) s
        (ended 0 0 (s.modBinding p fun b => (b.setAcc a1 (List.replicate 96 (List.replicate 128 0))).cleaned a1 96))) ∧
      (∀ a1 src rows t pitch bss, m.job = .maccld a1 src rows t pitch →
        s.unitReads m.xl ((List.range rows).map fun r => at_ src pitch r (128 * tagBytes t)) = some (bss, s) →
        let rs := bss.map fun bs => (unitsOf (tagBytes t) 128 bs).map fun x => if t = .fp32 then (x, flNone) else elConvert 3 .rne false t .fp32 x
        Answers (.matrixOpComplete p n seq) s (ended 0 (rs.foldl (fun fl r => r.foldl (fun fl x => fl ||| x.2) fl) flNone)
          (s.modBinding p fun b => (b.setAcc a1 (rs.map (fun r => r.map (·.1)) ++ (b.acc a1).drop bss.length)).cleaned a1 rows))) ∧
      (∀ a1 dst rows t pitch md sat s1, m.job = .maccst a1 dst rows t pitch md sat →
        let rs := ((b.acc a1).take rows).map (storeRow t md sat)
        b.accPoisoned a1 rows = false → s.storeRows m.xl dst pitch 0 (rs.map (·.1)) = some s1 →
        Answers (.matrixOpComplete p n seq) s (ended 0 (rs.foldl (fun x r => x ||| r.2) 0) s1)) ∧
      (∀ a1 dst rows t pitch md sat, m.job = .maccst a1 dst rows t pitch md sat → b.accPoisoned a1 rows = true →
        Answers (.matrixOpComplete p n seq) s (ended 3 0 s)) ∧
      (∀ col src pitch ssrc spitch dst npanel klen got rows qs, m.job = .maload col src pitch ssrc spitch dst npanel klen got →
        s.readRows m.xl b.tag col klen (npanel * panelDepth b.tag) (matRow b.tag col src pitch ssrc spitch klen) (List.range got) = some (rows, s) →
        (∀ q ∈ s.heldPlaces m.xl (ringAddrs dst (tileBytes b.tag npanel rows).length), ∀ z ∈ q, z.isSaved = false) →
        let bs := tileBytes b.tag npanel rows
        s.heldPlaces m.xl (ringAddrs dst bs.length) = some qs → s.writeFails qs = false → (qs.map (·.pa)).Nodup →
        Answers (.matrixOpComplete p n seq) s fun t => ∃ s1, ended 0 0 s1 t ∧ OnlyStored s s1 ∧
          (∀ q v, (q, v) ∈ qs.zip bs → q.pa ∉ summaryBytes qs → t.byte q.pa = v) ∧
          ∀ x, x ∉ qs.map (·.pa) → x ∉ summaryBytes qs → t.byte x = s.byte x))) ∧
  (∀ (s : State) (d a b : XReg) (n : TReg),
    let runs := s.graphRuns s.cur
    let freed (u t : State) : Prop := t.me.graph = none ∧ GoesOn t u.pc4 ∧ OnlyMe u t ∧ SameButPc u.me { t.me with graph := u.me.graph }
    (∀ h v size width nstn g stns, (s.getX a).toNat % 8 = 0 → s.noConflict (s.getX a) 64 .read → s.noConflict (s.getX a) size .read →
      s.read s.myAgent (s.getX a) 64 .read = .ok (h, s) →
      graphHeader (leBytes 64 h) = some (size, width, nstn) → s.read s.myAgent (s.getX a) size .read = .ok (v, s) →
      graphOf (leBytes size v) = some (g, stns) → width ≤ 32 → (∀ t, t < nstn → stns.count t ≤ 256) → nstn ≤ (s.freeStations s.cur).length →
      s.hasIssue n → s.releaseReady = true → Answers (.gload a n) s (OnlyIssues s n (.gload g ((s.freeStations s.cur).take nstn)))) ∧
    (∀ g stns xs ys, s.me.graph = some (g, stns) → 1 ≤ (s.getX d).toNat → (s.getX d).toNat ≤ 2 ^ 32 → 
      let ni := (s.getX d).toNat * g.nin * g.isize
      let no := (s.getX d).toNat * 4 * g.outs.length
      (s.getX a).toNat + ni ≤ (s.getX b).toNat ∨ (s.getX b).toNat + no ≤ (s.getX a).toNat → runs.length < 4 → s.hasIssue n → s.releaseReady = true →
      s.walkRange s.myAgent .read (s.getX a).toNat ni = .ok xs → s.walkRange s.myAgent .write (s.getX b).toNat no = .ok ys →
      Answers (.grun d a b n) s (OnlyIssues s n (.grun ⟨g, (s.getX a).toNat, (s.getX b).toNat, (s.getX d).toNat, xs ++ ys, 0, false⟩))) ∧
    Answers (.gstat d) s (OnlyX s d (BitVec.ofNat 64 ((if s.me.graph.isSome then 2 ^ 63 else 0) + s.me.grLast * 2 ^ 48 + runs.length * 2 ^ 32 +
      match runs with | r :: _ => r.done % 2 ^ 32 | [] => 0)) s.pc4) ∧
    (s.graphBusy s.cur = false → Answers .gfree s (freed s)) ∧ (s.graphBusy s.cur = true → Answers .gfree s (Stalls s .gfree)) ∧
    (∀ p, s.waitOf p = some .gfree → (s.graphBusy p = false → AnswersFor (.graphRelease p) s p freed) ∧ (s.graphBusy p = true → Idle (.graphRelease p) s)) ∧
    (∀ p o g stns, s.ops.find? (fun o => o.plane == p && o.kind.isGraph) = some o → o.kind = .gload g stns →
      Answers (.gloadInstall p) s (OpDone (s.modPlane p fun q => { q with graph := some (g, stns) }) p o.n o.seq)) ∧
    (∀ p seq r bs qs, s.op? p n seq = some ⟨p, n, seq, .grun r⟩ → s.holdsSlot p = true → r.bad = false → r.done < r.count → s.pend = [] → s.MemInv →
      let g := r.graph
      let outs := (g.eval ((unitsOf g.isize g.nin bs).map fun v => (BitVec.ofNat (8 * g.isize) v).toInt)).flatMap fun v => leBytes 4 (BitVec.ofInt 32 v).toNat
      s.engineRead r.xl (ringAddrs (r.src + r.done * (g.nin * g.isize)) (g.nin * g.isize)) = some (bs, s) →
      s.heldPlaces r.xl (ringAddrs (r.dst + r.done * (4 * g.outs.length)) (4 * g.outs.length)) = some qs → s.writeFails qs = false →
      (qs.map (·.pa)).Nodup → Answers (.graphRunComplete p n seq 1) s fun t => ∃ s1, OnlyStored s s1 ∧
        (∀ q v, (q, v) ∈ qs.zip outs → q.pa ∉ summaryBytes qs → t.byte q.pa = v) ∧
        (∀ x, x ∉ qs.map (·.pa) → x ∉ summaryBytes qs → t.byte x = s.byte x) ∧
        (r.done + 1 = r.count → OpDone (s1.modPlane p fun q => { q with grLast := 0 }) p n seq t) ∧
        (r.done + 1 < r.count → t.op? p n seq = some ⟨p, n, seq, .grun { r with done := r.done + 1 }⟩ ∧ { t with ops := s1.ops } = s1))) ∧
  ∀ (g : Graph) (x : List Int) (j : Nat) (nd : GNode), g.nodes[j]? = some nd →
    let vals := graphNodes x g.nodes []
    let val (k : Nat) : Int := if k < 0x4000 then (x[k]?).getD 0 else (vals[k - 0x4000]?).getD 0
    let part (neg : Bool) (k sh : Nat) : Int := (if neg then -1 else 1) * (val k * 2 ^ sh)
    (nd.srca < 0x4000 ∨ nd.srca < 0x4000 + j) → (nd.srcb < 0x4000 ∨ nd.srcb < 0x4000 + j) →
    vals[j]? = some (BitVec.ofInt 32 (part nd.nega nd.srca nd.sha + part nd.negb nd.srcb nd.shb)).toInt

/-- O47. RTCFG makes a table under the lowest free number, status 1 where none or too few entries are free; RTUPD replaces an id’s replica set and advances its version; RHOT takes the lowest HOT id; RSCFG sets policy and inbox. RECV hands out the head slot once delivered and FULL, else stalls (.NB writes 0). RRET frees a handed-out slot, empties its granules and issues the return; ROUTE takes the lowest free riddling-table entry and issues; RSTAT reads them, released where the timer is past TMO. RECV_WAKE ends a waiting RECV. What the spec leaves open or to inference here is the model’s, as in log 31, log 32. (from 23 R349, 23 R350, 23 R351, 23 R352, 23 R353, 23 R354, 23 R355, 23 R356, 23 R361, 23 Table 23-8, 23 Table 23-14) -/
def Obligations.RouteInstructions : Prop :=
  ∀ (s : State) (d a b : XReg) (n : TReg),
    let xa := (s.getX a).toNat
    let xb := (s.getX b).toNat
    let wrote (s1 : State) (v : Word) (t : State) : Prop := OnlyX s1 d v s.pc4 t
    let read (at_ : Word) (l v : Nat) : Prop := s.noConflict at_ l .read ∧ s.read s.myAgent at_ l .read = .ok (v, s)
    let tableSet (k : Nat) (t : Option RTable) : State := { s with tables := s.tables.setIfInBounds k t }
    (∀ h v sets, xa % 8 = 0 → read (s.getX a) 32 h →
      let nid := h / 2 ^ 16 % 2 ^ 16
      let stc := h / 2 ^ 80 % 2 ^ 16
      h % 2 ^ 16 = 1 → 1 ≤ nid → nid ≤ 4096 → h / 2 ^ 96 ≤ 63 → read (s.getX a + 32) (32 * nid) v → replicaSets nid (leBytes (32 * nid) v) = some sets →
      ((∀ k : Nat, s.tables[k]? ≠ some none) ∨ 4096 < s.idsUsed + nid → Answers (.rtcfg d a) s (wrote s 1)) ∧
      (∀ k : Nat, s.tables[k]? = some none → (∀ j : Nat, j < k → s.tables[j]? ≠ some none) → s.idsUsed + nid ≤ 4096 →
        Answers (.rtcfg d a) s (wrote { tableSet k (some ⟨s.nextTable, s.me.coh, s.rootOfPlane s.cur, h / 2 ^ 32 % 2 ^ 32, h / 2 ^ 64 % 2 ^ 16,
          if stc = 0xFFFF then s.me.coh else stc, h / 2 ^ 96, sets.map fun e => ⟨e, 0, 0, false⟩⟩) with nextTable := s.nextTable + 1 } (BitVec.ofNat 64 (256 * k))))) ∧
    (s.rtable? s.cur (xa % 256) = none → Answers (.rtcfgRel d a) s (wrote s 3) ∧ Answers (.rhot d a) s (wrote s 0)) ∧
    (∀ t, s.rtable? s.cur (xa % 256) = some t →
      Answers (.rtcfgRel d a) s (wrote (tableSet (xa % 256) none) 0) ∧
      ((∀ r ∈ t.ids, r.hot = false) → Answers (.rhot d a) s (wrote s 0)) ∧
      (∀ id r, t.ids[id]? = some r → r.hot = true → (∀ j q, j < id → t.ids[j]? = some q → q.hot = false) → Answers (.rhot d a) s
        (wrote (tableSet (xa % 256) (some { t with ids := t.ids.modify id fun r => { r with hot := false, hits := 0 } }))
          (BitVec.ofNat 64 (2 ^ 63 + r.hits * 65536 + id))))) ∧
    (∀ v eps, xa = xa % 256 + 65536 * (xa / 65536 % 4096) → xb % 8 = 0 → read (s.getX b) 32 v → replicaSet (leBytes 32 v) = some eps → s.releaseReady = true →
      let k := xa % 256
      let id := xa / 65536 % 4096
      (s.rtable? s.cur k = none → Answers (.rtupd d a b) s (wrote s 1)) ∧
      ∀ t, s.rtable? s.cur k = some t →
        (t.ids[id]? = none → Answers (.rtupd d a b) s (wrote s 2)) ∧
        ∀ r, t.ids[id]? = some r →
          let ver := (r.ver + 1) % 65536
          let t2 : RTable := { t with ids := t.ids.set id { r with eps := eps, ver := ver } }
          Answers (.rtupd d a b) s (wrote (tableSet k (some t2)) (BitVec.ofNat 64 (65536 * ver)))) ∧
    (xa ≤ 2 → xb < 2 ^ 40 → Answers (.rscfg a b) s fun t => t.me.policy = xa ∧ t.me.tmo = xb ∧ GoesOn t s.pc4 ∧ OnlyMe s t ∧
      SameButPc s.me { t.me with policy := s.me.policy, tmo := s.me.tmo }) ∧
    ((∀ ib, s.me.inbox = some ib → ∀ x ∈ ib.slots, x = .free) →
      let made (ib : Option Inbox) (t : State) : Prop := t.me.inbox = ib ∧ GoesOn t s.pc4 ∧ SameButPc s.me { t.me with inbox := s.me.inbox }
      (xa = 0 → xb = 0 → Answers (.rscfgInbox a b) s fun t => made none t ∧ OnlyMe s t) ∧
      (∀ nslot sz, xb = nslot + 65536 * sz → 1 ≤ nslot → nslot ≤ 256 → 2 ≤ sz → sz ≤ 257 → xa % 64 = 0 → 2 ^ 63 ≤ xa →
        FailsAs (.rscfgInbox a b) s (match s.quotaFault? xa (nslot * sz * 64) with | some e => .error e | none => .ok ())) ∧
      (∀ ps nslot sz, xb = nslot + 65536 * sz → 1 ≤ nslot → nslot ≤ 256 → 2 ≤ sz → sz ≤ 257 → xa % 64 = 0 → 2 ^ 63 ≤ xa →
        xa - 2 ^ 63 + nslot * sz * 64 ≤ s.me.qsize * 65536 → s.localPlaces xa (nslot * sz * 64) = .ok ps → (∀ p ∈ ps, p.kind = .spad) → Answers (.rscfgInbox a b) s fun t =>
          made (some ⟨xa - 2 ^ 63, sz * 64, List.replicate nslot .free, 0, 0⟩) t ∧ (∀ p ∈ ps, t.feGet p = false) ∧ OnlyMe s { t with full := s.full } ∧
          ∀ q : Place, q.kind = .spad → (∀ p ∈ ps, p.pa / 16 ≠ q.pa / 16) → t.feGet q = s.feGet q)) ∧
    (∀ ib, s.me.inbox = some ib →
      let handed (u t : State) : Prop := wrote { u with planes := u.planes.set u.cur { u.me with inbox := t.me.inbox } }
          (BitVec.ofNat 64 (2 ^ 63 + ib.base + ib.head * ib.slotBytes)) t ∧ ∃ ib2 h, t.me.inbox = some ib2 ∧ ib.slots[ib.head]? = some (.delivered h) ∧
          ib2 = { ib with slots := ib.slots.set ib.head (.handed h), head := (ib.head + 1) % ib.slots.length }
      (s.headReady ib = true → Answers (.recv d) s (handed s) ∧ Answers (.recvNb d) s (handed s)) ∧
      (s.headReady ib = false → Answers (.recv d) s (Stalls s (.recv d)) ∧ Answers (.recvNb d) s (wrote s 0)) ∧
      (s.waitOf s.cur = some (.recv d) → (s.headReady ib = true → Answers (.recvWake s.cur) s (handed s)) ∧
        (s.headReady ib = false → Answers (.recvWake s.cur) s (Stalls s (.recv d)))) ∧
      ∀ k h ps, ib.handedAt xb = some (k, h) → s.hasIssue n → s.releaseReady = true → s.localPlaces (ib.slotVa k) ib.slotBytes = .ok ps →
        (∀ p ∈ ps, p.kind = .spad) →
        let bytes := h.nout * (if h.rettag = 0x0A then 4 else 2)
        let returned (row : Nat) (err : Bool) (xl : List XFrame) (t : State) : Prop := ∃ s0 s1, { s0 with full := s.full } =
            s.modMe (fun p => { p with inbox := some { ib with slots := ib.slots.set k .free } }) ∧ (∀ p ∈ ps, s0.feGet p = false) ∧
          (∀ q : Place, q.kind = .spad → (∀ p ∈ ps, p.pa / 16 ≠ q.pa / 16) → s0.feGet q = s.feGet q) ∧
          OpIssued s0 n (.rret h row err xl) s1 ∧ OnlyPc s1 s.pc4 t
        (∀ xl, s.walkRange s.myAgent .read xa bytes = .ok xl → Answers (.rret a b n) s (returned xa false xl)) ∧
        Answers (.rretErr b n) s (returned 0 true [])) ∧
    (∀ v t xl e, xa % 8 = 0 → read (s.getX a) 64 v →
      let f (o l : Nat) : Nat := v / 2 ^ (8 * o) % 2 ^ (8 * l)
      let m := xb
      let pitch := (BitVec.ofNat 64 (f 8 8)).toInt
      let row (i : Nat) : Nat := (((f 0 8 : Int) + i * pitch) % (2 ^ 64 : Nat)).toNat
      s.rtable? s.cur (f 0x30 1) = some t → 1 ≤ m → m ≤ 512 → f 0x10 8 % 8 = 0 → 2 ^ 63 ≤ f 0x18 8 → f 0x18 8 % 64 = 0 → f 0x28 4 % 64 = 0 →
      4 * f 0x2E 2 ≤ f 0x28 4 → f 0x2C 2 % 64 = 0 → 1 ≤ f 0x2C 2 → f 0x2C 2 ≤ 16384 → f 0x2E 2 % 16 = 0 → 1 ≤ f 0x2E 2 → f 0x2E 2 ≤ 4096 →
      1 ≤ f 0x31 1 → f 0x31 1 ≤ f 0x32 1 → f 0x32 1 ≤ 4 → (f 0x33 1 = 0x0A ∨ f 0x33 1 = 0x0B) → v / 2 ^ (8 * 0x34) = 0 →
      joinWalks ((List.range m).map (fun i => s.walkRange s.myAgent .read (row i) (f 0x2C 2)) ++
        [s.walkRange s.myAgent .read (f 0x10 8) (8 * f 0x32 1 * m), s.walkRange s.myAgent .write (f 0x18 8) (m * f 0x28 4),
         s.walkRange s.myAgent .write (f 0x20 8) m]) = .ok xl → s.hasIssue n → s.releaseReady = true → e < 64 →
      (∀ r ∈ s.routes, r.core = coreOf s.cur → r.e ≠ e) → (∀ j, j < e → ∃ r ∈ s.routes, r.core = coreOf s.cur ∧ r.e = j) →
      Answers (.route d a b n) s fun u => ∃ s1 r, OpIssued s n .route s1 ∧ u.routes = s.routes ++ [r] ∧
        OnlyX { s1 with routes := u.routes } d (BitVec.ofNat 64 e) s.pc4 u ∧
        r.core = coreOf s.cur ∧ r.e = e ∧ r.plane = s.cur ∧ r.coh = s.me.coh ∧ r.ord = s.orderOf s.me.coh ∧ r.n = n ∧ r.seq = (s.timeline s.cur n).issue + 1 ∧ r.rows = m ∧
        (∀ i, r.rowVa i = row i) ∧ r.choiceAt = f 0x10 8 ∧ r.out = f 0x18 8 ∧ r.stat = f 0x20 8 ∧ r.opitch = f 0x28 4 ∧ r.rbytes = f 0x2C 2 ∧
        r.nout = f 0x2E 2 ∧ r.table = f 0x30 1 ∧ r.k = f 0x31 1 ∧ r.kt = f 0x32 1 ∧ r.rettag = f 0x33 1 ∧ r.policy = s.me.policy ∧
        r.tmo = s.me.tmo ∧ r.sets = t.ids.map (fun x => (x.eps, x.ver)) ∧ r.xl = xl ∧ r.st = .routing ∧ r.row = 0 ∧ r.choice = 0 ∧ r.outst = [] ∧
        r.status = List.replicate m 0 ∧ r.timedOut = false ∧ r.tgen = t.gen ∧ r.cleared = false ∧ r.holding = false ∧ s.routeClk r = 0) ∧
    ((∀ r, s.route? (coreOf s.cur) xa = some r → r.plane ≠ s.cur) → Answers (.rstat d a) s (wrote s 0)) ∧
    (∀ x, s.route? (coreOf s.cur) xa = some x → x.plane = s.cur →
      let r : RouteEnt := if s.timerAt x (x.tmo + 1) = true then { x with st := .released, timedOut := true, outst := [] } else x
      Answers (.rstat d a) s (wrote s (BitVec.ofNat 64 (2 ^ 63 +
      (match r.st with | .routing => 1 | .waiting => 2 | .released => 3) * 2 ^ 60 + (if r.timedOut then 2 ^ 59 else 0) + r.drops % 4096 * 2 ^ 36 +
      r.outst.length % 4096 * 2 ^ 24 + r.done % 4096 * 2 ^ 12 + (r.rows - 1))))) ∧
    Answers (.rstatLate d) s (wrote s s.me.late)

/-- O48. ROUTE_PLACEMENT clears OUT, then, until the timer is past TMO, places the next choice: 0xFFFF passes, an unknown id or no usable endpoint marks NOEXP, a usable endpoint with a free slot gets header and row with every granule FULL, a full one is dropped, passed to a spare, or waited for, which ROUTE_WAIT_DELIVERY ends; at an evicted expert whose inbox suits a slot is allocated and the route held. RETURN_APPLY adds weight × result to OUT, one rounding an element, or counts the return late, also where another cohort has taken the router’s number. ROUTE_TIMEOUT releases after TMO; ROUTE_COMPLETE writes STAT, frees the entry and counts the operation. What the spec leaves open or to inference here is the model’s, as in log 31, log 49, log 69. (from 23 R351, 23 R353, 23 R357, 23 R358, 23 R360, 23 Table 23-10, 23 Table 23-12, 23 Table 23-13, 27 R392) -/
def Obligations.RouteWork : Prop :=
  ∀ (s : State) (r : RouteEnt),
    let settled (q : RouteEnt) : RouteEnt :=
      if q.rows ≤ q.row then { q with st := if q.outst = [] then .released else .waiting } else q
    let next (q : RouteEnt) : RouteEnt :=
      settled (if q.choice + 1 < q.k then { q with choice := q.choice + 1 } else { q with row := q.row + 1, choice := 0, used := [] })
    let marked (q : RouteEnt) (row bits : Nat) : RouteEnt := { q with status := q.status.modify row fun b => Nat.lor b bits }
    let set (q : RouteEnt) (u t : State) : Prop := t.route? r.core r.e = some q ∧ { t with routes := u.routes } = u ∧
      t.routes.filter (fun x => !(x.core == r.core && x.e == r.e)) = s.routes.filter (fun x => !(x.core == r.core && x.e == r.e))
    let bytesAt (va n : Nat) (bs : List Byte) : Prop := s.engineRead r.xl (addrs va n) = some (bs, s)
    let root := s.rootOfPlane r.plane
    let away (q : PlaneId) : Prop := ∃ c ∈ s.cohorts, c.st = .evicted ∧ rootOf c.rcd.xroot = root ∧ ∃ (i k : Nat) (e : EngCtx) (ib : Inbox),
      c.planes[i]? = some q ∧ c.saved[i]? = some k ∧ s.parked[k]? = some e ∧ e.pl.inbox = some ib ∧ r.rbytes + 64 ≤ ib.slotBytes
    let header (c w id ver : Nat) : List Byte := leBytes 4 w ++ leBytes 2 id ++ leBytes 2 r.row ++ leBytes 1 c ++ leBytes 1 r.e ++
      leBytes 2 r.plane.val ++ leBytes 2 r.rbytes ++ leBytes 2 r.nout ++ leBytes 1 r.rettag ++ leBytes 1 0 ++ leBytes 2 ver ++ leBytes 44 0
    let counted (id : Nat) (t : State) : Prop := ∀ tb x, s.tables[r.table]? = some (some tb) →
      (tb.gen ≠ r.tgen → t.tables = s.tables) ∧
      (tb.gen = r.tgen → tb.ids[id]? = some x → ∃ tb2, t.tables[r.table]? = some (some tb2) ∧ { tb2 with ids := tb.ids } = tb ∧
        let hits := min (x.hits + 1) (2 ^ 32 - 1)
        tb2.ids = tb.ids.set id { x with hits := hits, hot := x.hot || (tb.thresh != 0 && hits == tb.thresh && x.hits != hits) })
    let cleared (u t : State) : Prop := (r.cleared = true → t.mem = u.mem) ∧
      (r.cleared = false → ∀ qs, s.heldPlaces r.xl ((List.range r.rows).flatMap fun i => addrs (r.out + i * r.opitch) (4 * r.nout)) = some qs →
        (∀ q ∈ qs, q.pa ∉ summaryBytes qs → t.byte q.pa = 0) ∧ ∀ x, x ∉ qs.map (·.pa) → x ∉ summaryBytes qs → t.byte x = s.byte x)
    let ended (t : State) : Prop := cleared s t ∧ t.planes = s.planes ∧ t.route? r.core r.e = some { r with
      st := .released
      timedOut := true
      outst := []
      holding := false
      cleared := true
      status := r.status.mapIdx fun i b => if r.row ≤ i ∨ ∃ o ∈ r.outst, o.row = i then Nat.lor b 0x20 else b }
    let slotOf (q : PlaneId) (ib : Inbox) (ps hs : List Place) : Prop := (s.plane q).inbox = some ib ∧
      s.places (s.agent q) .write false r.rbytes (ib.slotVa ib.tail + 64) none = .ok ps ∧ s.places (s.agent q) .write false 64 (ib.slotVa ib.tail) none = .ok hs ∧
      (∀ p ∈ ps ++ hs, p.kind = .spad) ∧ ((ps ++ hs).map (·.pa)).Nodup
    let delivered (q : PlaneId) (ib : Inbox) (ps hs : List Place) (c w id ver : Nat) (row : List Byte) (q2 : RouteEnt) (t : State) : Prop :=
      (∀ p v, (p, v) ∈ ps.zip row → t.byte p.pa = v) ∧ (∀ p v, (p, v) ∈ hs.zip (header c w id ver) → t.byte p.pa = v) ∧
      (∀ x, x ∉ (ps ++ hs).map (·.pa) → t.byte x = s.byte x) ∧ (∀ p ∈ ps ++ hs, t.feGet p = true) ∧
      (t.plane q).inbox = some { ib with
        slots := ib.slots.set ib.tail (.delivered ⟨w, id, r.row, c, r.e, r.plane, r.coh, r.ord, r.n, r.seq, r.rbytes, r.nout, r.rettag, ver⟩)
        tail := (ib.tail + 1) % ib.slots.length } ∧
      t.route? r.core r.e = some (next q2) ∧ counted id t
    s.route? r.core r.e = some r → s.pend = [] → s.MemInv → s.routerHere r = true →
    (r.st = .routing → s.timerAt r (r.tmo + 1) = true → ∀ pick, Answers (.routePlacement r.core r.e pick) s ended ∧
      (r.cleared = true → r.policy = 2 → r.holding = false → Answers (.routeWaitDelivery r.core r.e pick) s ended)) ∧
    (r.st = .routing → s.timerAt r (r.tmo + 1) = false → r.cleared = true → r.holding = true → ∀ pick,
      Idle (.routePlacement r.core r.e pick) s ∧ Idle (.routeWaitDelivery r.core r.e pick) s) ∧
    (r.st = .routing → s.timerAt r (r.tmo + 1) = false → r.cleared = false → ∀ qs pick, s.heldPlaces r.xl ((List.range r.rows).flatMap fun i => addrs (r.out + i * r.opitch) (4 * r.nout)) = some qs →
      Answers (.routePlacement r.core r.e pick) s fun t => (∀ q ∈ qs, q.pa ∉ summaryBytes qs → t.byte q.pa = 0) ∧
        (∀ x, x ∉ qs.map (·.pa) → x ∉ summaryBytes qs → t.byte x = s.byte x) ∧ t.route? r.core r.e = some { r with cleared := true } ∧ t.planes = s.planes) ∧
    (r.st = .routing → s.timerAt r (r.tmo + 1) = false → r.holding = false → r.cleared = true → ∀ pick bs, bytesAt (r.choiceAt + 8 * (r.kt * r.row + r.choice)) 8 bs →
      let w := leNat bs % 2 ^ 32
      let id := leNat bs / 2 ^ 32 % 2 ^ 16
      let high := leNat bs / 2 ^ 48
      let placed : Instr := .routePlacement r.core r.e pick
      (id = 0xFFFF → Answers placed s (set (next r) s)) ∧
      (id ≠ 0xFFFF → high ≠ 0 ∨ r.sets[id]? = none → Answers placed s (set (next (marked r r.row 0x40)) s)) ∧
      (∀ eps ver, id ≠ 0xFFFF → high = 0 → r.sets[id]? = some (eps, ver) →
        let us := eps.filter fun p => s.usable root r.rbytes p
        let fs := us.filter fun p => s.hasSlot p
        (∀ q row ib ps hs, fs[pick % max 1 fs.length]? = some q → bytesAt (r.rowVa r.row) r.rbytes row → slotOf q ib ps hs →
          Answers placed s (delivered q ib ps hs r.choice w id ver row { r with outst := r.outst ++ [⟨r.row, r.choice, w⟩] }) ∧
          (r.policy = 2 → Answers (.routeWaitDelivery r.core r.e pick) s
            (delivered q ib ps hs r.choice w id ver row { r with outst := r.outst ++ [⟨r.row, r.choice, w⟩] }))) ∧
        (∀ q coh j pl ib row, fs = [] → eps.findSome? (fun p => (s.awaySlot root r.rbytes p).map fun x => (p, x)) = some (q, coh, j) →
          s.parked[j]? = some pl → pl.pl.inbox = some ib → bytesAt (r.rowVa r.row) r.rbytes row → Answers placed s fun t =>
            let h : SlotHdr := ⟨w, id, r.row, r.choice, r.e, r.plane, r.coh, r.ord, r.n, r.seq, r.rbytes, r.nout, r.rettag, ver⟩
            t.awayRows = s.awayRows ++ [⟨coh, q, ib.tail, h, row⟩] ∧ (∀ x, t.byte x = s.byte x) ∧ counted id t ∧
            t.route? r.core r.e = some { r with outst := r.outst ++ [⟨r.row, r.choice, w⟩], holding := true } ∧
            ∃ pl2, t.parked[j]? = some pl2 ∧ pl2.pl.inbox = some { ib with
              slots := ib.slots.set ib.tail (.delivered h), tail := (ib.tail + 1) % ib.slots.length }) ∧
        (fs = [] → (∀ q ∈ eps, s.awaySlot root r.rbytes q = none) → (∃ q ∈ eps, away q) → Idle placed s) ∧
        (fs = [] → (∀ q ∈ eps, ¬ away q) →
          (us = [] → Answers placed s (set (next (marked r r.row 0x40)) s)) ∧
          (us ≠ [] → r.policy = 0 → Answers placed s (set (next { marked r r.row 0x10 with drops := r.drops + 1 }) s)) ∧
          (us ≠ [] → r.policy = 2 → Idle placed s ∧ Idle (.routeWaitDelivery r.core r.e pick) s) ∧
          (us ≠ [] → r.policy = 1 → (s.nextSpare r pick (indices r.k r.kt) = none → Answers placed s (set (next { marked r r.row 0x10 with drops := r.drops + 1 }) s)) ∧
            ∀ c q w id ver row ib ps hs, s.nextSpare r pick (indices r.k r.kt) = some (c, q, w, id, ver) → bytesAt (r.rowVa r.row) r.rbytes row → slotOf q ib ps hs →
              Answers placed s (delivered q ib ps hs c w id ver row { r with used := c :: r.used, outst := r.outst ++ [⟨r.row, c, w⟩] }))))) ∧
    (r.st ≠ .released → (r.tmo = 0 ∨ s.routeClk r < r.tmo → Idle (.routeTimeout r.core r.e) s) ∧
      (1 ≤ r.tmo → r.tmo ≤ s.routeClk r → Answers (.routeTimeout r.core r.e) s ended)) ∧
    (r.st = .released → ∀ qs, s.heldPlaces r.xl (addrs r.stat r.rows) = some qs → (qs.map (·.pa)).Nodup → Answers (.routeComplete r.core r.e) s fun t =>
      (∀ q b, (q, b) ∈ qs.zip r.status → q.pa ∉ summaryBytes qs → t.byte q.pa = BitVec.ofNat 8 b) ∧
      (∀ x, x ∉ qs.map (·.pa) → x ∉ summaryBytes qs → t.byte x = s.byte x) ∧ t.ops = s.otherOps r.plane r.n r.seq ∧
      t.timeline r.plane r.n = (s.timeline r.plane r.n).complete r.seq 1 ∧ t.route? r.core r.e = none) ∧
    ∀ (p : PlaneId) (n : TReg) (seq : Nat) (h : SlotHdr) (row : Nat) (err : Bool) (xl : List XFrame) (bs : List Byte),
      s.op? p n seq = some ⟨p, n, seq, .rret h row err xl⟩ →
      (if err then bs = [] else s.engineRead xl (addrs row (h.nout * (if h.rettag = 0x0A then 4 else 2))) = some (bs, s)) →
      (∀ c ∈ s.cohorts, c.num = h.rcoh → c.order = h.rord → c.st ≠ .evicted) →
      let same : Prop := ∃ c ∈ s.cohorts, c.num = h.rcoh ∧ c.order = h.rord
      let mine (x : RouteEnt) : Bool := x.plane == h.router && x.coh == h.rcoh && x.ord == h.rord && x.n == h.n && x.seq == h.seq
      let late : State := if (s.plane h.router).st ≠ .free ∧ (s.plane h.router).coh = h.rcoh ∧ ∃ c ∈ s.cohorts, c.num = h.rcoh ∧ c.order = h.rord then s.modPlane h.router fun q => { q with late := q.late + 1 } else s
      (s.routes.find? mine = none → Answers (.returnApply p n seq) s (OpDone late p n seq)) ∧
      (s.routes.find? mine = some r → s.timerAt r (r.tmo + 1) = false → (∀ o ∈ r.outst, o.row = h.row → o.choice ≠ h.choice) → Answers (.returnApply p n seq) s (OpDone late p n seq)) ∧
      (s.routes.find? mine = some r → s.timerAt r (r.tmo + 1) = true → Answers (.returnApply p n seq) s fun t =>
        cleared s t ∧ t.ops = s.otherOps p n seq ∧ (∃ q, t.route? r.core r.e = some q ∧ q.st = .released ∧ q.timedOut = true ∧ q.outst = []) ∧
        ((s.plane h.router).st ≠ .free → (s.plane h.router).coh = h.rcoh → same → (t.plane h.router).late = (s.plane h.router).late + 1)) ∧
      ∀ o, s.routes.find? mine = some r → s.timerAt r (r.tmo + 1) = false → r.outst.find? (fun o => o.row == h.row && o.choice == h.choice) = some o →
        let q : RouteEnt := { marked r o.row (if err then 0x80 else 2 ^ o.choice) with outst := r.outst.erase o, done := r.done + 1 }
        let q2 : RouteEnt := if r.st = .released then q else settled q
        (err = true → Answers (.returnApply p n seq) s fun t => ∃ s1, set q2 s s1 ∧ OpDone s1 p n seq t) ∧
        (∀ qs, err = false → s.heldPlaces r.xl (addrs (r.out + o.row * r.opitch) (4 * r.nout)) = some qs → (qs.map (·.pa)).Nodup →
          Answers (.returnApply p n seq) s fun t => t.route? r.core r.e = some q2 ∧ t.ops = s.otherOps p n seq ∧
            t.timeline p n = (s.timeline p n).complete seq 1 ∧ (∀ x, x ∉ qs.map (·.pa) → x ∉ summaryBytes qs → t.byte x = s.byte x) ∧
            ∀ i old v ps, i < r.nout → ps = (qs.drop (4 * i)).take 4 → (∀ y ∈ ps, y.pa ∉ summaryBytes qs ∧ s.unreadable y.pa = false) → old = leNat (ps.map fun y => s.byte y.pa) →
              (returnValues h.rettag h.nout bs)[i]? = some v →
              leNat (ps.map fun y => t.byte y.pa) = (Fp.fp32.round .rne false (fpFma .rne (Fp.fp32.value o.weight) v (Fp.fp32.value old)).1).1 % 2 ^ 32)

/-- O49. CCOMM joins a part with an equal descriptor or makes one under the lowest free number, or reports why not. CSTART issues the member’s next ordinal and records its pattern. CBIND opens the lowest free stream; CSEND and CFETCH issue the stream’s next piece; CUNBIND and CFREE end it and the membership once nothing is pending, else stall, which CUNBIND_CLOSE and CFREE_WITHDRAW end; CCANCEL ends the member’s operations with status 2; CSTAT reports. What the spec leaves open or to inference here is the model’s, as in log 41, log 42, log 43. (from 25 R362, 25 R363, 25 R364, 25 R365, 25 R366, 25 R370, 25 R372, 25 R374, 25 R375, 25 R376, 25 R377, 25 Table 25-5) -/
def Obligations.CollectiveInstructions : Prop :=
  ∀ (s : State) (d a b : XReg) (n : TReg),
    let xa := (s.getX a).toNat
    let xb := (s.getX b).toNat
    let wrote (s1 : State) (v : Nat) (t : State) : Prop := OnlyX s1 d (BitVec.ofNat 64 v) s.pc4 t
    let read (at_ : Word) (l v : Nat) : Prop := s.noConflict at_ l .read ∧ s.read s.myAgent at_ l .read = .ok (v, s)
    let given (c : CommPart) : Nat := c.num * 256 + (if c.mode then 2 ^ 16 else 0) + c.rank s.pkg s.cur % 2 ^ 16 * 2 ^ 32
    let quiet (p : PlaneId) (k : Nat) : Prop := ∀ o ∈ s.ops, o.plane = p → ∀ va xl, o.kind ≠ .csend k va xl ∧ o.kind ≠ .cfetch k va xl
    (∀ v slot fl c0 e, xa % 8 = 0 → read (s.getX a) 64 v → commDesc? (leBytes 64 v) = some (slot, fl, c0) →
      s.me.groupSlot (BitVec.ofNat 2 slot) = some e → s.pkg ∈ c0.pkgs →
      let mine (c : CommPart) : Bool := c.entry == e && c.key == c0.key
      (∀ c, s.comms.find? mine = some c →
        (c.raw ≠ c0.raw → Answers (.ccomm d a) s (wrote s 4)) ∧
        (c.raw = c0.raw →
          let joined := s.comms.map fun x => if x.num = c.num then CommPart.join x s.cur s.me.coh else x
          Answers (.ccomm d a) s (wrote { s with comms := joined } (given c)))) ∧
      (s.comms.find? mine = none →
        let die := if (s.group e).members.any (fun p => decide (p.val < 256)) then 0 else 1
        (∀ st, commMode fl c0.op c0.tag = .error st → Answers (.ccomm d a) s (wrote s st)) ∧
        (∀ mode, commMode fl c0.op c0.tag = .ok mode →
          ((∀ k, k < 64 → ∃ c ∈ s.comms, c.num = k) → Answers (.ccomm d a) s (wrote s 1)) ∧
          ∀ num, num < 64 → (∀ c ∈ s.comms, c.num ≠ num) → (∀ k, k < num → ∃ c ∈ s.comms, c.num = k) →
            (2 ^ 20 < s.poolUsed die c0.vc + 2 * c0.chunk → Answers (.ccomm d a) s (wrote s 5)) ∧
            (s.poolUsed die c0.vc + 2 * c0.chunk ≤ 2 ^ 20 →
              let c := { c0 with num := num, entry := e, mode := mode, die := die, planes := (s.group e).members }
              Answers (.ccomm d a) s (wrote { s with comms := s.comms ++ [c.join s.cur s.me.coh] } (given c)))))) ∧
    (s.commOf s.cur (xa % 256) = none → Answers (.cstat d a) s (wrote s 0) ∧ Answers (.ccancel d a) s (wrote s 6) ∧
      ((∀ d' k, s.me.wait ≠ some (.cfree d' k)) → xa < 256 → Answers (.cfree d a) s (wrote s 6))) ∧
    (∀ c m, s.commOf s.cur (xa % 256) = some (c, m) →
      let rank := c.rank s.pkg s.cur
      let size := c.size s.pkg
      Answers (.cstat d a) s (wrote s (2 ^ 63 + (if c.mode then 2 ^ 62 else 0) + (if c.isJoined s.pkg then 2 ^ 61 else 0) + m.last * 2 ^ 48 +
        min 255 (s.commOps s.cur c.num + (s.commStreams s.cur c.num).length) * 2 ^ 32 + c.vc * 2 ^ 24 + c.prio * 2 ^ 16 + size % 2 ^ 16)) ∧
      let live (k : Nat) : Bool := match (s.me.streams[k]?).join with | some st => !st.zero | none => false
      let ended := (s.ops.filter fun o => o.plane == s.cur && s.commOfOp o == some c.num && match o.kind with
        | .cstart x => (match c.job? x.ord with | some j => j.status.isNone | none => true)
        | .csend k _ _ => live k
        | .cfetch k _ _ => live k
        | _ => false).length
      Answers (.ccancel d a) s (fun t => ∃ s1, wrote s1 (ended % 2 ^ 32 * 2 ^ 16) t ∧ s1.ops = s.ops ∧ s1.mem = s.mem ∧
        (∀ c2, s1.comm? c.num = some c2 → ∀ (i : Nat) (j : CollJob), c.jobs[i]? = some j → j.ord ≤ m.issued → m.plane ∉ j.done → j.status = none →
          ∃ j2 : CollJob, c2.jobs[i]? = some j2 ∧ j2.status = some 2) ∧
        ∀ k : Nat, ∀ st, (s1.me.streams[k]?).join = some st → st.comm = c.num → st.shut = true) ∧
      ((∀ d' k, s.me.wait ≠ some (.cfree d' k)) → xa < 256 →
        (s.commBusy s.cur c.num = true → Answers (.cfree d a) s (Stalls s (.cfree d c.num))) ∧
        (s.commBusy s.cur c.num = false → Answers (.cfree d a) s fun t => ∃ s1, wrote s1 0 t ∧ { s1 with comms := s.comms } = s ∧
          s1.commOf s.cur c.num = none)) ∧
      (∀ v xl, xb % 8 = 0 → read (s.getX b) 64 v →
        let f (o l : Nat) : Nat := v / 2 ^ (8 * o) % 2 ^ (8 * l)
        let pat := f 0 1
        let root := f 2 2
        let src := f 8 8
        let dst := f 16 8
        let count := f 24 8
        let es := tagBytes c.tag
        let sb := collSrc pat root rank size count * es
        let db := collDst pat root rank size count * es
        let counts := if f 48 8 = 0 then 0 else if c.cntblk then (db / es + 31) / 32 else db / es
        let op : CollStart := ⟨c.num, m.issued + 1, pat, root, src, dst, count, f 32 4, f 40 8, f 48 8, sb, db, [], xl⟩
        pat ≤ 5 → f 1 1 = 0 → f 4 4 = 0 → f 36 4 = 0 → f 56 8 = 0 → root < size → (root = 0 ∨ pat = 3 ∨ pat = 4) → src % es = 0 → dst % es = 0 →
        count ≤ 2 ^ 34 → (count = 0 ↔ pat = 5) → (pat = 5 → src = 0 ∧ dst = 0) → (pat = 3 → rank ≠ root → src = 0) → (pat = 4 → rank ≠ root → dst = 0) →
        f 32 4 % 64 = 0 → f 40 8 % 8 = 0 → f 48 8 % 2 = 0 → (f 48 8 ≠ 0 → c.nanskip = true) →
        (sb = 0 ∨ db = 0 ∨ src + sb ≤ dst ∨ dst + db ≤ src ∨ (pat = 0 ∧ src = dst)) →
        joinWalks [s.walkRange s.myAgent .read src sb, s.walkRange s.myAgent .write dst db, s.walkRange s.myAgent .write (f 48 8) (2 * counts),
          s.walkExtent s.myAgent .rmw true (f 40 8) (if f 40 8 = 0 then 0 else 8)] = .ok xl → s.hasIssue n → s.releaseReady = true →
        Answers (.cstart d a b n) s fun t => ∃ s1, OpIssued s n (.cstart op) s1 ∧
          wrote { s1 with comms := t.comms } ((m.issued + 1) % 2 ^ 32) t ∧
          (∃ c2 j, t.commOf s.cur c.num = some (c2, { m with issued := m.issued + 1 }) ∧ c2.job? (m.issued + 1) = some j ∧
            (rank, [pat, root, count]) ∈ j.recs)) ∧
      (∀ v st, xb % 8 = 0 → read (s.getX b) 32 v → s.me.vq = [] → streamRec? (leBytes 32 v) (xa % 256) (m.bound + 1) rank size c.tag = some st →
        (∀ r, st.vreg = some r → r % 2 ^ st.lg = 0 ∧ s.me.boundTo [(r, 2 ^ st.lg)] = []) →
        ((∀ k : Nat, k < 16 → ((s.me.streams[k]?).join).isSome = true) → Answers (.cbind d a b) s (wrote s 7)) ∧
        ∀ k : Nat, k < 16 → (s.me.streams[k]?).join = none → (∀ j : Nat, j < k → ((s.me.streams[j]?).join).isSome = true) →
          Answers (.cbind d a b) s fun t => t.getX d = (if d = 0 then 0 else BitVec.ofNat 64 (256 * k)) ∧ GoesOn t s.pc4 ∧
            (∃ x, (t.me.streams[k]?).join = some x ∧ { x with zero := false } = st) ∧ t.mem = s.mem ∧ t.ops = s.ops ∧
            ∃ c2 j, t.commOf s.cur c.num = some (c2, { m with bound := m.bound + 1 }) ∧ c2.stream? st.ord = some j ∧
              (rank, [st.pattern, st.root, st.piece, st.npiece]) ∈ j.recs)) ∧
    (∀ v, xb % 8 = 0 → read (s.getX b) 32 v → s.me.vq = [] → s.commOf s.cur (xa % 256) = none → Answers (.cbind d a b) s (wrote s 6)) ∧
    (∀ k st xl, xa = k → k < 16 → s.stream? k = some st → st.vreg = none → xb % tagBytes st.tag = 0 → s.hasIssue n → s.releaseReady = true →
      let issues (st2 : Stream) (kind : OpKind) (t : State) : Prop := ∃ s1,
        OpIssued (s.modMe fun p => { p with streams := p.streams.setIfInBounds k (some st2) }) n kind s1 ∧ OnlyPc s1 s.pc4 t
      (st.contrib = true → st.sent < st.npiece → s.walkRange s.myAgent .read xb (st.piece * tagBytes st.tag) = .ok xl →
        Answers (.csend a b n) s (issues { st with sent := st.sent + 1 } (.csend k xb xl))) ∧
      (st.consume = true → st.taken < st.npiece → s.walkRange s.myAgent .write xb (st.piece * tagBytes st.tag) = .ok xl →
        Answers (.cfetch a b n) s (issues { st with taken := st.taken + 1 } (.cfetch k xb xl)))) ∧
    (∀ k st, s.stream? k = some st →
      let closed (u : State) (t : State) : Prop := OnlyX (u.modMe fun p => { p with streams := p.streams.setIfInBounds k none }) d
        (BitVec.ofNat 64 st.arrived.length) u.pc4 t
      let idle : Prop := s.me.vq = [] ∧ quiet s.cur k ∧ st.out = []
      (k = xa % 16 → (∀ d' j, s.me.wait ≠ some (.cunbind d' j)) →
        (idle → Answers (.cunbind d a) s (closed s)) ∧ (¬ idle → Answers (.cunbind d a) s (Stalls s (.cunbind d k)))) ∧
      (s.waitOf s.cur = some (.cunbind d k) →
        (idle → Answers (.cunbindClose s.cur) s (closed s)) ∧ (¬ idle → Answers (.cunbindClose s.cur) s (Stalls s (.cunbind d k))))) ∧
    (∀ num c m, s.waitOf s.cur = some (.cfree d num) → s.commOf s.cur num = some (c, m) →
      (s.commBusy s.cur num = true → Answers (.cfreeWithdraw s.cur) s (Stalls s (.cfree d num))) ∧
      (s.commBusy s.cur num = false → Answers (.cfreeWithdraw s.cur) s fun t => ∃ s1, wrote s1 0 t ∧ { s1 with comms := s.comms } = s ∧
        s1.commOf s.cur num = none))

/-- O50. COMMUNICATOR_JOIN notes a package’s part; what is ready of a joined communicator queues at its die’s engine, lower numbers first; CHUNK_SEND lets the queue of highest priority send its head chunk, the next bytes of every local member, or ends the operation with MEMERR where no message gets through; CHUNK_ARRIVAL brings a remote member’s record, chunk, piece or end; TILE_LAND writes a tile of the output, its count entries and then bumps the arrival counter; STREAM_PIECE_DELIVER hands the next piece to a consumer; CSTART_COMPLETE counts an operation with its status once it is ended or all is landed, sends a CSEND’s piece and stores a CFETCH’s. An integer sum is exact modulo the width, with its count the number of members. What the spec leaves open or to inference here is the model’s, as in log 41, log 42, log 43. (from 25 R362, 25 R367, 25 R368, 25 R369, 25 R370, 25 R371, 25 R373, 25 R374, 25 R377, 25 R378) -/
def Obligations.CollectiveWork : Prop :=
  (∀ (s : State) (num : Nat) (c : CommPart), s.comm? num = some c → s.MemInv →
    let other (r : Nat) : Prop := r < c.base s.pkg ∨ c.base s.pkg + c.planes.length ≤ r
    let onlyComm (c2 : CommPart) (t : State) : Prop := t.comm? num = some c2 ∧ { t with comms := s.comms } = s ∧ ∀ k, k ≠ num → t.comm? k = s.comm? k
    let job (ord : Nat) (P : CollJob → Prop) (t : State) : Prop := ∃ c2 j, onlyComm c2 t ∧ c2.job? ord = some j ∧ P j ∧ { c2 with jobs := c.jobs } = c
    let old (ord : Nat) : CollJob := (c.job? ord).getD ⟨ord, none, [], [], 0, []⟩
    let stream (ord : Nat) (P : CommStream → Prop) (t : State) : Prop := ∃ c2 j, t.comm? num = some c2 ∧ c2.stream? ord = some j ∧ P j
    let oldS (ord : Nat) : CommStream := (c.stream? ord).getD ⟨ord, none, [], []⟩
    (∀ k, k ∈ c.pkgs → k ∉ c.joined → Answers (.communicatorJoin num k) s (onlyComm { c with joined := c.joined ++ [k] })) ∧
    (∀ k, k ∉ c.pkgs ∨ k ∈ c.joined → Answers (.communicatorJoin num k) s (onlyComm c)) ∧
    (∀ ord r pat root count, other r → Answers (.chunkArrival num (.issue ord r pat root count)) s (job ord fun j =>
      j.recs = (old ord).recs ++ [(r, [pat, root, count])] ∧ j.got = (old ord).got ∧
      ((∀ x ∈ (old ord).recs, x.2 = [pat, root, count]) → j.status = (old ord).status) ∧
      ((∃ x ∈ (old ord).recs, x.2 ≠ [pat, root, count]) → j.status = some ((old ord).status.getD 1)))) ∧
    (∀ ord r bs, other r → Answers (.chunkArrival num (.chunk ord r bs)) s (job ord fun j =>
      j.gotOf r = (old ord).gotOf r ++ bs ∧ (∀ q, q ≠ r → j.gotOf q = (old ord).gotOf q) ∧ j.status = (old ord).status)) ∧
    (∀ ord st, Answers (.chunkArrival num (.stop ord st)) s (job ord fun j => j.status = some ((old ord).status.getD st) ∧ j.recs = (old ord).recs)) ∧
    (∀ ord r pat root piece npiece, other r → Answers (.chunkArrival num (.bind ord r pat root piece npiece)) s (stream ord fun j =>
      j.recs = (oldS ord).recs ++ [(r, [pat, root, piece, npiece])])) ∧
    (∀ ord r xs, other r → Answers (.chunkArrival num (.piece ord r xs)) s (stream ord fun j => ∃ g, (r, g ++ [xs]) ∈ j.got)) ∧
    (∀ ord st, Answers (.chunkArrival num (.close ord st)) s fun t => stream ord (fun j => j.status = some ((oldS ord).status.getD st)) t ∧
      ∀ (p : PlaneId) (k : Nat) (x : Stream), ((t.plane p).streams[k]?).join = some x → x.comm = num → x.ord = ord → x.zero = true ∧ x.arrived = []) ∧
    (∀ ord, .op num ord ∈ s.readyItems c ↔ c.isJoined s.pkg = true ∧ ∃ j ∈ c.jobs, j.ord = ord ∧ j.status = none ∧
      ∀ p ∈ c.planes, ∃ x, s.collOp p num ord = some x ∧
        j.chunks < max 1 ((collData x.pat (c.size s.pkg) x.count * tagBytes c.tag + c.chunk - 1) / c.chunk)) ∧
    (∀ (die : Bool) (ord : Nat) (j : CollJob) (bs : PlaneId → List Byte),
      let q : Fin 2 := if die then 1 else 0
      (s.engines.get q).queue = [.op num ord] → .op num ord ∈ s.readyItems c → c.vc < 8 →
      c.job? ord = some j → s.pend = [] → c.planes.Nodup →
      ((∃ p ∈ c.planes, ∃ x, s.collOp p num ord = some x ∧ s.sendFails c x.pat x.root = true) → Answers (.chunkSend die) s fun t =>
        { t with comms := s.comms, engines := s.engines } = s ∧ ∃ c2 j2, t.comm? num = some c2 ∧ c2.job? ord = some j2 ∧
          j2.status = some (j.status.getD 3)) ∧
      ((∀ p ∈ c.planes, ∃ x, s.collOp p num ord = some x ∧ s.sendFails c x.pat x.root = false ∧
        let l := min c.chunk (x.srcBytes - j.chunks * c.chunk)
        if l = 0 then bs p = [] else s.engineRead x.xl (ringAddrs (x.src + j.chunks * c.chunk) l) = some (bs p, s)) →
      Answers (.chunkSend die) s fun t => (t.engines.get q).queue = [.op num ord] ∧
        { t with comms := s.comms, engines := s.engines } = s ∧ ∃ c2 j2, t.comm? num = some c2 ∧ c2.job? ord = some j2 ∧ j2.chunks = j.chunks + 1 ∧
          j2.status = j.status ∧ ∀ p ∈ c.planes, j2.gotOf (c.rank s.pkg p) = j.gotOf (c.rank s.pkg p) ++ bs p)) ∧
    (∀ (p : PlaneId) (n : TReg) (seq tile : Nat) (x : CollStart) (j : CollJob) (ys : List (Nat × Nat)) (ds cs as : List Place),
      let es := tagBytes c.tag
      let width := if x.tile = 0 then x.dstBytes else x.tile
      let lo := tile * width / es
      let hi := min ((tile + 1) * width) x.dstBytes / es
      let entries : List (Nat × Nat) := if x.cnt = 0 then [] else if c.cntblk
        then (List.range ((hi + 31) / 32 - lo / 32)).map fun b => (lo / 32 + b, ((ys[(lo / 32 + b) * 32 - lo]?).map (·.2)).getD 0)
        else ys.zipIdx.map fun y => (lo + y.2, y.1.2)
      s.op? p n seq = some ⟨p, n, seq, .cstart x⟩ → x.comm = num → c.job? x.ord = some j → j.status = none → tile < x.tiles → tile ∉ x.landed →
      c.size s.pkg ≤ j.recs.length → s.pend = [] → c.output s.pkg s.free j x.pat x.root (c.rank s.pkg p) x.count lo hi = some ys →
      s.heldPlaces x.xl (ringAddrs (x.dst + tile * width) ((hi - lo) * es)) = some ds →
      s.heldPlaces x.xl (entries.flatMap fun e => ringAddrs (x.cnt + 2 * e.1) 2) = some cs →
      s.heldPlaces x.xl (if x.acnt = 0 then [] else ringAddrs x.acnt 8) = some as → (∃ bs, s.readPlaces 0 as = .ok bs) → (∀ q ∈ cs ++ as, q.kind = .plain ∨ q.kind = .spad) →
      s.writeFails (ds ++ cs ++ as) = false → ((ds ++ cs ++ as).map (·.pa)).Nodup → 
      (∀ q ∈ ds ++ cs ++ as, q.pa ∉ summaryBytes (ds ++ cs ++ as) ++ fullBytes (ds ++ cs ++ as)) →
      Answers (.tileLand p n seq tile) s fun t => t.op? p n seq = some ⟨p, n, seq, .cstart { x with landed := x.landed ++ [tile] }⟩ ∧
        (∀ q v, (q, v) ∈ ds.zip (ys.flatMap fun y => leBytes es y.1) → t.byte q.pa = v) ∧
        (∀ q v, (q, v) ∈ cs.zip (entries.flatMap fun e => leBytes 2 e.2) → t.byte q.pa = v) ∧
        (as.map fun q => t.byte q.pa) = leBytes as.length (leNat (as.map fun q => s.byte q.pa) + 1) ∧
        (∀ q ∈ ds ++ cs ++ as, q.kind = .spad → t.feGet q = true) ∧
        (∀ a, a ∉ (ds ++ cs ++ as).map (·.pa) → a ∉ summaryBytes (ds ++ cs ++ as) ++ fullBytes (ds ++ cs ++ as) → t.byte a = s.byte a)) ∧
    (∀ (p : PlaneId) (k : Nat) (st : Stream) (j : CommStream) (xs : List Nat), ((s.plane p).streams[k]?).join = some st → st.comm = num →
      (s.plane p).st ≠ .free → st.consume = true → st.zero = false → st.delivered < st.npiece → c.stream? st.ord = some j → c.isJoined s.pkg = true →
      c.piece s.pkg s.free j st st.delivered = some xs → Answers (.streamPieceDeliver p k) s fun t =>
        ((t.plane p).streams[k]?).join = some { st with arrived := st.arrived ++ [xs], delivered := st.delivered + 1 } ∧
        (∀ q, q ≠ p → t.plane q = s.plane q) ∧ { t with planes := s.planes, free := s.free } = s) ∧
    ∀ (p : PlaneId) (n : TReg) (seq : Nat) (m : CommMember), s.member? p c = some m →
      let ended (st : Nat) (u t : State) : Prop := t.ops = s.otherOps p n seq ∧ t.timeline p n = (s.timeline p n).complete seq 1 ∧
        (∃ c2 m2, t.comm? num = some c2 ∧ t.member? p c2 = some m2 ∧ m2.last = st) ∧ (∀ a, t.byte a = u.byte a)
      (∀ x j, s.op? p n seq = some ⟨p, n, seq, .cstart x⟩ → x.comm = num → c.job? x.ord = some j →
        let all : Prop := max 1 ((collData x.pat (c.size s.pkg) x.count * tagBytes c.tag + c.chunk - 1) / c.chunk) ≤ j.chunks ∧
          x.landed.length = x.tiles ∧ c.size s.pkg ≤ j.recs.length
        (∀ st, j.status = some st → Answers (.cstartComplete p n seq) s (ended st s)) ∧
        (j.status = none → all → Answers (.cstartComplete p n seq) s (ended 0 s)) ∧
        (j.status = none → ¬ all → Idle (.cstartComplete p n seq) s)) ∧
      (∀ k va xl st bs, s.op? p n seq = some ⟨p, n, seq, .csend k va xl⟩ → ((s.plane p).streams[k]?).join = some st → st.comm = num → st.zero = false →
        s.pieceAhead p n seq k true = false → s.engineRead xl (ringAddrs va (st.piece * tagBytes st.tag)) = some (bs, s) →
        Answers (.cstartComplete p n seq) s fun t => ended 0 s t ∧
          ((t.plane p).streams[k]?).join = some { st with out := st.out ++ [unitsOf (tagBytes st.tag) st.piece bs] }) ∧
      (∀ k va xl st xs rest qs, s.op? p n seq = some ⟨p, n, seq, .cfetch k va xl⟩ → ((s.plane p).streams[k]?).join = some st → st.comm = num →
        st.zero = false → st.arrived = xs :: rest → s.pieceAhead p n seq k false = false → s.pend = [] → s.heldPlaces xl (ringAddrs va (st.piece * tagBytes st.tag)) = some qs →
        s.writeFails qs = false → (qs.map (·.pa)).Nodup → Answers (.cstartComplete p n seq) s fun t => ended 0 t t ∧
          ((t.plane p).streams[k]?).join = some { st with arrived := rest } ∧
          (∀ q v, (q, v) ∈ qs.zip (xs.flatMap fun x => leBytes (tagBytes st.tag) x) → q.pa ∉ summaryBytes qs ++ fullBytes qs →
            t.byte q.pa = v) ∧ (∀ q ∈ qs, q.kind = .spad → t.feGet q = true) ∧
          ∀ a, a ∉ qs.map (·.pa) → a ∉ summaryBytes qs ++ fullBytes qs → t.byte a = s.byte a)) ∧
  (∀ (s : State) (d : Fin 2),
    let q := (s.readyQueues.engines.get d).queue
    { s.readyQueues with engines := s.engines } = s ∧
    (∀ i, i ∈ q ↔ ∃ c, i.comm < 64 ∧ s.comm? i.comm = some c ∧ c.die = d.val ∧ i ∈ s.readyItems c) ∧
    ∃ new, q = (s.engines.get d).queue.filter (fun i => decide (i ∈ q)) ++ new ∧ new.Pairwise fun x y => x.comm ≤ y.comm) ∧
  (∀ (e : CollEngine) (qs : List (Nat × Nat × Nat)) (v : Nat) (set : List Nat) (cred : List Int), arbitrate e qs = some (v, set, cred) →
    ∃ q ∈ qs, q.1 = v ∧ ∀ q' ∈ qs, q'.2.1 ≤ q.2.1) ∧
  (∀ (c : CommPart) (own free : Nat) (j : CollJob) (root rank count lo hi : Nat) (ys : List (Nat × Nat)), c.cntblk = false →
    c.output own free j 3 root rank count lo hi = some ys → ys.length = hi - lo ∧ ∀ i, i < hi - lo →
      let v := leNat (((j.gotOf root).drop ((lo + i) * tagBytes c.tag)).take (tagBytes c.tag))
      ys[i]? = some (v, if c.isNan v then 0 else 1)) ∧
  ∀ (c : CommPart) (own free : Nat) (j : CollJob) (rank count lo hi : Nat) (ys : List (Nat × Nat)), tagIsInt c.tag = true → c.op = 0 →
    c.nanskip = false → 0 < c.size own → hi ≤ count → c.output own free j 0 0 rank count lo hi = some ys →
    ys.length = hi - lo ∧ ∀ i, i < hi - lo → ys[i]? = some
      (((List.range (c.size own)).map fun r => leNat (((j.gotOf r).drop ((lo + i) * tagBytes c.tag)).take (tagBytes c.tag))).sum % 2 ^ tagWidth c.tag,
        c.size own)

/-- O51. LAUNCH queues a checked record under the lowest free number, or writes its status, BUSY where no number is free (log 63). ADMISSION starts the first waiting launch on a permitted placement: each strand with the registers of Table 5-2, zero partitions, groups and reset watermarks. EVICTION and CONSUMER_EVICTION save a victim whose units stand at boundaries and free its planes, the latter only while no eviction that was decided on is left, RESUMPTION restores it, and an area that cannot be used ends it with CTXFAULT. RETIREMENT frees what the cohort held and reports it. What the spec leaves open or to inference here is the model’s, as in log 44, log 45, log 46, log 47, log 48, log 56, log 62, log 63. (from 05 R50 to R56, 05 R60 to R64, 05 R68, 05 R402, 11 R164, 11 R166 to R169, 11 R175, 17 R262 to R265, 05 Tables 5-2 to 5-7, 17 Table 17-8) -/
def Obligations.CohortLifecycle : Prop :=
  (∀ (s : State) (d a b : XReg) (n : TReg),
    let wrote (v : Nat) (t : State) : Prop := OnlyX s d (BitVec.ofNat 64 v) s.pc4 t
    s.releaseReady = true →
    ((s.getX a).toNat % 64 ≠ 0 → Answers (.launch d a b n) s (wrote 1)) ∧
    ∀ h v r, (s.getX a).toNat % 64 = 0 → s.noConflict (s.getX a) 128 .read → s.read s.myAgent (s.getX a) 128 .read = .ok (h, s) →
      let len := 128 + 64 * (h / 2 ^ 56 % 256) + 8 * (h / 2 ^ 264 % 256)
      s.noConflict (s.getX a) len .read → s.read s.myAgent (s.getX a) len .read = .ok (v, s) →
      (launchRec? (leBytes len v) = none → Answers (.launch d a b n) s (wrote 1)) ∧
      (launchRec? (leBytes len v) = some r →
        let c := r.status (if s.me.level = .u then some (rootOf s.me.xroot) else none)
        (c ≠ 0 → Answers (.launch d a b n) s (wrote c)) ∧
        (∀ st, c = 0 → s.wordPlace (s.getX b) = .error st → Answers (.launch d a b n) s (wrote st)) ∧
        (∀ word, c = 0 → s.wordPlace (s.getX b) = .ok word →
          (s.levelFull r.level = false → s.hasIssue n → (∀ num, num < 0xFFFF → ∃ k ∈ s.cohorts, k.num = num) →
            Answers (.launch d a b n) s (wrote 7)) ∧
          (s.levelFull r.level = true → Answers (.launch d a b n) s (wrote 7)) ∧
          (s.levelFull r.level = false → s.hasIssue n → ∀ num, num < 0xFFFF → (∀ k ∈ s.cohorts, k.num ≠ num) →
            (∀ j, j < num → ∃ k ∈ s.cohorts, k.num = j) → Answers (.launch d a b n) s fun t => ∃ s1,
              OpIssued { s with
                nextOrder := s.nextOrder + 1
                cohorts := s.cohorts ++ [⟨num, .waiting, r, .strand s.me.coh word, s.nextOrder, 0, [], [], [], List.replicate r.nstrand 0, [], none⟩] }
                n (.launch s.nextOrder) s1 ∧ OnlyX s1 d 0 s.pc4 t)))) ∧
  (∀ (s : State) (k : Cohort) (ps : List PlaneId) (bs : List Nat), s.head = some k → s.doomed = [] → k.st = .waiting → s.cohort? k.num = some k →
    s.tablesFor k.rcd = true → s.placeOk k.rcd ps bs = true → s.MemInv →
    let start (i : Nat) (p : PlaneId) : Nat := s.unitAddr (coreOf p) ((bs[i]?).getD 0)
    let inside (x : Nat) : Prop := ∃ i p, ps[i]? = some p ∧ start i p ≤ x ∧ x < start i p + k.rcd.quota * 65536
    let entries := ((List.range 256).filter fun e => (s.group e).owner.isNone).take k.rcd.groups.length
    Answers (.admission ps bs) s fun t =>
      (∀ (i : Nat) (p : PlaneId), ps[i]? = some p → (t.plane p).st = .runnable ∧ (t.plane p).coh = k.num ∧ (t.plane p).rank = i ∧ (t.plane p).pc = k.rcd.entry ∧
        (t.plane p).level = (if k.rcd.slevel then .s else .u) ∧
        (k.rcd.args.length ≤ 8 → (t.plane p).getX 9 = BitVec.ofNat 64 i ∧
          ∀ (j : Nat) w, k.rcd.args[j]? = some w → (t.plane p).getX (BitVec.ofNat 5 (10 + j)) = w) ∧
        (t.plane p).events = (k.posts[i]?).getD 0 ∧ (t.plane p).vq = [] ∧ (t.plane p).wait = none ∧ (t.plane p).tvec = 0 ∧
        (t.plane p).prio = BitVec.ofNat 64 (k.num * 2 ^ 32 + k.rcd.weight * 256 + k.rcd.level) ∧
        (t.plane p).quota = BitVec.ofNat 64 (k.rcd.quota + if k.rcd.quota = 0 then 0 else (bs[i]?).getD 0 * 2 ^ 32)) ∧
      (∀ p, p ∉ ps → t.plane p = s.plane p) ∧
      (∀ x, (inside x → t.byte x = 0 ∧ x / 16 ∉ t.full) ∧ (¬ inside x → t.byte x = s.byte x)) ∧
      (∀ (i : Nat) g e, k.rcd.groups[i]? = some g → entries[i]? = some e →
        t.group e = ⟨some k.num, (k.rcd.ranks g).filterMap fun r => ps[r]?, 0, [], false⟩) ∧
      (∀ w, w.2.2 = true → w ∈ k.rcd.wms → (t.wm (BitVec.ofNat 6 w.1)).mark = 0 ∧ (t.wm (BitVec.ofNat 6 w.1)).ranges = []) ∧
      ∃ k2, t.cohort? k.num = some k2 ∧ k2.st = .resident ∧ k2.planes = ps ∧ k2.bases = bs ∧ k2.entries = entries ∧ k2.rcd = k.rcd) ∧
  (∀ (s : State) (coh : Nat) (k : Cohort), s.cohort? coh = some k → k.planes.Nodup → (s.cohorts.map (·.num)).Nodup → s.MemInv →
    let saved := (s.modCohort coh fun k => { k with saved := [] }).saveStrands k k.planes.zipIdx
    let evicted (t : State) : Prop := (∀ p ∈ k.planes, (t.plane p).st = .free) ∧ (∀ p, p ∉ k.planes → t.plane p = s.plane p) ∧
      t.ops = s.ops.filter (fun o => !k.planes.contains o.plane) ∧ ∃ k2, t.cohort? coh = some k2 ∧ k2.st = .evicted ∧ k2.planes = k.planes ∧
      ∀ (i : Nat) p, k.planes[i]? = some p → ∃ x, k2.saved[i]? = some x ∧ ∃ ops, t.parked[x]? = some ⟨s.plane p, ops, []⟩ ∧
        ((∀ o ∈ s.ops, o.plane = p → o.kind.pairs = []) → ops = s.ops.filter fun o => o.plane == p)
    let failed (t : State) : Prop := k.ended = none → k.st ≠ .waiting → ∃ k2, t.cohort? coh = some k2 ∧ k2.ended = some (1, causeCtxfault)
    let both (i : Instr) : Prop := (∀ s1, saved = some s1 → Answers i s evicted) ∧ (saved = none → Answers i s failed)
    (coh ∈ s.decided → s.mayStop k.planes = true → both (.eviction coh)) ∧
    (coh ∉ s.decided ∨ s.mayStop k.planes = false → Idle (.eviction coh) s) ∧
    (∀ h ∈ s.cohorts, s.isStalled k h = true → s.doomed = [] → s.mayStop k.planes = true → both (.consumerEviction coh)) ∧
    ((∀ h ∈ s.cohorts, s.isStalled k h = false) ∨ s.doomed ≠ [] ∨ s.mayStop k.planes = false → Idle (.consumerEviction coh) s) ∧
    (s.head = some k → s.doomed = [] → k.num = coh → k.st = .evicted → s.canResume [] k = true →
      (∀ s1, s.restoreStrands k (k.planes.zip k.bases).zipIdx = some s1 → s1.cohort? coh = some k → Answers (.resumption coh) s fun t =>
        (∀ (i : Nat) p, k.planes[i]? = some p → t.plane p = { s1.plane p with events := (s1.plane p).events ||| (k.posts[i]?).getD 0 }) ∧
        (∃ k2, t.cohort? coh = some k2 ∧ k2.st = .resident ∧ k2.saved = [] ∧ ∀ w ∈ k2.posts, w = 0) ∧ t.mem = s1.mem ∧ t.ops = s1.ops ∧
        ∀ r ∈ t.routes, r.coh = coh → r.start = some s1.cycle) ∧
      (s.restoreStrands k (k.planes.zip k.bases).zipIdx = none → Answers (.resumption coh) s failed)) ∧
    ((∀ h, s.head = some h → h.num ≠ coh) → Idle (.resumption coh) s) ∧
    (s.retires k = false → Idle (.retirement coh) s) ∧
    (s.retires k = true → Answers (.retirement coh) s fun t => t.cohort? coh = none ∧
      t.retired.head? = some (coh, match k.launcher with | .host x => some x | .strand _ _ => none) ∧
      (k.st = .resident → ∀ p ∈ k.planes, (t.plane p).st = .free ∧ (t.plane p).mx = none) ∧ (∀ r ∈ t.routes, r.coh ≠ coh) ∧
      (∀ e, (s.group e).owner = some coh → (t.group e).owner = none) ∧ (∀ (i : Nat) r, t.tables[i]? = some (some r) → r.coh ≠ coh) ∧
      (∀ (i : Nat) r, t.regions[i]? = some (some r) → r.coh ≠ coh) ∧
      (∀ c w o, k.launcher = .strand c w → s.ops.filter (fun o => o.kind == .launch k.order) = [o] →
        (∀ q ∈ s.ops, q.plane = o.plane → q.n = o.n → q.seq = o.seq → q = o) → t.op? o.plane o.n o.seq = none ∧
        (o.plane ∉ k.planes → t.timeline o.plane o.n = (s.timeline o.plane o.n).complete o.seq 1)) ∧
      (∀ c pa, k.launcher = .strand c (some pa) → pa / pkgSpan = s.pkg → areaOf (pa % pkgSpan) = .hbm → pa % 8 = 0 → s.mapped (pa / 65536 * 65536) = true →
        (List.range 8).map (fun i => t.byte (pa + i)) = leBytes 8 k.word) ∧
      (∀ x y, k.launcher = .host x → s.sessions.find? (fun z => z.num == x) = some y → t.sent = s.sent ++ [.complete x (y.out + 1) y.keyOut k.word] ∧
        t.completes = s.completes ++ [⟨x, y.out + 1, k.word, s.cycle, s.cycle⟩])))

/-- O52. At U level CTXSV and CTXLD take the privilege-violation trap. At S level, with an area that translates and units at boundaries, and no older vector access to the area left, CTXSV writes the context of the strand to it, with the pc past the instruction and every byte where Table 17-8 has it, and changes nothing else; else it waits, or takes a memory error on a poisoned partition. CTXLD, with nothing of the strand outstanding, restores registers, at most 64 queue entries, partition, operations and routes from an area that CTXSV wrote, but for what belongs to its cohort; it waits for what its core lacks, and refuses an area that does not fit. What the spec leaves open or to inference here is the model’s, as in log 6, log 46, log 47, log 61, log 66, log 67, log 69. (from 11 R175, 17 R264 to R268, 17 Table 17-8, 27 R400) -/
def Obligations.SavedContexts : Prop :=
  ∀ (s : State) (a : XReg),
    let area := (s.getX a).toNat
    (s.me.level = .u → s.trapReady → TrapsAt (.ctxsv a) s causePriv ((encodeLast (.ctxsv a)).zeroExtend 64) ∧
      TrapsAt (.ctxld a) s causePriv ((encodeLast (.ctxld a)).zeroExtend 64)) ∧
    (s.me.level = .s → area % 65536 = 0 → ¬ s.noConflict (s.getX a) areaSpan .write → Idle (.ctxsv a) s) ∧
    (∀ fs f0, s.me.level = .s → area % 65536 = 0 → s.noConflict (s.getX a) areaSpan .write → s.strandFrames area .write 64 = .ok fs → fs.head? = some f0 → s.pend = [] → s.MemInv →
      (∀ o ∈ s.ops, o.plane = s.cur → o.kind.pairs = []) → (∀ f ∈ fs, f.base / pkgSpan = s.pkg ∧ f.kind = .plain ∧ f.tiled = false) →
      (∀ (i j : Nat) f g, fs[i]? = some f → fs[j]? = some g → i ≠ j → f.base + 65536 ≤ g.base ∨ g.base + 65536 ≤ f.base) →
      (∀ off, s.partitionPoison s.cur s.me = some off → FailsAs (.ctxsv a) s (.error (.memerr (addr64 (2 ^ 63 + off))) : Except MemErr Unit)) ∧
      (s.partitionPoison s.cur s.me = none → s.mayStop [s.cur] = false → Idle (.ctxsv a) s) ∧
      (s.partitionPoison s.cur s.me = none → s.mayStop [s.cur] = true →
      Answers (.ctxsv a) s fun t => GoesOn t s.pc4 ∧ SameButPc s.me t.me ∧ (∀ p, p ≠ s.cur → t.plane p = s.plane p) ∧
        { t with planes := s.planes, mem := s.mem, wrote := s.wrote, poison := s.poison, parked := s.parked } = s ∧
        (∀ r, r ∈ t.routes ↔ r ∈ s.routes) ∧
        t.parked = s.parked ++ [⟨s.me.advance 4, s.ops.filter fun o => o.plane == s.cur,
          (s.routes.filter fun r => r.plane == s.cur && r.coh == s.me.coh).map (RouteEnt.stopTimer s.cycle)⟩] ∧
        (∀ i j, i < 32 → j < 8 → t.byte (f0.base + 0x100 + 8 * i + j) = (s.getX (BitVec.ofNat 5 i)).extractLsb' (8 * j) 8) ∧
        (∀ j, j < 8 → t.byte (f0.base + 0x10 + j) = s.pc4.extractLsb' (8 * j) 8) ∧
        (∀ (k j : Nat) f, fs[k]? = some f → j < 65536 →
          t.byte (f.base + j) = ((s.areaFrame (s.me.advance 4) s.cur s.parked.length k)[j]?).getD 0) ∧
        (∀ x, (∀ f ∈ fs, x < f.base ∨ f.base + 65536 ≤ x) → t.byte x = s.byte x))) ∧
    (s.me.level = .s → area % 65536 = 0 → s.me.vq ≠ [] ∨ (∃ o ∈ s.ops, o.plane = s.cur) → Idle (.ctxld a) s) ∧
    ∀ fs, s.me.level = .s → area % 65536 = 0 → s.me.vq = [] → (∀ o ∈ s.ops, o.plane ≠ s.cur) → s.strandFrames area .read 64 = .ok fs →
      (∀ va, s.readArea area fs = .error va → FailsAs (.ctxld a) s (.error (.memerr va) : Except MemErr Unit)) ∧
      ∀ frames s1, s.readArea area fs = .ok (frames, s1) →
        let f (o l : Nat) : Nat := fieldAt ((frames[0]?).getD []) o l
        let w (o : Nat) : Word := BitVec.ofNat 64 (f o 8)
        let good : Prop := f 0 2 = 1 ∧ f 2 1 % 2 = 1 ∧ f 0x0A 1 = s.me.qsize
        let others := (planeIdx.map (planeOf (coreOf s.cur))).filter fun p => p != s.cur && (s.plane p).st != .free
        (¬ good → s.trapReady → IllegalOperand (.ctxld a) s) ∧
        (good → s1.parkedIn frames = none → s.trapReady → TrapsAt (.ctxld a) s causeIllop (s.getX a)) ∧
        ∀ e, good → s1.parkedIn frames = some e →
          (s1.sharedFits others [e] = false ∨ s1.loadRoutes e.routes = none → Idle (.ctxld a) s) ∧
          ∀ rs, s1.sharedFits others [e] = true → s1.loadRoutes e.routes = some rs → s.MemInv → s.me.qsize ≤ 32 →
            Answers (.ctxld a) s fun t =>
              { t with routes := s1.routes } = s1.restore s.cur s.me e frames ∧ t.routes = s1.routes ++ rs ∧ rs.length = e.routes.length ∧
              (∀ r ∈ rs, r.core = coreOf s.cur ∧ r.plane = s.cur ∧ r.coh = s.me.coh ∧ r.ord = s.orderOf s.me.coh ∧ ∀ q ∈ s1.routes, q.core = r.core → q.e ≠ r.e) ∧
              t.me.pc = w 0x10 ∧ t.me.level = (if f 2 1 / 2 % 2 = 1 then .s else .u) ∧ t.me.events = w 0x18 ∧
              (∀ i, 1 ≤ i → i < 32 → t.getX (BitVec.ofNat 5 i) = w (0x100 + 8 * i)) ∧
              (∀ i, i < 16 → t.getF (BitVec.ofNat 4 i) = ⟨w (0x200 + 8 * i), fmtOf (f 0x2D4 4 / 4 ^ i)⟩) ∧
              t.me.fcsr = fcsrWrite (w 0x280) ∧ t.me.fex0 = w 0x288 ∧ t.me.fex1 = w 0x290 ∧ t.me.tvec = w 0x298 &&& ~~~3 ∧ t.me.tpc = w 0x2A8 ∧
              t.me.tval = w 0x2B0 ∧ t.me.vl = f 0x2C8 2 % 2 ^ 14 ∧ t.me.lg = BitVec.ofNat 2 (f 0x2CB 1) ∧ t.me.vq.length ≤ 64 ∧
              (∀ tg, Tag.ofCode? (BitVec.ofNat 5 (f 0x2CA 1)) = some tg → t.me.tag = tg) ∧
              ((∀ o ∈ e.ops, s1.launchDone o = false) → ∀ i, i < 16 → (t.timeline s.cur (BitVec.ofNat 4 i)).value = f (0x300 + 16 * i) 8 ∧
                (t.timeline s.cur (BitVec.ofNat 4 i)).issue = f (0x308 + 16 * i) 8) ∧
              t.me.xac = BitVec.ofNat 4352 (f 0x400 544) ∧ t.me.xacSt = xacOf (f 0x0B 1) ∧
              (∀ (r : MReg) i, r ≠ 0 → i < 8192 → t.me.maskBit r i = (f (0x1000 + 1024 * r.toNat) 1024).testBit i) ∧
              (∀ k, k < 64 → (t.me.vreg k).data = BitVec.ofNat 4096 (f (0x4000 + 512 * k) 512) ∧
                ∀ tg, Tag.ofCode? (BitVec.ofNat 5 (f (0xC800 + k) 1)) = some tg → (t.me.vreg k).tag = tg ∧
                  (t.me.vreg k).side = sideOf tg (BitVec.ofNat 256 (f (0xC000 + 32 * k) 32))) ∧
              (∀ k j, k < s.me.qsize → j < 65536 →
                t.byte (s1.unitAddr (coreOf s.cur) s.me.qbase + 65536 * k + j) = (((frames[16 + k]?).getD [])[j]?).getD 0) ∧
              t.me.coh = s.me.coh ∧ t.me.rank = s.me.rank ∧ t.me.prio = s.me.prio ∧ t.me.grps = s.me.grps ∧ t.me.quota = s.me.quota ∧
              ∀ p, p ≠ s.cur → t.plane p = s1.plane p

/-- O53. A command message is dropped and counted, answered again from the cache, refused with PRIV where a U session sends an S command, or accepted: its SEQ joins the records of its session, the command runs, and a response with its status goes out and is cached. Each command has the effect of Table 27-3 and nothing else. ATTEST opens a session and reports the images that boot measured, and a verifier’s ciphertext derives its keys. The refusal of SEQ 0, the data of QUERY and MODEGET, and the statuses of FWUPDATE, UNMAPWIN and UNREGION are the model’s (log 13). What the spec leaves open or to inference here is the model’s, as in log 7, log 11, log 51, log 52, log 63. (from 27 R381 to R389, 27 R393 to R395, 27 R401, 05 R402, 11 R164, 11 R168, 27 Tables 27-2, 27-3 and 27-6) -/
def Obligations.HostCommands : Prop :=
  (∀ (s : State) (e : CmdEnv) (num root base len key off coh rank upto code : Nat) (r w mgmt toh fromh : Bool) (bits : Word) (mode : ModeSet),
    let anyone : List Instr := [.launchCommand e key off, .cancel e coh, .query e, .modeget e, .post e coh rank bits, .ack e upto, .unknownOpcode e code]
    let owner : List Instr := [.mapwin e num root base len r w, .unmapwin e num, .region e num key base len toh fromh, .unregion e num, .modeset e mode,
      .fwupdate e key off len mgmt]
    let drops (t : State) : Prop := t.dropped = s.dropped + 1 ∧ { t with dropped := s.dropped } = s
    (∀ i ∈ anyone ++ owner,
      ((∀ z ∈ s.sessions, z.num = e.session → z.live = false) → Answers i s drops) ∧
      ∀ x, s.hasSession e x →
        (¬ x.admits e → Answers i s drops) ∧
        (x.admits e → e.seq ∈ x.seen → Answers i s fun t => { t with sent := s.sent } = s ∧
          t.sent = s.sent ++ ((x.cached.find? fun c => c.1 == e.seq).map (·.2)).toList) ∧
        (x.admits e → e.seq ∉ x.seen → x.sup = false → i ∈ owner → Answers i s (Ran s e x fun a st d b => st = 2 ∧ d = [] ∧ b = a))) ∧
    ∀ x, s.hasSession e x → x.admits e → e.seq ∉ x.seen →
      let runs (i : Instr) (rel : State → Nat → List Nat → State → Prop) : Prop := Answers i s (Ran s e x rel)
      let mine (k : Cohort) : Prop := x.sup = true ∨ k.launcher = .host e.session
      runs (.query e) (fun a st _ b => st = 0 ∧ b = a) ∧
      runs (.modeget e) (fun a st d b => st = 0 ∧ d = [s.limit, s.ceiling, s.slotLen, s.leeSize, s.scrubHours, if s.strong then 1 else 0] ∧ b = a) ∧
      runs (.unknownOpcode e code) (fun a st d b => st = 0xFF ∧ d = [] ∧ b = a) ∧
      runs (.ack e upto) (fun a st d b => st = 0 ∧ d = [] ∧ { b with completes := a.completes } = a ∧
        ∀ c, c ∈ b.completes ↔ c ∈ a.completes ∧ (c.session = e.session → upto < c.seq)) ∧
      runs (.post e coh rank bits) (fun a st d b => d = [] ∧ (st ≠ 0 → b = a) ∧
        (a.cohort? coh = none → st = if x.sup then 1 else 2) ∧
        ∀ k, a.cohort? coh = some k → (¬ mine k → st = 2) ∧ (mine k → k.rcd.nstrand ≤ rank → st = 1) ∧
          (mine k → rank < k.rcd.nstrand → st = 0 ∧
            (∀ p, k.st = .resident → k.planes[rank]? = some p → (b.plane p).events = (a.plane p).events ||| bits ∧
              { b.plane p with events := (a.plane p).events } = a.plane p ∧ (∀ q, q ≠ p → b.plane q = a.plane q) ∧ { b with planes := a.planes } = a) ∧
            (k.st ≠ .resident → b.cohort? coh = some { k with posts := k.posts.modify rank (· ||| bits) } ∧ { b with cohorts := a.cohorts } = a))) ∧
      runs (.cancel e coh) (fun a st d b => d = [] ∧ (st ≠ 0 → b = a) ∧
        (∀ k, a.cohort? coh = some k → (¬ mine k → st = 2) ∧ (mine k → k.ended ≠ none → st = 1) ∧
          (mine k → k.ended = none → st = 0 ∧ (k.st ≠ .waiting → a.loneCohort coh → CohortEnds a coh (2, 0) b) ∧
            (k.st = .waiting → (a.cohorts.map (·.num)).Nodup → b.cohort? coh = none ∧ (∃ z ∈ b.retired, z.1 = coh) ∧
              ((∀ j ∈ a.cohorts, j.launcher.by? ≠ some coh ∧ (j.st = .waiting → j.ended = none)) → ∀ h y, k.launcher = .host h →
                a.sessions.find? (fun z => z.num == h) = some y → b.sent = a.sent ++ [.complete h (y.out + 1) y.keyOut (2 + coh * 2 ^ 32)])) ∧
            (∀ p, (a.plane p).st ≠ .free → (a.plane p).coh = coh → (b.plane p).st = .halted ∧ (b.plane p).vq = [] ∧ (b.plane p).wait = none ∧
              (b.plane p).x = (a.plane p).x ∧ ∀ o ∈ b.ops, o.plane = p → o.kind.isLaunch = true ∨ o.kind.endsAtTile = true) ∧
            ∀ j, j ∈ b.routes → j.coh ≠ coh)) ∧
        (a.cohort? coh = none → (∀ z, a.retired.find? (fun z => z.1 == coh) = some z → st = if x.sup = true ∨ z.2 = some e.session then 1 else 2) ∧
          ((∀ z ∈ a.retired, z.1 ≠ coh) → st = 3))) ∧
      runs (.launchCommand e key off) (fun a st d b => (st ≠ 0 → d = [0xFFFF] ∧ b.cohorts = a.cohorts) ∧ (a.owner = none → st = 2) ∧
        (a.owner ≠ none → off % 64 ≠ 0 → st = 1) ∧ (a.owner ≠ none → off % 64 = 0 → a.window? key = none → st = 6) ∧
        ∀ win, a.window? key = some win →
          (a.owner ≠ none → off % 64 = 0 → (a.windowRead key off 128 = none → st = 6) ∧
            ∀ h a1, a.windowRead key off 128 = some (h, a1) →
              let n := 128 + 64 * leNat ((h.drop 7).take 1) + 8 * leNat ((h.drop 0x21).take 1)
              (a1.windowRead key off n = none → st = 6) ∧
              ∀ bs a2, a1.windowRead key off n = some (bs, a2) → (launchRec? bs = none → st = 1) ∧
                ∀ l, launchRec? bs = some l →
                  let c := l.status (if x.sup then none else some win.root)
                  (c ≠ 0 → st = c) ∧ (c = 0 → a2.levelFull l.level = true ∨ (∀ m, m < 0xFFFF → ∃ k ∈ a2.cohorts, k.num = m) → st = 7) ∧
                  (c = 0 → a2.levelFull l.level = false → ∀ m, m < 0xFFFF → (∀ k ∈ a2.cohorts, k.num ≠ m) →
                    (∀ j, j < m → ∃ k ∈ a2.cohorts, k.num = j) → st = 0 ∧ d = [m] ∧
                    b.cohorts = a2.cohorts ++ [⟨m, .waiting, l, .host e.session, a2.nextOrder, 0, [], [], [], List.replicate l.nstrand 0, [], none⟩] ∧
                    b.nextOrder = a2.nextOrder + 1 ∧ { b with cohorts := a2.cohorts, nextOrder := a2.nextOrder } = a2))) ∧
      (x.sup = true →
        let bad : Prop := 4096 ≤ num ∨ base % 65536 ≠ 0 ∨ len % 65536 ≠ 0 ∨ 2 ^ 57 < base + len ∨ root % 4096 ≠ 0 ∨ 2 ^ 48 ≤ root
        runs (.mapwin e num root base len r w) (fun a st d b => (bad → st = 1 ∧ d = [] ∧ b = a) ∧
          (¬ bad → st = 0 ∧ ∃ tag, tag < 2 ^ 20 ∧ d = [num * 2 ^ 20 + tag] ∧
            b.window? (num * 2 ^ 20 + tag) = some ⟨num, root, base, len, r, w, num * 2 ^ 20 + tag⟩ ∧
            (∀ z ∈ b.wins, z.num = num → z.key = num * 2 ^ 20 + tag) ∧ (∀ z : Win, z.num ≠ num → (z ∈ b.wins ↔ z ∈ a.wins)) ∧
            b.issuedKeys = (num * 2 ^ 20 + tag) :: a.issuedKeys ∧ (a.oldKeys.length < 2 ^ 20 → num * 2 ^ 20 + tag ∉ a.oldKeys) ∧
            { b with wins := a.wins, issuedKeys := a.issuedKeys, free := a.free } = a)) ∧
        runs (.unmapwin e num) (fun a st d b => d = [] ∧ { b with wins := a.wins } = a ∧ (∀ z, z ∈ b.wins ↔ z ∈ a.wins ∧ z.num ≠ num) ∧
          (st = 0 ∨ st = 3) ∧ (st = 0 ↔ ∃ z ∈ a.wins, z.num = num)) ∧
        runs (.region e num key base len toh fromh) (fun a st d b => d = [] ∧ (1024 ≤ num → st = 1 ∧ b = a) ∧
          (num < 1024 → st = 0 ∧ { b with hostRegions := a.hostRegions } = a ∧
            ∀ z, z ∈ b.hostRegions ↔ z = ⟨num, key, base, len, toh, fromh⟩ ∨ z ∈ a.hostRegions ∧ z.num ≠ num)) ∧
        runs (.unregion e num) (fun a st d b => d = [] ∧ { b with hostRegions := a.hostRegions } = a ∧
          (∀ z, z ∈ b.hostRegions ↔ z ∈ a.hostRegions ∧ z.num ≠ num) ∧ (st = 0 ∨ st = 3) ∧ (st = 0 ↔ ∃ z ∈ a.hostRegions, z.num = num)) ∧
        runs (.modeset e mode) (fun a st d b => d = [] ∧ (st ≠ 0 → b = a) ∧
          let sets (legal : Prop) (busy : Prop) (t : State) : Prop := (¬ legal → st = 1) ∧ (legal → busy → st = 4) ∧ (legal → ¬ busy → st = 0 ∧ b = t)
          match mode with
          | .clocking limit ceiling => sets (800 ≤ limit ∧ limit ≤ 1600 ∧ limit % 50 = 0 ∧ 1000 ≤ ceiling ∧ ceiling ≤ 2100 ∧ ceiling % 100 = 0) False
              { a with limit := limit, ceiling := ceiling, freq := ceiling }
          | .slotlen n => sets (∃ k, 6 ≤ k ∧ k ≤ 12 ∧ n = 2 ^ k) False { a with slotLen := n }
          | .leesize n => sets (∃ k, 28 ≤ k ∧ k ≤ 31 ∧ n = 2 ^ k) (∃ (j : Nat) (g : Region), a.regions[j]? = some (some g)) { a with leeSize := n }
          | .scrub h => sets (1 ≤ h ∧ h ≤ 72) False { a with scrubHours := h }
          | .integrity strong => sets True (∃ k ∈ a.cohorts, k.st ≠ .waiting) { a with strong := strong }
          | .other _ => st = 1) ∧
        runs (.fwupdate e key off len mgmt) (fun a st d b => d = [] ∧ (a.windowRead key off len = none → st = 6 ∧ b = a) ∧
          ∀ img a1, a.windowRead key off len = some (img, a1) →
            let good : Prop := Config.imageValid img = true ∧ a.fused ≤ Config.imageVersion img
            (¬ good → st = 1 ∧ b = a1) ∧
            (good → st = 0 ∧ b = if mgmt then { a1 with flashMgmt := img } else { a1 with flashRoot := img })))) ∧
  ∀ (s : State) (e : CmdEnv) (nonce ct : List Byte) (session : Nat) (signer : Option (List Byte)),
    let drops (t : State) : Prop := t.dropped = s.dropped + 1 ∧ { t with dropped := s.dropped } = s
    let good : Prop := e.session = 0 ∧ e.magic = 0x314B485A ∧ e.version = 1 ∧ e.length ≤ 8192 ∧ e.flags < 8 ∧ nonce.length = 32
    (¬ good → Answers (.attest e nonce) s drops) ∧
    (good → Answers (.attest e nonce) s fun t => (∃ eph, t.sessions = s.sessions ++ [⟨s.nextSession, false, false, nonce, eph, [], [], 0, [], [], 0⟩]) ∧
      t.nextSession = s.nextSession + 1 ∧
      (∃ report, t.sent = s.sent ++ [.resp 0 0 [] e.seq 0 (s.nextSession :: report)] ∧
        ∃ rest, report = (nonce ++ shake s.measRoot ++ shake s.measMgmt ++ rest).map (·.toNat)) ∧
      { t with sessions := s.sessions, nextSession := s.nextSession, sent := s.sent, free := s.free } = s) ∧
    ((∀ z ∈ s.sessions, z.num = session → z.live = true) → Answers (.verifierCiphertext session ct signer) s drops) ∧
    ∀ x, s.sessions.find? (fun z => z.num == session) = some x → x.live = false →
      let begins (sup : Bool) (own : Option (List Byte)) (t : State) : Prop :=
        (∃ y, t.sessions.find? (fun z => z.num == session) = some y ∧ y.live = true ∧ y.sup = sup ∧
          (let keys := shake (Config.crypto 2 (x.eph ++ ct) ++ x.nonce ++ leBytes 8 session)
           y.keyIn = keys.take 32 ∧ y.keyOut = (keys.drop 32).take 32) ∧
          { y with live := x.live, sup := x.sup, keyIn := x.keyIn, keyOut := x.keyOut } = x) ∧
        OtherSessions session s t ∧ t.owner = own ∧ { t with sessions := s.sessions, owner := s.owner } = s
      (signer = none → Answers (.verifierCiphertext session ct signer) s (begins false s.owner)) ∧
      ∀ k, signer = some k → (s.owner = none ∨ s.owner = some k → Answers (.verifierCiphertext session ct signer) s (begins true (some k))) ∧
        (s.owner ≠ none → s.owner ≠ some k → Idle (.verifierCiphertext session ct signer) s)

/-- O54. RDMA accesses go through a device window: one refused is answered with a NAK and performs nothing, one allowed is performed whole before its answer. A message of another package reads, writes or updates memory here; the write of a remote port waits while its target lies in a saved context. COMPLETE events are sent again until acknowledged. Throttling, pacing, lane loss and replay change timing only. An owner release cancels and retires every cohort, ends every session and scrubs the package, and no other’s bytes or FULL granules; a package reset is one, then boot, which a failed step stops. What the spec leaves open or to inference here is the model’s, as in log 3, log 7, log 11, log 13, log 49, log 52, log 53, log 54, log 60. (from 27 R380 to R382, 27 R388, 27 R390 to R393, 27 R396 to R398, 27 R400, 01 R15 to R17, 07 R71, 07 R86, 11 R148, 11 R149) -/
def Obligations.PackageEvents : Prop :=
  (∀ (s : State) (key off n : Nat) (acc : Acc) (win : Win), 0 < n → s.window? key = some win →
    let va (i : Nat) : Nat := win.base + off + i
    let frame (i : Nat) : Except WalkErr Frame := s.frameUnder win.root .s (va i / 65536 * 65536) acc false
    let allowed : Prop := off + n ≤ win.len ∧ (if acc = .read then win.r else win.w) = true
    (¬ allowed → s.windowPlaces key off n acc = none) ∧
    (allowed → ∀ i k, i < n → frame i = .error k → s.windowPlaces key off n acc = none) ∧
    (allowed → (∀ i, i < n → ∃ f, frame i = .ok f) → ∃ ps, s.windowPlaces key off n acc = some ps ∧ ps.length = n ∧
      ∀ i f, i < n → frame i = .ok f → ps[i]? = some (f.place (va i)))) ∧
  (∀ (s : State) (key off len : Nat) (data : List Byte) (ps : List Place),
    let w := Instr.rdmaWrite key off data
    let r := Instr.rdmaRead key off len
    (s.window? key = none → Answers w s (OnlySends s .rdmaNak) ∧ Answers r s (OnlySends s .rdmaNak)) ∧
    (s.windowPlaces key off data.length .write = none → Answers w s (OnlySends s .rdmaNak)) ∧
    (s.windowPlaces key off data.length .write = some ps → s.writeFails ps = true → Answers w s (OnlySends s .rdmaNak)) ∧
    (s.windowPlaces key off data.length .write = some ps → s.writeFails ps = false → s.MemInv → (ps.map (·.pa)).Nodup →
      Answers w s fun t => t.sent = s.sent ++ [.rdmaAck] ∧ OnlyStored s { t with sent := s.sent } ∧
        (∀ q b, (q, b) ∈ ps.zip data → q.pa ∉ summaryBytes ps → t.byte q.pa = b) ∧
        (∀ a, a ∉ ps.map (·.pa) → a ∉ summaryBytes ps → a ∉ s.pendingBytes ps → t.byte a = s.byte a) ∧
        ∀ k ∈ t.pend, k ∈ s.pend ∧ ∀ q ∈ ps, q.pa / 64 ≠ k.pa / 64) ∧
    (s.windowPlaces key off len .read = none → Answers r s (OnlySends s .rdmaNak)) ∧
    (∀ q ∈ ps, s.windowPlaces key off len .read = some ps → poisonUnit q.pa ∈ s.poison → Answers r s (OnlySends s .rdmaNak)) ∧
    (s.windowPlaces key off len .read = some ps → (∀ q ∈ ps, poisonUnit q.pa ∉ s.poison) → s.writeFails ps = false → s.MemInv →
      Answers r s fun t => t.sent = s.sent ++ [.rdmaData (ps.map fun q => t.byte q.pa)] ∧ OnlyTouched s { t with sent := s.sent } ∧
        (∀ a, a ∉ s.pendingBytes ps → t.byte a = s.byte a) ∧ ∀ k ∈ t.pend, k ∈ s.pend ∧ ∀ q ∈ ps, q.pa / 64 ≠ k.pa / 64)) ∧
  (∀ (s : State) (pa n fn x cmp : Nat) (data : List Byte) (by_ : RemoteWriter) (wide : Bool),
    let rd := Instr.troiqueMessage (.read pa n)
    let wr := Instr.troiqueMessage (.write pa data by_)
    let am := Instr.troiqueMessage (.amo pa fn wide x cmp)
    let size := if wide then 8 else 4
    let untouched (ps : List Place) (t : State) : Prop := ∀ a, a ∉ s.pendingBytes ps → t.byte a = s.byte a
    (s.physPlaces pa (min n 4096) = none → Idle rd s) ∧
    (∀ ps, s.physPlaces pa (min n 4096) = some ps → (∀ q ∈ ps, poisonUnit q.pa ∉ s.poison) → s.writeFails ps = false → s.MemInv →
      Answers rd s fun t => t.sent = s.sent ++ [.reply (ps.map fun q => t.byte q.pa)] ∧ OnlyTouched s { t with sent := s.sent } ∧ untouched ps t) ∧
    (∀ ps, s.physPlaces pa (min n 4096) = some ps → (∃ q ∈ ps, poisonUnit q.pa ∈ s.poison) → s.MemInv →
      Answers rd s fun t => t.sent = s.sent ++ [.reply []] ∧ OnlyTouched s { t with sent := s.sent } ∧ untouched ps t) ∧
    (4096 < data.length ∨ s.physPlaces pa data.length = none → Idle wr s) ∧
    (∀ ps, by_ = .port → data.length ≤ 4096 → s.physPlaces pa data.length = some ps → (∃ q ∈ ps, q.isSaved = true) → Idle wr s) ∧
    (∀ ps, data.length ≤ 4096 → s.physPlaces pa data.length = some ps → (by_ = .port → ∀ q ∈ ps, q.isSaved = false) → s.MemInv → (ps.map (·.pa)).Nodup →
      Answers wr s fun t => OnlyStored s { t with full := s.full } ∧
        (∀ q b, (q, b) ∈ ps.zip data → q.pa ∉ summaryBytes ps ++ fullBytes ps → t.byte q.pa = b) ∧
        (∀ a, a ∉ ps.map (·.pa) → a ∉ summaryBytes ps ++ fullBytes ps → a ∉ s.pendingBytes ps → t.byte a = s.byte a) ∧
        (by_ = .strand → t.full = s.full) ∧ (by_ ≠ .strand → ∀ q ∈ ps, q.kind = .spad → t.feGet q = true)) ∧
    (pa % size ≠ 0 ∨ s.physPlaces pa size = none → Idle am s) ∧
    (∀ ps, pa % size = 0 → s.physPlaces pa size = some ps → (∀ q ∈ ps, poisonUnit q.pa ∉ s.poison) → s.writeFails ps = false → s.MemInv →
      (ps.map (·.pa)).Nodup → (∀ q ∈ ps, q.pa ∉ summaryBytes ps) →
      Answers am s fun t => OnlyStored s { t with sent := s.sent } ∧ ∃ u, OnlyTouched s u ∧ untouched ps u ∧
        let old := ps.map fun q => u.byte q.pa
        t.sent = s.sent ++ [.reply old] ∧
        (∀ v, amoNew fn size (leNat old) (x % 2 ^ (8 * size)) (cmp % 2 ^ (8 * size)) = some v → ps.map (fun q => t.byte q.pa) = leBytes size v) ∧
        (amoNew fn size (leNat old) (x % 2 ^ (8 * size)) (cmp % 2 ^ (8 * size)) = none → ps.map (fun q => t.byte q.pa) = old) ∧
        ∀ a, a ∉ ps.map (·.pa) → a ∉ summaryBytes ps → t.byte a = u.byte a)) ∧
  (∀ (s : State) (idle link n pkg : Nat) (port fails : Bool),
    Answers .thermalThrottle s (fun t => t.freq = max 700 (s.freq - 100) ∧ { t with freq := s.freq } = s) ∧
    Answers (.workPacing idle) s (fun t => t.cycle = s.cycle + (if s.freq ≤ 700 then idle else 0) ∧ { t with cycle := s.cycle } = s) ∧
    Answers .patrolScrub s (fun t => t.errors = s.errors ++ s.poison.map (fun u => (0x20, u)) ∧ { t with errors := s.errors } = s) ∧
    Idle (.flitReplay n) s ∧
    Answers (.laneLoss link) s (fun t => t.lanes[link]? = (s.lanes[link]?).map (fun l => if 4 < l then 4 else 2) ∧
      (∀ j, j ≠ link → t.lanes[j]? = s.lanes[j]?) ∧ { t with lanes := s.lanes } = s) ∧
    Answers (.messageFail pkg fails) s (fun t => (∀ k, k ∈ t.failing ↔ if k = pkg then fails = true else k ∈ s.failing) ∧
      { t with failing := s.failing } = s) ∧
    Answers (.ethernetFrameDrop port) s (fun t => t.frames[if port then 1 else 0]? = (s.frames[if port then 1 else 0]?).map (· + 1) ∧
      (∀ j, j ≠ (if port then 1 else 0) → t.frames[j]? = s.frames[j]?) ∧ { t with frames := s.frames } = s) ∧
    Answers .completeResend s (fun t =>
      let live (c : Complete) : Prop := s.cycle - c.first < 1000000 * s.freq
      let due (c : Complete) : Prop := 100 * s.freq ≤ s.cycle - c.last
      (∀ c, c ∈ t.completes ↔ (∃ o ∈ s.completes, live o ∧ due o ∧ c = { o with last := s.cycle }) ∨ (c ∈ s.completes ∧ live c ∧ ¬ due c)) ∧
      (∃ ms, t.sent = s.sent ++ ms ∧ ∀ m, m ∈ ms ↔ ∃ c ∈ s.completes, live c ∧ due c ∧ m = .complete c.session c.seq (s.keyTo c.session) c.word) ∧
      { t with completes := s.completes, sent := s.sent } = s)) ∧
  ∀ (s : State) (pkg : Nat) (domain : List Nat) (trained : Bool),
    let cleared (own : Nat) (t : State) : Prop := t.cohorts = [] ∧ t.completes = [] ∧ t.wins = [] ∧ t.hostRegions = [] ∧ t.sessions = [] ∧ t.owner = none ∧
      (∀ p, (t.plane p).st = .free ∧ (∀ r, t.getX r = 0) ∧ (t.plane p).m = Vector.replicate 8 0) ∧ (∀ a, a / pkgSpan = own → t.byte a = 0) ∧ (∀ g ∈ t.full, 16 * g / pkgSpan ≠ own) ∧ t.ops = [] ∧
      t.routes = [] ∧ t.pend = []
    Answers .ownerRelease s (fun t => cleared s.pkg t ∧ (∀ g, 16 * g / pkgSpan ≠ s.pkg → (g ∈ t.full ↔ g ∈ s.full)) ∧ t.oldKeys = s.issuedKeys ++ s.oldKeys ∧ t.issuedKeys = [] ∧ t.nextSession = s.nextSession ∧ t.flashRoot = s.flashRoot ∧ t.flashMgmt = s.flashMgmt ∧ t.held = s.held) ∧
    Answers .thermalShutdown s (fun t => t.parked = [] ∧ t.cohorts = [] ∧ (∀ p, (t.plane p).st = .free) ∧ t.mem = s.mem ∧ ∃ code, t.held = some code ∧
      t.errors = s.errors ++ [(code, s.cycle)] ∧ t.sent = s.sent ++ [.management code]) ∧
    (let good (img : List Byte) : Prop := Config.imageValid img = true
     let boots : Prop := good s.flashRoot ∧ s.fused ≤ Config.imageVersion s.flashRoot ∧ good s.flashMgmt ∧ s.fused ≤ Config.imageVersion s.flashMgmt ∧ trained = true ∧ pkg < 64 ∧ pkg ∈ domain ∧
       ∀ k ∈ domain, k < 64
     Answers (.packageReset pkg domain trained) s fun t => cleared s.pkg t ∧
       (∀ g, 16 * g / pkgSpan ≠ s.pkg → 16 * g / pkgSpan ≠ pkg → (g ∈ t.full ↔ g ∈ s.full)) ∧ t.measRoot = s.flashRoot ∧ t.measMgmt = s.flashMgmt ∧ t.flashRoot = s.flashRoot ∧ t.flashMgmt = s.flashMgmt ∧ t.errors = s.errors ∧
       t.slotLen = 512 ∧ t.leeSize = 2 ^ 30 ∧ t.limit = 1600 ∧ t.ceiling = 2100 ∧ t.scrubHours = 24 ∧ t.strong = false ∧
       (boots → t.held = none ∧ t.pkg = pkg ∧ t.domain = domain ∧ ∀ a, a / pkgSpan = pkg → t.byte a = 0) ∧
       (¬ boots → ∃ code, t.held = some code ∧ t.sent.getLast? = some (.management code)))

/-- O55. After reset every plane is FREE with FCSR at the reset value of Table 3-8, FEX0, FEX1, the trap registers, the mode and the X registers zero; every byte of memory reads zero and is listed nowhere, every granule is EMPTY; watermarks are zero; no cohort, group, region, window, session or operation exists; the package is package 0 of a domain of one; the modes have their defaults. The zero of a register of a FREE plane is what the scrub of R398 leaves. What the spec leaves open or to inference here is the model’s, as in log 1, log 7, log 9, log 10. (from 03 R42, 03 R44, 03 Table 3-8, 03 Table 3-9, 05 Table 5-8, 17 R247 to R254, 27 R391, 27 R398, 27 Table 27-6) -/
def Obligations.ResetValues : Prop :=
  let s := State.reset
  s.MemInv ∧ s.held = none ∧ s.cycle = 0 ∧ s.cohorts = [] ∧ s.ops = [] ∧ s.routes = [] ∧ s.wins = [] ∧ s.hostRegions = [] ∧ s.sessions = [] ∧
    s.owner = none ∧ s.pkg = 0 ∧ s.domain = [0] ∧ s.limit = 1600 ∧ s.ceiling = 2100 ∧ s.slotLen = 512 ∧ s.leeSize = 2 ^ 30 ∧ s.scrubHours = 24 ∧
    s.strong = false ∧ s.full = [] ∧ (∀ a, s.byte a = 0) ∧ (∀ w, (s.wm w).mark = 0 ∧ (s.wm w).gen = 0 ∧ (s.wm w).ranges = []) ∧
    (∀ e, (s.group e).owner = none) ∧ (∀ j : Nat, (s.regions[j]?).join = none) ∧
    ∀ p, let q := s.plane p
      q.st = .free ∧ q.level = .u ∧ q.pc = 0 ∧ (∀ r, q.getX r = 0) ∧ q.fcsr = 0x01000000 ∧ q.fex0 = 0 ∧ q.fex1 = 0 ∧ q.tvec = 0 ∧ q.tcause = 0 ∧
      q.tpc = 0 ∧ q.tval = 0 ∧ q.tstat = 0 ∧ q.events = 0 ∧ q.vl = 0 ∧ q.tag = .none ∧ q.lg = 0 ∧ (∀ n : TReg, (s.timeline p n).value = 0 ∧ (s.timeline p n).issue = 0) ∧
      q.modulus = 0x7FFFFFFF ∧ q.roots = []

/-- O56. In every state whose device memory and host memory list strictly rising addresses and no byte that an unlisted address reads as, each step that answers a next state answers one of which the same holds. The form is the model’s representation (log 1). (from 07 R88, 09 R133, 23 R343, 27 R381, 27 R398) -/
def Obligations.StepKeepsMemoryForm : Prop :=
  ∀ s t : State, s.MemInv → step s = .next t → t.MemInv

/-- O57. Every well-formed instruction that has an encoding, with every operand, decodes from its words to itself, and leaves the bytes that follow them. (from 09 R113 to R119, 09 R122, 09 R124, 09 Table 9-4, 09 Table 9-5) -/
def Obligations.EncodedWordsDecode : Prop :=
  ∀ i : Instr, i.wf = true → i.encoded = true → ∀ rest, decode ((encode i).flatMap bytesOfWord ++ rest) = .ok (i, rest)

/-- O58. Bytes that decode are those that encoding the instruction gives, with the bytes that follow them, and the instruction is well-formed: each instruction has one encoding, and every reserved field is checked. (from 09 R113 to R119, 09 R122, 09 R124, 09 Table 9-4, 09 Table 9-5) -/
def Obligations.DecodedWordsEncode : Prop :=
  ∀ (bs rest : List Byte) (i : Instr), decode bs = .ok (i, rest) →
    i.wf = true ∧ i.encoded = true ∧ bs = (encode i).flatMap bytesOfWord ++ rest

/-- O59. The words written out in Examples 9-1, 10-1, 11-1 and 11-2, 13-1, 13-3, 13-4, 13-5 and 13-7, 14-3, 15-2 and 15-5, 16-1 and 16-6, 19-3, 21-1 and 21-2, 23-3 and in the examples of Table 25-7, the two pairs that begin with a PFX among them, decode to the instructions given beside them. (from 09 Example 9-1, 10 Example 10-1, 11 Examples 11-1 and 11-2, 13 Examples 13-1, 13-3, 13-4, 13-5 and 13-7, 14 Example 14-3, 15 Examples 15-2 and 15-5, 16 Examples 16-1 and 16-6, 19 Example 19-3, 21 Examples 21-1 and 21-2, 23 Example 23-3, 25 Table 25-7) -/
def Obligations.ExampleWordsDecode : Prop :=
  let is (w : IWord) (i : Instr) : Prop := decode (bytesOfWord w) = .ok (i, [])
  is 0x04642800 (.add 3 4 5) ∧ is 0x3860FFFD (.bne 3 0 0xFFFD) ∧ is 0x4C200100 (.jl 1 0x100) ∧ is 0x4C1FFFFE (.jl 0 0x1FFFFE) ∧
    is 0x84841822 (.vmul 8 16 24 1) ∧ is 0x9C428C01 (.vlds 4 5 6 0) ∧ is 0xD4853002 (.xcopy 4 5 6 2) ∧ is 0x54221810 (.fadd 1 2 3 .f32 .rne) ∧
    is 0x58642895 (.amoadd 3 4 5 .acq .die true) ∧ is 0x60A00007 (.crget 5 .cycle) ∧ is 0x04641F88 (.bfx 3 4 3 8) ∧
    is 0x24A6BFFC (.ld 5 6 .w 0x3FFC) ∧ is 0x2C060003 (.st 0 6 .b 3) ∧ is 0x5C000006 (.fence .pkg) ∧ is 0x5C001061 (.waittlImm 1 2) ∧
    is 0x5C000940 (.gbar 1) ∧ is 0x80A65002 (.setvl 5 6 .fp32 2) ∧ is 0x80A07800 (.setvl 5 0 .q4 0) ∧ is 0x80E00040 (.cfgget 7) ∧
    is 0x84841809 (.vfma 8 16 24 0) ∧ is 0x88210630 (.vsllVs 2 4 3 0 true) ∧ is 0x8461861F (.vtag 6 6 .z32) ∧ is 0x90200109 (.vxrndClr 2) ∧
    is 0x94800102 (.vcvtf4 8 0 1) ∧ is 0x9811004E (.vconfd 1 4 2) ∧ is 0x8C15000D (.mfromv 1 20 0) ∧ is 0x85051823 (.vdiv 16 20 24 1) ∧
    is 0x9C828000 (.vld 8 5 0) ∧ is 0x9C038012 (.vldseg 0 7 0 2) ∧ is 0x9C24800F (.vldfe 2 9 0 true) ∧ is 0xA1022883 (.vstx 16 4 20 2 false) ∧
    is 0xA0450A06 (.vstwm 4 10 5 0) ∧ is 0xA8120C00 (.gcsleep 1 8 12 0) ∧ is 0xA8000001 .vdrain ∧ is 0xD4803101 (.xfill 4 0 6 1) ∧
    is 0xD4853153 (.xhostToh 4 5 6 3) ∧ is 0xD5095060 (.xcopyt 8 9 10 .w 0) ∧ is 0x82323002 (.setvl 17 18 .z32 2) ∧
    is 0x8400021F (.vtag 0 0 .z8) ∧ is 0x9C07800A (.vldseg 0 15 0 1) ∧ is 0x8C24400C (.mset 2 17) ∧ is 0x9810004E (.vconfd 1 0 2) ∧
    is 0x9C8A0043 (.vldx 8 20 0 1 false) ∧ is 0x88820260 (.vaddVs 8 8 1 1 true) ∧ is 0xA08A0043 (.vstx 8 20 0 1 false) ∧
    is 0x8C208108 (.mandn 2 2 1) ∧ is 0x8D50800A (.mpopc 21 2 0) ∧ is 0x3AA0FFFA (.bne 21 0 0xFFFA) ∧ is 0x84010018 (.vmov 0 4 0) ∧
    is 0x9C230806 (.vgwin 2 6 4 0 false) ∧ is 0xC00A0001 (.sload 10 1) ∧ is 0xC0A63843 (.sarm 5 6 7 3) ∧ is 0xC00848C2 (.twload 8 9 2) ∧
    is 0xC0060110 (.sgrow 6 .always) ∧ is 0xC0860190 (.modchk 4 6 false true) ∧ is 0xC0000240 .sfree ∧ is 0xC4A60000 (.mgrp 5 6) ∧
    is 0xC4000010 .mgrpRel ∧ is 0xC4070041 (.mwload 7 1) ∧ is 0xC4084882 (.mma 8 9 false 2) ∧ is 0xC4084892 (.mma 8 9 true 2) ∧
    is 0xC40000C2 (.maccz false 2) ∧ is 0xC40A5913 (.maccst 10 11 true 3) ∧ is 0xC4A63994 (.maload 5 6 7 false true 4) ∧
    is 0xC4A001C0 (.mstat 5) ∧ is 0xA4621020 (.upd 6 8 16 1) ∧ is 0xA4621001 (.upda 6 8 16 0) ∧ is 0xA4010C03 (.uacc 4 12 0) ∧
    is 0xA4000004 .umerge ∧ is 0xA4600005 (.uflush 6) ∧ is 0xA451C006 (.uregion 5 7) ∧ is 0xA451C106 (.uregionRel 5 7) ∧
    is 0xCCA63883 (.route 5 6 7 3) ∧ is 0xCD0000C0 (.recv 8) ∧ is 0xCC094104 (.rret 9 8 4) ∧ is 0xCC004114 (.rretErr 8 4) ∧
    is 0xCC0639D0 (.rscfgInbox 6 7) ∧ is 0xD0A60000 (.ccomm 5 6) ∧ is 0xD0A60040 (.cfree 5 6) ∧ is 0xD0E54080 (.cbind 7 5 8) ∧
    is 0xD08700C0 (.cunbind 4 7) ∧ is 0xD1255102 (.cstart 9 5 10 2) ∧ is 0xD0075943 (.csend 7 11 3) ∧ is 0xD0076183 (.cfetch 7 12 3) ∧
    is 0xD08501C0 (.cstat 4 5) ∧ is 0xD0850200 (.ccancel 4 5) ∧
    is 0x08E03456 (.addi 7 0 0x3456) ∧ is 0x88210020 (.vaddVs 2 4 0 0 true) ∧
    decode (bytesOfWord 0xFC000012 ++ bytesOfWord 0x08E03456) = .ok ((.pfx 0x12 0x08E03456), []) ∧
    decode (bytesOfWord 0xFCFF0000 ++ bytesOfWord 0x88210020) = .ok ((.pfx 0xFF0000 0x88210020), [])

/-- O60. Where a strand has its turn, issues in its slot and its vector unit has nothing to do first, the step fetches the word at its PC, and the word after it where the first is a PFX, and runs what they decode to in the state that the fetch leaves, after which the watchers look at what it wrote, section runs of cohorts that have ended stop at the ends of their tiles, the queues of the collective engines follow, and one clk has passed; a word that is no instruction runs the illegal-instruction trap, a fetch that faults the fetch trap. An event runs as itself. The order of turns and events is an input (log 2), one clk a step the model’s choice (log 3). What the spec leaves open or to inference here is the model’s, as in log 64. (from 05 R48, 05 R59, 09 R122, 09 R123, 09 R124, 07 R76, 01 R15, 17 R269) -/
def Obligations.StepRunsDecodedInstruction : Prop :=
  ∀ (s : State) (p : PlaneId) (rest : List Input), s.held = none →
    let u : State := { s with inputs := rest, cur := p }
    let after (t : State) : State :=
      let x := t.watch.stopEnded.readyQueues
      { x with cycle := x.cycle + 1 }
    let ticks (o : Host.Outcome State Fault Refusal) : Prop := ∀ t, o = .next t → step { s with inputs := .strand p :: rest } = .next (after t)
    (∀ i t, exec i { s with inputs := rest } = .next t → step { s with inputs := .event i :: rest } = .next (after t)) ∧
    (u.mayIssue p = true → (u.vectorKeepsUp p = true → u.vturn 0 = .idle) →
      (∀ w u1, u.fetch u.me.pc = .ok (w, u1) → isPfx w = false →
        (∀ i, decode (bytesOfWord w) = .ok (i, []) → ticks (exec i u1)) ∧
        (decode (bytesOfWord w) = .error (.illegal w) → ticks (exec (.illegalInstruction w) u1))) ∧
      (∀ w w2 u1 u2, u.fetch u.me.pc = .ok (w, u1) → isPfx w = true → u1.fetch (u.me.pc + 4) = .ok (w2, u2) →
        ticks (exec (.pfx (w.extractLsb' 0 26) w2) u2)) ∧
      (∀ k va, u.fetch u.me.pc = .error (.xlate k va) → ticks (exec (.instructionFetchFault va k) u))) ∧
    (s.inputs = [] → ∀ t, step { s with inputs := [.strand s.cur] } = .next t → step s = .next t)
end

