-- ==== Sys2Proof/Laws/Decode.lean ====
section
/-! SUPPORT. Fields of packed words, codes of operand fields, and bytes of words: what the round trip of each instruction uses. -/
namespace Sys2Proof
set_option Elab.async false
set_option linter.unusedSimpArgs false

@[simp] theorem fldOp_packR (op d a b fn mod) : fldOp (packR op d a b fn mod) = op := by
  simp only [fldOp, packR]
  ext j hj
  simp only [BitVec.getElem_extractLsb', BitVec.getLsbD_append]
  grind
@[simp] theorem fldD_packR (op d a b fn mod) : fldD (packR op d a b fn mod) = d := by
  simp only [fldD, packR]
  ext j hj
  simp only [BitVec.getElem_extractLsb', BitVec.getLsbD_append]
  grind
@[simp] theorem fldA_packR (op d a b fn mod) : fldA (packR op d a b fn mod) = a := by
  simp only [fldA, packR]
  ext j hj
  simp only [BitVec.getElem_extractLsb', BitVec.getLsbD_append]
  grind
@[simp] theorem fldB_packR (op d a b fn mod) : fldB (packR op d a b fn mod) = b := by
  simp only [fldB, packR]
  ext j hj
  simp only [BitVec.getElem_extractLsb', BitVec.getLsbD_append]
  grind
@[simp] theorem fldFn_packR (op d a b fn mod) : fldFn (packR op d a b fn mod) = fn := by
  simp only [fldFn, packR]
  ext j hj
  simp only [BitVec.getElem_extractLsb', BitVec.getLsbD_append]
  grind
@[simp] theorem fldMod_packR (op d a b fn mod) : fldMod (packR op d a b fn mod) = mod := by
  simp only [fldMod, packR]
  ext j hj
  simp only [BitVec.getElem_extractLsb', BitVec.getLsbD_append]
  grind
@[simp] theorem fldOp_packI (op d a imm) : fldOp (packI op d a imm) = op := by
  simp only [fldOp, packI]
  ext j hj
  simp only [BitVec.getElem_extractLsb', BitVec.getLsbD_append]
  grind
@[simp] theorem fldD_packI (op d a imm) : fldD (packI op d a imm) = d := by
  simp only [fldD, packI]
  ext j hj
  simp only [BitVec.getElem_extractLsb', BitVec.getLsbD_append]
  grind
@[simp] theorem fldA_packI (op d a imm) : fldA (packI op d a imm) = a := by
  simp only [fldA, packI]
  ext j hj
  simp only [BitVec.getElem_extractLsb', BitVec.getLsbD_append]
  grind
@[simp] theorem fldImm_packI (op d a imm) : fldImm (packI op d a imm) = imm := by
  simp only [fldImm, packI]
  ext j hj
  simp only [BitVec.getElem_extractLsb', BitVec.getLsbD_append]
  grind
@[simp] theorem fldOp_packJ (op d j) : fldOp (packJ op d j) = op := by
  simp only [fldOp, packJ]
  ext j hj
  simp only [BitVec.getElem_extractLsb', BitVec.getLsbD_append]
  grind
@[simp] theorem fldD_packJ (op d j) : fldD (packJ op d j) = d := by
  simp only [fldD, packJ]
  ext j hj
  simp only [BitVec.getElem_extractLsb', BitVec.getLsbD_append]
  grind
@[simp] theorem fldJ_packJ (op d j) : fldJ (packJ op d j) = j := by
  simp only [fldJ, packJ]
  ext j hj
  simp only [BitVec.getElem_extractLsb', BitVec.getLsbD_append]
  grind
@[simp] theorem fldOp_packV (op vd va vb m fn) : fldOp (packV op vd va vb m fn) = op := by
  simp only [fldOp, packV]
  ext j hj
  simp only [BitVec.getElem_extractLsb', BitVec.getLsbD_append]
  grind
@[simp] theorem fldVd_packV (op vd va vb m fn) : fldVd (packV op vd va vb m fn) = vd := by
  simp only [fldVd, packV]
  ext j hj
  simp only [BitVec.getElem_extractLsb', BitVec.getLsbD_append]
  grind
@[simp] theorem fldVa_packV (op vd va vb m fn) : fldVa (packV op vd va vb m fn) = va := by
  simp only [fldVa, packV]
  ext j hj
  simp only [BitVec.getElem_extractLsb', BitVec.getLsbD_append]
  grind
@[simp] theorem fldVb_packV (op vd va vb m fn) : fldVb (packV op vd va vb m fn) = vb := by
  simp only [fldVb, packV]
  ext j hj
  simp only [BitVec.getElem_extractLsb', BitVec.getLsbD_append]
  grind
@[simp] theorem fldM_packV (op vd va vb m fn) : fldM (packV op vd va vb m fn) = m := by
  simp only [fldM, packV]
  ext j hj
  simp only [BitVec.getElem_extractLsb', BitVec.getLsbD_append]
  grind
@[simp] theorem fldVfn_packV (op vd va vb m fn) : fldVfn (packV op vd va vb m fn) = fn := by
  simp only [fldVfn, packV]
  ext j hj
  simp only [BitVec.getElem_extractLsb', BitVec.getLsbD_append]
  grind
@[simp] theorem fldOp_packS (op vd va xb m i fn) : fldOp (packS op vd va xb m i fn) = op := by
  simp only [fldOp, packS]
  ext j hj
  simp only [BitVec.getElem_extractLsb', BitVec.getLsbD_append]
  grind
@[simp] theorem fldVd_packS (op vd va xb m i fn) : fldVd (packS op vd va xb m i fn) = vd := by
  simp only [fldVd, packS]
  ext j hj
  simp only [BitVec.getElem_extractLsb', BitVec.getLsbD_append]
  grind
@[simp] theorem fldVa_packS (op vd va xb m i fn) : fldVa (packS op vd va xb m i fn) = va := by
  simp only [fldVa, packS]
  ext j hj
  simp only [BitVec.getElem_extractLsb', BitVec.getLsbD_append]
  grind
@[simp] theorem fldXb_packS (op vd va xb m i fn) : fldXb (packS op vd va xb m i fn) = xb := by
  simp only [fldXb, packS]
  ext j hj
  simp only [BitVec.getElem_extractLsb', BitVec.getLsbD_append]
  grind
@[simp] theorem fldSm_packS (op vd va xb m i fn) : fldSm (packS op vd va xb m i fn) = m := by
  simp only [fldSm, packS]
  ext j hj
  simp only [BitVec.getElem_extractLsb', BitVec.getLsbD_append]
  grind
@[simp] theorem fldSi_packS (op vd va xb m i fn) : fldSi (packS op vd va xb m i fn) = i := by
  simp only [fldSi, packS]
  ext j hj
  simp only [BitVec.getElem_extractLsb', BitVec.getLsbD_append]
  grind
@[simp] theorem fldVfn_packS (op vd va xb m i fn) : fldVfn (packS op vd va xb m i fn) = fn := by
  simp only [fldVfn, packS]
  ext j hj
  simp only [BitVec.getElem_extractLsb', BitVec.getLsbD_append]
  grind
@[simp] theorem fldOp_packM (op vd xa b m q fn) : fldOp (packM op vd xa b m q fn) = op := by
  simp only [fldOp, packM]
  ext j hj
  simp only [BitVec.getElem_extractLsb', BitVec.getLsbD_append]
  grind
@[simp] theorem fldVd_packM (op vd xa b m q fn) : fldVd (packM op vd xa b m q fn) = vd := by
  simp only [fldVd, packM]
  ext j hj
  simp only [BitVec.getElem_extractLsb', BitVec.getLsbD_append]
  grind
@[simp] theorem fldXa_packM (op vd xa b m q fn) : fldXa (packM op vd xa b m q fn) = xa := by
  simp only [fldXa, packM]
  ext j hj
  simp only [BitVec.getElem_extractLsb', BitVec.getLsbD_append]
  grind
@[simp] theorem fldMb_packM (op vd xa b m q fn) : fldMb (packM op vd xa b m q fn) = b := by
  simp only [fldMb, packM]
  ext j hj
  simp only [BitVec.getElem_extractLsb', BitVec.getLsbD_append]
  grind
@[simp] theorem fldSm_packM (op vd xa b m q fn) : fldSm (packM op vd xa b m q fn) = m := by
  simp only [fldSm, packM]
  ext j hj
  simp only [BitVec.getElem_extractLsb', BitVec.getLsbD_append]
  grind
@[simp] theorem fldMq_packM (op vd xa b m q fn) : fldMq (packM op vd xa b m q fn) = q := by
  simp only [fldMq, packM]
  ext j hj
  simp only [BitVec.getElem_extractLsb', BitVec.getLsbD_append]
  grind
@[simp] theorem fldMfn_packM (op vd xa b m q fn) : fldMfn (packM op vd xa b m q fn) = fn := by
  simp only [fldMfn, packM]
  ext j hj
  simp only [BitVec.getElem_extractLsb', BitVec.getLsbD_append]
  grind

/-! ### The decoder of each major opcode -/

@[simp] theorem decodeWord_Int (d a b fn mod) : decodeWord (packR 1#6 d a b fn mod) = decodeInt d a b fn mod := by simp [decodeWord]
@[simp] theorem decodeWord_Addi (d a imm) : decodeWord (packI 2#6 d a imm) = decodeAddi d a imm := by simp [decodeWord]
@[simp] theorem decodeWord_Andi (d a imm) : decodeWord (packI 3#6 d a imm) = decodeAndi d a imm := by simp [decodeWord]
@[simp] theorem decodeWord_Ori (d a imm) : decodeWord (packI 4#6 d a imm) = decodeOri d a imm := by simp [decodeWord]
@[simp] theorem decodeWord_Xori (d a imm) : decodeWord (packI 5#6 d a imm) = decodeXori d a imm := by simp [decodeWord]
@[simp] theorem decodeWord_Slti (d a imm) : decodeWord (packI 6#6 d a imm) = decodeSlti d a imm := by simp [decodeWord]
@[simp] theorem decodeWord_Lih (d a imm) : decodeWord (packI 7#6 d a imm) = decodeLih d a imm := by simp [decodeWord]
@[simp] theorem decodeWord_Shi (d a imm) : decodeWord (packI 8#6 d a imm) = decodeShi d a imm := by simp [decodeWord]
@[simp] theorem decodeWord_Ld (d a imm) : decodeWord (packI 9#6 d a imm) = decodeLd d a imm := by simp [decodeWord]
@[simp] theorem decodeWord_Ldz (d a imm) : decodeWord (packI 10#6 d a imm) = decodeLdz d a imm := by simp [decodeWord]
@[simp] theorem decodeWord_St (d a imm) : decodeWord (packI 11#6 d a imm) = decodeSt d a imm := by simp [decodeWord]
@[simp] theorem decodeWord_Fmem (d a imm) : decodeWord (packI 12#6 d a imm) = decodeFmem d a imm := by simp [decodeWord]
@[simp] theorem decodeWord_Beq (d a imm) : decodeWord (packI 13#6 d a imm) = decodeBeq d a imm := by simp [decodeWord]
@[simp] theorem decodeWord_Bne (d a imm) : decodeWord (packI 14#6 d a imm) = decodeBne d a imm := by simp [decodeWord]
@[simp] theorem decodeWord_Blt (d a imm) : decodeWord (packI 15#6 d a imm) = decodeBlt d a imm := by simp [decodeWord]
@[simp] theorem decodeWord_Bge (d a imm) : decodeWord (packI 16#6 d a imm) = decodeBge d a imm := by simp [decodeWord]
@[simp] theorem decodeWord_Blo (d a imm) : decodeWord (packI 17#6 d a imm) = decodeBlo d a imm := by simp [decodeWord]
@[simp] theorem decodeWord_Bhs (d a imm) : decodeWord (packI 18#6 d a imm) = decodeBhs d a imm := by simp [decodeWord]
@[simp] theorem decodeWord_Jl (d j) : decodeWord (packJ 19#6 d j) = decodeJl d j := by simp [decodeWord]
@[simp] theorem decodeWord_Jlr (d a imm) : decodeWord (packI 20#6 d a imm) = decodeJlr d a imm := by simp [decodeWord]
@[simp] theorem decodeWord_Fp (d a b fn mod) : decodeWord (packR 21#6 d a b fn mod) = decodeFp d a b fn mod := by simp [decodeWord]
@[simp] theorem decodeWord_Amo (d a b fn mod) : decodeWord (packR 22#6 d a b fn mod) = decodeAmo d a b fn mod := by simp [decodeWord]
@[simp] theorem decodeWord_Sync (d a b fn mod) : decodeWord (packR 23#6 d a b fn mod) = decodeSync d a b fn mod := by simp [decodeWord]
@[simp] theorem decodeWord_Sys (d a b fn mod) : decodeWord (packR 24#6 d a b fn mod) = decodeSys d a b fn mod := by simp [decodeWord]
@[simp] theorem decodeWord_TagTable (d a b fn mod) : decodeWord (packR 25#6 d a b fn mod) = decodeTagTable d a b fn mod := by simp [decodeWord]
@[simp] theorem decodeWord_Vcfg (d a b fn mod) : decodeWord (packR 32#6 d a b fn mod) = decodeVcfg d a b fn mod := by simp [decodeWord]
@[simp] theorem decodeWord_Varith (vd va vb m fn) : decodeWord (packV 33#6 vd va vb m fn) = decodeVarith vd va vb m fn := by simp [decodeWord]
@[simp] theorem decodeWord_Variths (vd va xb m i fn) : decodeWord (packS 34#6 vd va xb m i fn) = decodeVariths vd va xb m i fn := by simp [decodeWord]
@[simp] theorem decodeWord_Vcmp (vd va vb m fn) : decodeWord (packV 35#6 vd va vb m fn) = decodeVcmp vd va vb m fn := by simp [decodeWord]
@[simp] theorem decodeWord_Vred (vd va vb m fn) : decodeWord (packV 36#6 vd va vb m fn) = decodeVred vd va vb m fn := by simp [decodeWord]
@[simp] theorem decodeWord_Vconv (vd va vb m fn) : decodeWord (packV 37#6 vd va vb m fn) = decodeVconv vd va vb m fn := by simp [decodeWord]
@[simp] theorem decodeWord_Vperm (vd va vb m fn) : decodeWord (packV 38#6 vd va vb m fn) = decodeVperm vd va vb m fn := by simp [decodeWord]
@[simp] theorem decodeWord_Vload (vd xa b m q fn) : decodeWord (packM 39#6 vd xa b m q fn) = decodeVload vd xa b m q fn := by simp [decodeWord]
@[simp] theorem decodeWord_Vstore (vd xa b m q fn) : decodeWord (packM 40#6 vd xa b m q fn) = decodeVstore vd xa b m q fn := by simp [decodeWord]
@[simp] theorem decodeWord_Vupd (vd va vb m fn) : decodeWord (packV 41#6 vd va vb m fn) = decodeVupd vd va vb m fn := by simp [decodeWord]
@[simp] theorem decodeWord_Vsync (vd va vb m fn) : decodeWord (packV 42#6 vd va vb m fn) = decodeVsync vd va vb m fn := by simp [decodeWord]
@[simp] theorem decodeWord_Trellis (d a b fn mod) : decodeWord (packR 48#6 d a b fn mod) = decodeTrellis d a b fn mod := by simp [decodeWord]
@[simp] theorem decodeWord_Matrix (d a b fn mod) : decodeWord (packR 49#6 d a b fn mod) = decodeMatrix d a b fn mod := by simp [decodeWord]
@[simp] theorem decodeWord_Graph (d a b fn mod) : decodeWord (packR 50#6 d a b fn mod) = decodeGraph d a b fn mod := by simp [decodeWord]
@[simp] theorem decodeWord_Route (d a b fn mod) : decodeWord (packR 51#6 d a b fn mod) = decodeRoute d a b fn mod := by simp [decodeWord]
@[simp] theorem decodeWord_Coll (d a b fn mod) : decodeWord (packR 52#6 d a b fn mod) = decodeColl d a b fn mod := by simp [decodeWord]
@[simp] theorem decodeWord_Copy (d a b fn mod) : decodeWord (packR 53#6 d a b fn mod) = decodeCopy d a b fn mod := by simp [decodeWord]
@[simp] theorem isPfx_packR (op d a b fn mod) : isPfx (packR op d a b fn mod) = (op == 63#6) := by simp [isPfx]
@[simp] theorem isPfx_packI (op d a imm) : isPfx (packI op d a imm) = (op == 63#6) := by simp [isPfx]
@[simp] theorem isPfx_packJ (op d j) : isPfx (packJ op d j) = (op == 63#6) := by simp [isPfx]
@[simp] theorem isPfx_packV (op vd va vb m fn) : isPfx (packV op vd va vb m fn) = (op == 63#6) := by simp [isPfx]
@[simp] theorem isPfx_packS (op vd va xb m i fn) : isPfx (packS op vd va xb m i fn) = (op == 63#6) := by simp [isPfx]
@[simp] theorem isPfx_packM (op vd xa b m q fn) : isPfx (packM op vd xa b m q fn) = (op == 63#6) := by simp [isPfx]

@[simp] theorem wordOfBytes_bytes (w : IWord) :
    wordOfBytes (w.extractLsb' 0 8) (w.extractLsb' 8 8) (w.extractLsb' 16 8) (w.extractLsb' 24 8) = w := by
  simp only [wordOfBytes]
  ext j hj
  simp only [BitVec.getElem_append, BitVec.getElem_extractLsb']
  grind

/-- The decoding of one word that is no PFX. -/
theorem decode_word {w : IWord} {i : Instr} (hp : isPfx w = false) (h : decodeWord w = some i) (rest : List Byte) :
    decode ([w].flatMap bytesOfWord ++ rest) = .ok (i, rest) := by
  simp [decode, bytesOfWord, hp, h]

@[simp] theorem RMode.ofCode?_code (r : RMode) : RMode.ofCode? r.code = some r := by cases r <;> rfl
@[simp] theorem Scope.ofCode?_code (r : Scope) : Scope.ofCode? r.code = some r := by cases r <;> rfl
@[simp] theorem Order.ofCode_code (r : Order) : Order.ofCode r.code = r := by cases r <;> rfl
@[simp] theorem FFmt.ofCode?_code (r : FFmt) : FFmt.ofCode? r.code = some r := by cases r <;> rfl
@[simp] theorem Size.ofCode?_code (r : Size) : Size.ofCode? r.code = some r := by cases r <;> rfl
@[simp] theorem Growth.ofCode?_code (r : Growth) : Growth.ofCode? r.code = some r := by cases r <;> rfl
@[simp] theorem CReg.ofCode?_code (r : CReg) : CReg.ofCode? r.code = some r := by cases r <;> rfl
@[simp] theorem Tag.ofCode?_code (r : Tag) : Tag.ofCode? r.code = some r := by cases r <;> rfl

/-! ### Fields of fields -/

@[simp] theorem high_1_4 (x : BitVec 1) (y : BitVec 4) : (x ++ y).extractLsb' 4 1 = x := by
  ext j hj; simp only [BitVec.getElem_extractLsb', BitVec.getLsbD_append, BitVec.getElem_append, BitVec.getLsbD_extractLsb']; grind
@[simp] theorem low_1_4 (x : BitVec 1) (y : BitVec 4) : (x ++ y).extractLsb' 0 4 = y := by
  ext j hj; simp only [BitVec.getElem_extractLsb', BitVec.getLsbD_append, BitVec.getElem_append, BitVec.getLsbD_extractLsb']; grind
@[simp] theorem high_2_3 (x : BitVec 2) (y : BitVec 3) : (x ++ y).extractLsb' 3 2 = x := by
  ext j hj; simp only [BitVec.getElem_extractLsb', BitVec.getLsbD_append, BitVec.getElem_append, BitVec.getLsbD_extractLsb']; grind
@[simp] theorem low_2_3 (x : BitVec 2) (y : BitVec 3) : (x ++ y).extractLsb' 0 3 = y := by
  ext j hj; simp only [BitVec.getElem_extractLsb', BitVec.getLsbD_append, BitVec.getElem_append, BitVec.getLsbD_extractLsb']; grind
@[simp] theorem high_3_2 (x : BitVec 3) (y : BitVec 2) : (x ++ y).extractLsb' 2 3 = x := by
  ext j hj; simp only [BitVec.getElem_extractLsb', BitVec.getLsbD_append, BitVec.getElem_append, BitVec.getLsbD_extractLsb']; grind
@[simp] theorem low_3_2 (x : BitVec 3) (y : BitVec 2) : (x ++ y).extractLsb' 0 2 = y := by
  ext j hj; simp only [BitVec.getElem_extractLsb', BitVec.getLsbD_append, BitVec.getElem_append, BitVec.getLsbD_extractLsb']; grind
@[simp] theorem high_4_1 (x : BitVec 4) (y : BitVec 1) : (x ++ y).extractLsb' 1 4 = x := by
  ext j hj; simp only [BitVec.getElem_extractLsb', BitVec.getLsbD_append, BitVec.getElem_append, BitVec.getLsbD_extractLsb']; grind
@[simp] theorem low_4_1 (x : BitVec 4) (y : BitVec 1) : (x ++ y).extractLsb' 0 1 = y := by
  ext j hj; simp only [BitVec.getElem_extractLsb', BitVec.getLsbD_append, BitVec.getElem_append, BitVec.getLsbD_extractLsb']; grind
@[simp] theorem high_1_5 (x : BitVec 1) (y : BitVec 5) : (x ++ y).extractLsb' 5 1 = x := by
  ext j hj; simp only [BitVec.getElem_extractLsb', BitVec.getLsbD_append, BitVec.getElem_append, BitVec.getLsbD_extractLsb']; grind
@[simp] theorem low_1_5 (x : BitVec 1) (y : BitVec 5) : (x ++ y).extractLsb' 0 5 = y := by
  ext j hj; simp only [BitVec.getElem_extractLsb', BitVec.getLsbD_append, BitVec.getElem_append, BitVec.getLsbD_extractLsb']; grind
@[simp] theorem high_2_4 (x : BitVec 2) (y : BitVec 4) : (x ++ y).extractLsb' 4 2 = x := by
  ext j hj; simp only [BitVec.getElem_extractLsb', BitVec.getLsbD_append, BitVec.getElem_append, BitVec.getLsbD_extractLsb']; grind
@[simp] theorem low_2_4 (x : BitVec 2) (y : BitVec 4) : (x ++ y).extractLsb' 0 4 = y := by
  ext j hj; simp only [BitVec.getElem_extractLsb', BitVec.getLsbD_append, BitVec.getElem_append, BitVec.getLsbD_extractLsb']; grind
@[simp] theorem high_3_3 (x : BitVec 3) (y : BitVec 3) : (x ++ y).extractLsb' 3 3 = x := by
  ext j hj; simp only [BitVec.getElem_extractLsb', BitVec.getLsbD_append, BitVec.getElem_append, BitVec.getLsbD_extractLsb']; grind
@[simp] theorem low_3_3 (x : BitVec 3) (y : BitVec 3) : (x ++ y).extractLsb' 0 3 = y := by
  ext j hj; simp only [BitVec.getElem_extractLsb', BitVec.getLsbD_append, BitVec.getElem_append, BitVec.getLsbD_extractLsb']; grind
@[simp] theorem high_4_2 (x : BitVec 4) (y : BitVec 2) : (x ++ y).extractLsb' 2 4 = x := by
  ext j hj; simp only [BitVec.getElem_extractLsb', BitVec.getLsbD_append, BitVec.getElem_append, BitVec.getLsbD_extractLsb']; grind
@[simp] theorem low_4_2 (x : BitVec 4) (y : BitVec 2) : (x ++ y).extractLsb' 0 2 = y := by
  ext j hj; simp only [BitVec.getElem_extractLsb', BitVec.getLsbD_append, BitVec.getElem_append, BitVec.getLsbD_extractLsb']; grind
@[simp] theorem high_5_1 (x : BitVec 5) (y : BitVec 1) : (x ++ y).extractLsb' 1 5 = x := by
  ext j hj; simp only [BitVec.getElem_extractLsb', BitVec.getLsbD_append, BitVec.getElem_append, BitVec.getLsbD_extractLsb']; grind
@[simp] theorem low_5_1 (x : BitVec 5) (y : BitVec 1) : (x ++ y).extractLsb' 0 1 = y := by
  ext j hj; simp only [BitVec.getElem_extractLsb', BitVec.getLsbD_append, BitVec.getElem_append, BitVec.getLsbD_extractLsb']; grind
@[simp] theorem high_2_14 (x : BitVec 2) (y : BitVec 14) : (x ++ y).extractLsb' 14 2 = x := by
  ext j hj; simp only [BitVec.getElem_extractLsb', BitVec.getLsbD_append, BitVec.getElem_append, BitVec.getLsbD_extractLsb']; grind
@[simp] theorem low_2_14 (x : BitVec 2) (y : BitVec 14) : (x ++ y).extractLsb' 0 14 = y := by
  ext j hj; simp only [BitVec.getElem_extractLsb', BitVec.getLsbD_append, BitVec.getElem_append, BitVec.getLsbD_extractLsb']; grind
@[simp] theorem high_10_6 (x : BitVec 10) (y : BitVec 6) : (x ++ y).extractLsb' 6 10 = x := by
  ext j hj; simp only [BitVec.getElem_extractLsb', BitVec.getLsbD_append, BitVec.getElem_append, BitVec.getLsbD_extractLsb']; grind
@[simp] theorem low_10_6 (x : BitVec 10) (y : BitVec 6) : (x ++ y).extractLsb' 0 6 = y := by
  ext j hj; simp only [BitVec.getElem_extractLsb', BitVec.getLsbD_append, BitVec.getElem_append, BitVec.getLsbD_extractLsb']; grind
@[simp] theorem high_2_1 (x : BitVec 2) (y : BitVec 1) : (x ++ y).extractLsb' 1 2 = x := by
  ext j hj; simp only [BitVec.getElem_extractLsb', BitVec.getLsbD_append, BitVec.getElem_append, BitVec.getLsbD_extractLsb']; grind
@[simp] theorem low_2_1 (x : BitVec 2) (y : BitVec 1) : (x ++ y).extractLsb' 0 1 = y := by
  ext j hj; simp only [BitVec.getElem_extractLsb', BitVec.getLsbD_append, BitVec.getElem_append, BitVec.getLsbD_extractLsb']; grind
@[simp] theorem first_of_2_1_3 (x : BitVec 2) (y : BitVec 1) (z : BitVec 3) : (x ++ y ++ z).extractLsb' 4 2 = x := by
  ext j hj; simp only [BitVec.getElem_extractLsb', BitVec.getLsbD_append, BitVec.getElem_append, BitVec.getLsbD_extractLsb']; grind
@[simp] theorem second_of_2_1_3 (x : BitVec 2) (y : BitVec 1) (z : BitVec 3) : (x ++ y ++ z).extractLsb' 3 1 = y := by
  ext j hj; simp only [BitVec.getElem_extractLsb', BitVec.getLsbD_append, BitVec.getElem_append, BitVec.getLsbD_extractLsb']; grind
@[simp] theorem third_of_2_1_3 (x : BitVec 2) (y : BitVec 1) (z : BitVec 3) : (x ++ y ++ z).extractLsb' 0 3 = z := by
  ext j hj; simp only [BitVec.getElem_extractLsb', BitVec.getLsbD_append, BitVec.getElem_append, BitVec.getLsbD_extractLsb']; grind
@[simp] theorem first_of_2_3_1 (x : BitVec 2) (y : BitVec 3) (z : BitVec 1) : (x ++ y ++ z).extractLsb' 4 2 = x := by
  ext j hj; simp only [BitVec.getElem_extractLsb', BitVec.getLsbD_append, BitVec.getElem_append, BitVec.getLsbD_extractLsb']; grind
@[simp] theorem second_of_2_3_1 (x : BitVec 2) (y : BitVec 3) (z : BitVec 1) : (x ++ y ++ z).extractLsb' 1 3 = y := by
  ext j hj; simp only [BitVec.getElem_extractLsb', BitVec.getLsbD_append, BitVec.getElem_append, BitVec.getLsbD_extractLsb']; grind
@[simp] theorem third_of_2_3_1 (x : BitVec 2) (y : BitVec 3) (z : BitVec 1) : (x ++ y ++ z).extractLsb' 0 1 = z := by
  ext j hj; simp only [BitVec.getElem_extractLsb', BitVec.getLsbD_append, BitVec.getElem_append, BitVec.getLsbD_extractLsb']; grind
@[simp] theorem first_of_1_1_4 (x : BitVec 1) (y : BitVec 1) (z : BitVec 4) : (x ++ y ++ z).extractLsb' 5 1 = x := by
  ext j hj; simp only [BitVec.getElem_extractLsb', BitVec.getLsbD_append, BitVec.getElem_append, BitVec.getLsbD_extractLsb']; grind
@[simp] theorem second_of_1_1_4 (x : BitVec 1) (y : BitVec 1) (z : BitVec 4) : (x ++ y ++ z).extractLsb' 4 1 = y := by
  ext j hj; simp only [BitVec.getElem_extractLsb', BitVec.getLsbD_append, BitVec.getElem_append, BitVec.getLsbD_extractLsb']; grind
@[simp] theorem third_of_1_1_4 (x : BitVec 1) (y : BitVec 1) (z : BitVec 4) : (x ++ y ++ z).extractLsb' 0 4 = z := by
  ext j hj; simp only [BitVec.getElem_extractLsb', BitVec.getLsbD_append, BitVec.getElem_append, BitVec.getLsbD_extractLsb']; grind
@[simp] theorem shift_code (x : BitVec 10) (y : BitVec 6) : (x ++ y).extractLsb' 14 2 = x.extractLsb' 8 2 := by
  ext j hj; simp only [BitVec.getElem_extractLsb', BitVec.getLsbD_append, BitVec.getElem_append, BitVec.getLsbD_extractLsb']; grind
@[simp] theorem bit4_2_4 (x : BitVec 2) (y : BitVec 4) : (x ++ y).extractLsb' 4 1 = x.extractLsb' 0 1 := by
  ext j hj; simp only [BitVec.getElem_extractLsb', BitVec.getLsbD_append, BitVec.getElem_append, BitVec.getLsbD_extractLsb']; grind
@[simp] theorem bit4_2_3_1 (x : BitVec 2) (y : BitVec 3) (z : BitVec 1) : (x ++ y ++ z).extractLsb' 4 1 = x.extractLsb' 0 1 := by
  ext j hj; simp only [BitVec.getElem_extractLsb', BitVec.getLsbD_append, BitVec.getElem_append, BitVec.getLsbD_extractLsb']; grind
@[simp] theorem split_10 (x : BitVec 10) : x.extractLsb' 5 5 ++ x.extractLsb' 0 5 = x := by
  ext j hj; simp only [BitVec.getElem_extractLsb', BitVec.getLsbD_append, BitVec.getElem_append, BitVec.getLsbD_extractLsb']; grind
@[simp] theorem split_11 (x : BitVec 11) : x.extractLsb' 6 5 ++ x.extractLsb' 0 6 = x := by
  ext j hj; simp only [BitVec.getElem_extractLsb', BitVec.getLsbD_append, BitVec.getElem_append, BitVec.getLsbD_extractLsb']; grind
@[simp] theorem ofBool_eq_one (b : Bool) : (BitVec.ofBool b == 1#1) = b := by cases b <;> rfl
@[simp] theorem fcvtKind?_code (k : FcvtKind) : fcvtKind? k.dCode k.aCode k.kindCode = some k := by
  cases k with
  | ff g d a => cases g <;> simp [fcvtKind?, FcvtKind.dCode, FcvtKind.aCode, FcvtKind.kindCode, FFmt.code, FFmt.ofCode?, freg?]
  | _ => simp [fcvtKind?, FcvtKind.dCode, FcvtKind.aCode, FcvtKind.kindCode, freg?]

end Sys2Proof
end

