-- ==== Sys2Proof/Laws/Memory.lean ====
section
/-! SUPPORT. Cells: a read after a write, and the canonical form that every write keeps (log 1). -/
namespace Sys2Proof.Machine

theorem Memory.wfFrom_mono {cs : List Host.Cell} {lo lo' : Nat} (h : Memory.wfFrom lo cs = true) (hl : lo' ≤ lo) : Memory.wfFrom lo' cs = true := by
  cases cs with
  | nil => rfl
  | cons c rest => simp_all [Memory.wfFrom]; omega

/-- A write keeps the canonical form. -/
theorem Memory.wfFrom_set {cs : List Host.Cell} {lo a : Nat} (v : Byte) (h : Memory.wfFrom lo cs = true) (ha : lo ≤ a) :
    Memory.wfFrom lo (Memory.set cs a v) = true := by
  induction cs generalizing lo with
  | nil => simp only [Memory.set]; split <;> simp_all [Memory.wfFrom]
  | cons c rest ih =>
    obtain ⟨b, w⟩ := c
    simp only [Memory.wfFrom, Bool.and_eq_true, decide_eq_true_eq, bne_iff_ne, ne_eq] at h
    simp only [Memory.set]
    split
    · split
      · simp_all [Memory.wfFrom]
      · simp_all [Memory.wfFrom] <;> omega
    · split
      · rename_i h1 h2
        have hab : a = b := by simpa using h2
        subst hab
        split
        · exact Memory.wfFrom_mono h.2 (by omega)
        · simp_all [Memory.wfFrom]
      · rename_i h1 h2
        simp only [Memory.wfFrom, Bool.and_eq_true, decide_eq_true_eq, bne_iff_ne, ne_eq]
        exact ⟨h.1, ih h.2 (by simp at h2; omega)⟩

theorem Memory.wf_set {cs : List Host.Cell} (a : Nat) (v : Byte) (h : Memory.wf cs = true) : Memory.wf (Memory.set cs a v) = true :=
  Memory.wfFrom_set v h (Nat.zero_le a)

theorem Memory.get_below {cs : List Host.Cell} {lo a : Nat} (h : Memory.wfFrom lo cs = true) (ha : a < lo) : Memory.get cs a = 0 := by
  cases cs with
  | nil => rfl
  | cons c rest =>
    simp only [Memory.wfFrom, Bool.and_eq_true, decide_eq_true_eq] at h
    simp only [Memory.get]
    have h1 : ¬ c.1 = a := by omega
    have h2 : a < c.1 := by omega
    simp [h1, h2]

/-- A read after a write: the byte written at its address, every other byte as before. -/
theorem Memory.get_set {cs : List Host.Cell} {lo : Nat} (h : Memory.wfFrom lo cs = true) (a : Nat) (v : Byte) (b : Nat) :
    Memory.get (Memory.set cs a v) b = if b = a then v else Memory.get cs b := by
  induction cs generalizing lo with
  | nil => simp only [Memory.set]; split <;> simp_all [Memory.get] <;> grind
  | cons c rest ih =>
    obtain ⟨k, w⟩ := c
    simp only [Memory.wfFrom, Bool.and_eq_true, decide_eq_true_eq] at h
    have ih := ih h.2
    have hb : ∀ b, b < k + 1 → Memory.get rest b = 0 := fun b hb => Memory.get_below h.2 hb
    simp only [Memory.set]
    split
    · split <;> simp only [Memory.get] <;> grind
    · split
      · split <;> simp only [Memory.get] <;> grind
      · simp only [Memory.get]; grind

end Sys2Proof.Machine
end

