-- ==== Sys2Proof/Laws/State.lean ====
section
/-! SUPPORT. Fields of updated states and planes. -/
namespace Sys2Proof.Machine
set_option Elab.async false

/-! ### Planes of an updated state -/

@[simp] theorem State.plane_setPlane_self (s : State) (p : PlaneId) (v : Plane) : (s.setPlane p v).plane p = v := by
  show (s.planes.set p v)[(p : Nat)] = v
  simp
@[simp] theorem State.plane_setPlane_ne (s : State) {p q : PlaneId} (v : Plane) (h : q ≠ p) : (s.setPlane p v).plane q = s.plane q := by
  have : (p : Nat) ≠ q := fun e => h (Fin.ext e.symm)
  show (s.planes.set p v)[(q : Nat)] = s.planes[(q : Nat)]
  simp [this]
@[simp] theorem State.plane_modPlane_self (s : State) (p : PlaneId) (f : Plane → Plane) : (s.modPlane p f).plane p = f (s.plane p) := by
  simp [State.modPlane]
@[simp] theorem State.plane_modPlane_ne (s : State) {p q : PlaneId} (f : Plane → Plane) (h : q ≠ p) : (s.modPlane p f).plane q = s.plane q := by
  simp [State.modPlane, h]
@[simp] theorem State.me_modMe (s : State) (f : Plane → Plane) : (s.modMe f).me = f s.me := by
  show ((s.modPlane s.cur f).plane s.cur) = _
  simp [State.me]
@[simp] theorem State.plane_modMe_ne (s : State) {q : PlaneId} (f : Plane → Plane) (h : q ≠ s.cur) : (s.modMe f).plane q = s.plane q := by
  simp [State.modMe, h]

/-! ### Fields of the state that an update of a plane leaves -/

@[simp] theorem State.setPlane_inputs (s : State) (p : PlaneId) (v : Plane) : (s.setPlane p v).inputs = s.inputs := rfl
@[simp] theorem State.setPlane_cur (s : State) (p : PlaneId) (v : Plane) : (s.setPlane p v).cur = s.cur := rfl
@[simp] theorem State.setPlane_vlag (s : State) (p : PlaneId) (v : Plane) : (s.setPlane p v).vlag = s.vlag := rfl
@[simp] theorem State.setPlane_free (s : State) (p : PlaneId) (v : Plane) : (s.setPlane p v).free = s.free := rfl
@[simp] theorem State.setPlane_cycle (s : State) (p : PlaneId) (v : Plane) : (s.setPlane p v).cycle = s.cycle := rfl
@[simp] theorem State.setPlane_cores (s : State) (p : PlaneId) (v : Plane) : (s.setPlane p v).cores = s.cores := rfl
@[simp] theorem State.setPlane_mem (s : State) (p : PlaneId) (v : Plane) : (s.setPlane p v).mem = s.mem := rfl
@[simp] theorem State.setPlane_full (s : State) (p : PlaneId) (v : Plane) : (s.setPlane p v).full = s.full := rfl
@[simp] theorem State.setPlane_zsClear (s : State) (p : PlaneId) (v : Plane) : (s.setPlane p v).zsClear = s.zsClear := rfl
@[simp] theorem State.setPlane_poison (s : State) (p : PlaneId) (v : Plane) : (s.setPlane p v).poison = s.poison := rfl
@[simp] theorem State.setPlane_groups (s : State) (p : PlaneId) (v : Plane) : (s.setPlane p v).groups = s.groups := rfl
@[simp] theorem State.setPlane_cohorts (s : State) (p : PlaneId) (v : Plane) : (s.setPlane p v).cohorts = s.cohorts := rfl
@[simp] theorem State.setPlane_nextOrder (s : State) (p : PlaneId) (v : Plane) : (s.setPlane p v).nextOrder = s.nextOrder := rfl
@[simp] theorem State.setPlane_parked (s : State) (p : PlaneId) (v : Plane) : (s.setPlane p v).parked = s.parked := rfl
@[simp] theorem State.setPlane_retired (s : State) (p : PlaneId) (v : Plane) : (s.setPlane p v).retired = s.retired := rfl
@[simp] theorem State.setPlane_doomed (s : State) (p : PlaneId) (v : Plane) : (s.setPlane p v).doomed = s.doomed := rfl
@[simp] theorem State.setPlane_watching (s : State) (p : PlaneId) (v : Plane) : (s.setPlane p v).watching = s.watching := rfl
@[simp] theorem State.setPlane_wrote (s : State) (p : PlaneId) (v : Plane) : (s.setPlane p v).wrote = s.wrote := rfl
@[simp] theorem State.setPlane_wms (s : State) (p : PlaneId) (v : Plane) : (s.setPlane p v).wms = s.wms := rfl
@[simp] theorem State.setPlane_slotLen (s : State) (p : PlaneId) (v : Plane) : (s.setPlane p v).slotLen = s.slotLen := rfl
@[simp] theorem State.setPlane_pkg (s : State) (p : PlaneId) (v : Plane) : (s.setPlane p v).pkg = s.pkg := rfl
@[simp] theorem State.setPlane_domain (s : State) (p : PlaneId) (v : Plane) : (s.setPlane p v).domain = s.domain := rfl
@[simp] theorem State.setPlane_failing (s : State) (p : PlaneId) (v : Plane) : (s.setPlane p v).failing = s.failing := rfl
@[simp] theorem State.setPlane_leeSize (s : State) (p : PlaneId) (v : Plane) : (s.setPlane p v).leeSize = s.leeSize := rfl
@[simp] theorem State.setPlane_regions (s : State) (p : PlaneId) (v : Plane) : (s.setPlane p v).regions = s.regions := rfl
@[simp] theorem State.setPlane_pend (s : State) (p : PlaneId) (v : Plane) : (s.setPlane p v).pend = s.pend := rfl
@[simp] theorem State.setPlane_ops (s : State) (p : PlaneId) (v : Plane) : (s.setPlane p v).ops = s.ops := rfl
@[simp] theorem State.setPlane_tables (s : State) (p : PlaneId) (v : Plane) : (s.setPlane p v).tables = s.tables := rfl
@[simp] theorem State.setPlane_nextTable (s : State) (p : PlaneId) (v : Plane) : (s.setPlane p v).nextTable = s.nextTable := rfl
@[simp] theorem State.setPlane_routes (s : State) (p : PlaneId) (v : Plane) : (s.setPlane p v).routes = s.routes := rfl
@[simp] theorem State.setPlane_awayRows (s : State) (p : PlaneId) (v : Plane) : (s.setPlane p v).awayRows = s.awayRows := rfl
@[simp] theorem State.setPlane_comms (s : State) (p : PlaneId) (v : Plane) : (s.setPlane p v).comms = s.comms := rfl
@[simp] theorem State.setPlane_engines (s : State) (p : PlaneId) (v : Plane) : (s.setPlane p v).engines = s.engines := rfl
@[simp] theorem State.setPlane_wins (s : State) (p : PlaneId) (v : Plane) : (s.setPlane p v).wins = s.wins := rfl
@[simp] theorem State.setPlane_issuedKeys (s : State) (p : PlaneId) (v : Plane) : (s.setPlane p v).issuedKeys = s.issuedKeys := rfl
@[simp] theorem State.setPlane_oldKeys (s : State) (p : PlaneId) (v : Plane) : (s.setPlane p v).oldKeys = s.oldKeys := rfl
@[simp] theorem State.setPlane_hostRegions (s : State) (p : PlaneId) (v : Plane) : (s.setPlane p v).hostRegions = s.hostRegions := rfl
@[simp] theorem State.setPlane_hostMem (s : State) (p : PlaneId) (v : Plane) : (s.setPlane p v).hostMem = s.hostMem := rfl
@[simp] theorem State.setPlane_sessions (s : State) (p : PlaneId) (v : Plane) : (s.setPlane p v).sessions = s.sessions := rfl
@[simp] theorem State.setPlane_nextSession (s : State) (p : PlaneId) (v : Plane) : (s.setPlane p v).nextSession = s.nextSession := rfl
@[simp] theorem State.setPlane_owner (s : State) (p : PlaneId) (v : Plane) : (s.setPlane p v).owner = s.owner := rfl
@[simp] theorem State.setPlane_sent (s : State) (p : PlaneId) (v : Plane) : (s.setPlane p v).sent = s.sent := rfl
@[simp] theorem State.setPlane_completes (s : State) (p : PlaneId) (v : Plane) : (s.setPlane p v).completes = s.completes := rfl
@[simp] theorem State.setPlane_held (s : State) (p : PlaneId) (v : Plane) : (s.setPlane p v).held = s.held := rfl
@[simp] theorem State.setPlane_flashRoot (s : State) (p : PlaneId) (v : Plane) : (s.setPlane p v).flashRoot = s.flashRoot := rfl
@[simp] theorem State.setPlane_flashMgmt (s : State) (p : PlaneId) (v : Plane) : (s.setPlane p v).flashMgmt = s.flashMgmt := rfl
@[simp] theorem State.setPlane_fused (s : State) (p : PlaneId) (v : Plane) : (s.setPlane p v).fused = s.fused := rfl
@[simp] theorem State.setPlane_measRoot (s : State) (p : PlaneId) (v : Plane) : (s.setPlane p v).measRoot = s.measRoot := rfl
@[simp] theorem State.setPlane_measMgmt (s : State) (p : PlaneId) (v : Plane) : (s.setPlane p v).measMgmt = s.measMgmt := rfl
@[simp] theorem State.setPlane_errors (s : State) (p : PlaneId) (v : Plane) : (s.setPlane p v).errors = s.errors := rfl
@[simp] theorem State.setPlane_dropped (s : State) (p : PlaneId) (v : Plane) : (s.setPlane p v).dropped = s.dropped := rfl
@[simp] theorem State.setPlane_frames (s : State) (p : PlaneId) (v : Plane) : (s.setPlane p v).frames = s.frames := rfl
@[simp] theorem State.setPlane_freq (s : State) (p : PlaneId) (v : Plane) : (s.setPlane p v).freq = s.freq := rfl
@[simp] theorem State.setPlane_limit (s : State) (p : PlaneId) (v : Plane) : (s.setPlane p v).limit = s.limit := rfl
@[simp] theorem State.setPlane_ceiling (s : State) (p : PlaneId) (v : Plane) : (s.setPlane p v).ceiling = s.ceiling := rfl
@[simp] theorem State.setPlane_scrubHours (s : State) (p : PlaneId) (v : Plane) : (s.setPlane p v).scrubHours = s.scrubHours := rfl
@[simp] theorem State.setPlane_strong (s : State) (p : PlaneId) (v : Plane) : (s.setPlane p v).strong = s.strong := rfl
@[simp] theorem State.setPlane_lanes (s : State) (p : PlaneId) (v : Plane) : (s.setPlane p v).lanes = s.lanes := rfl
@[simp] theorem State.modPlane_inputs (s : State) (p : PlaneId) (f : Plane → Plane) : (s.modPlane p f).inputs = s.inputs := rfl
@[simp] theorem State.modPlane_cur (s : State) (p : PlaneId) (f : Plane → Plane) : (s.modPlane p f).cur = s.cur := rfl
@[simp] theorem State.modPlane_vlag (s : State) (p : PlaneId) (f : Plane → Plane) : (s.modPlane p f).vlag = s.vlag := rfl
@[simp] theorem State.modPlane_free (s : State) (p : PlaneId) (f : Plane → Plane) : (s.modPlane p f).free = s.free := rfl
@[simp] theorem State.modPlane_cycle (s : State) (p : PlaneId) (f : Plane → Plane) : (s.modPlane p f).cycle = s.cycle := rfl
@[simp] theorem State.modPlane_cores (s : State) (p : PlaneId) (f : Plane → Plane) : (s.modPlane p f).cores = s.cores := rfl
@[simp] theorem State.modPlane_mem (s : State) (p : PlaneId) (f : Plane → Plane) : (s.modPlane p f).mem = s.mem := rfl
@[simp] theorem State.modPlane_full (s : State) (p : PlaneId) (f : Plane → Plane) : (s.modPlane p f).full = s.full := rfl
@[simp] theorem State.modPlane_zsClear (s : State) (p : PlaneId) (f : Plane → Plane) : (s.modPlane p f).zsClear = s.zsClear := rfl
@[simp] theorem State.modPlane_poison (s : State) (p : PlaneId) (f : Plane → Plane) : (s.modPlane p f).poison = s.poison := rfl
@[simp] theorem State.modPlane_groups (s : State) (p : PlaneId) (f : Plane → Plane) : (s.modPlane p f).groups = s.groups := rfl
@[simp] theorem State.modPlane_cohorts (s : State) (p : PlaneId) (f : Plane → Plane) : (s.modPlane p f).cohorts = s.cohorts := rfl
@[simp] theorem State.modPlane_nextOrder (s : State) (p : PlaneId) (f : Plane → Plane) : (s.modPlane p f).nextOrder = s.nextOrder := rfl
@[simp] theorem State.modPlane_parked (s : State) (p : PlaneId) (f : Plane → Plane) : (s.modPlane p f).parked = s.parked := rfl
@[simp] theorem State.modPlane_retired (s : State) (p : PlaneId) (f : Plane → Plane) : (s.modPlane p f).retired = s.retired := rfl
@[simp] theorem State.modPlane_doomed (s : State) (p : PlaneId) (f : Plane → Plane) : (s.modPlane p f).doomed = s.doomed := rfl
@[simp] theorem State.modPlane_watching (s : State) (p : PlaneId) (f : Plane → Plane) : (s.modPlane p f).watching = s.watching := rfl
@[simp] theorem State.modPlane_wrote (s : State) (p : PlaneId) (f : Plane → Plane) : (s.modPlane p f).wrote = s.wrote := rfl
@[simp] theorem State.modPlane_wms (s : State) (p : PlaneId) (f : Plane → Plane) : (s.modPlane p f).wms = s.wms := rfl
@[simp] theorem State.modPlane_slotLen (s : State) (p : PlaneId) (f : Plane → Plane) : (s.modPlane p f).slotLen = s.slotLen := rfl
@[simp] theorem State.modPlane_pkg (s : State) (p : PlaneId) (f : Plane → Plane) : (s.modPlane p f).pkg = s.pkg := rfl
@[simp] theorem State.modPlane_domain (s : State) (p : PlaneId) (f : Plane → Plane) : (s.modPlane p f).domain = s.domain := rfl
@[simp] theorem State.modPlane_failing (s : State) (p : PlaneId) (f : Plane → Plane) : (s.modPlane p f).failing = s.failing := rfl
@[simp] theorem State.modPlane_leeSize (s : State) (p : PlaneId) (f : Plane → Plane) : (s.modPlane p f).leeSize = s.leeSize := rfl
@[simp] theorem State.modPlane_regions (s : State) (p : PlaneId) (f : Plane → Plane) : (s.modPlane p f).regions = s.regions := rfl
@[simp] theorem State.modPlane_pend (s : State) (p : PlaneId) (f : Plane → Plane) : (s.modPlane p f).pend = s.pend := rfl
@[simp] theorem State.modPlane_ops (s : State) (p : PlaneId) (f : Plane → Plane) : (s.modPlane p f).ops = s.ops := rfl
@[simp] theorem State.modPlane_tables (s : State) (p : PlaneId) (f : Plane → Plane) : (s.modPlane p f).tables = s.tables := rfl
@[simp] theorem State.modPlane_nextTable (s : State) (p : PlaneId) (f : Plane → Plane) : (s.modPlane p f).nextTable = s.nextTable := rfl
@[simp] theorem State.modPlane_routes (s : State) (p : PlaneId) (f : Plane → Plane) : (s.modPlane p f).routes = s.routes := rfl
@[simp] theorem State.modPlane_awayRows (s : State) (p : PlaneId) (f : Plane → Plane) : (s.modPlane p f).awayRows = s.awayRows := rfl
@[simp] theorem State.modPlane_comms (s : State) (p : PlaneId) (f : Plane → Plane) : (s.modPlane p f).comms = s.comms := rfl
@[simp] theorem State.modPlane_engines (s : State) (p : PlaneId) (f : Plane → Plane) : (s.modPlane p f).engines = s.engines := rfl
@[simp] theorem State.modPlane_wins (s : State) (p : PlaneId) (f : Plane → Plane) : (s.modPlane p f).wins = s.wins := rfl
@[simp] theorem State.modPlane_issuedKeys (s : State) (p : PlaneId) (f : Plane → Plane) : (s.modPlane p f).issuedKeys = s.issuedKeys := rfl
@[simp] theorem State.modPlane_oldKeys (s : State) (p : PlaneId) (f : Plane → Plane) : (s.modPlane p f).oldKeys = s.oldKeys := rfl
@[simp] theorem State.modPlane_hostRegions (s : State) (p : PlaneId) (f : Plane → Plane) : (s.modPlane p f).hostRegions = s.hostRegions := rfl
@[simp] theorem State.modPlane_hostMem (s : State) (p : PlaneId) (f : Plane → Plane) : (s.modPlane p f).hostMem = s.hostMem := rfl
@[simp] theorem State.modPlane_sessions (s : State) (p : PlaneId) (f : Plane → Plane) : (s.modPlane p f).sessions = s.sessions := rfl
@[simp] theorem State.modPlane_nextSession (s : State) (p : PlaneId) (f : Plane → Plane) : (s.modPlane p f).nextSession = s.nextSession := rfl
@[simp] theorem State.modPlane_owner (s : State) (p : PlaneId) (f : Plane → Plane) : (s.modPlane p f).owner = s.owner := rfl
@[simp] theorem State.modPlane_sent (s : State) (p : PlaneId) (f : Plane → Plane) : (s.modPlane p f).sent = s.sent := rfl
@[simp] theorem State.modPlane_completes (s : State) (p : PlaneId) (f : Plane → Plane) : (s.modPlane p f).completes = s.completes := rfl
@[simp] theorem State.modPlane_held (s : State) (p : PlaneId) (f : Plane → Plane) : (s.modPlane p f).held = s.held := rfl
@[simp] theorem State.modPlane_flashRoot (s : State) (p : PlaneId) (f : Plane → Plane) : (s.modPlane p f).flashRoot = s.flashRoot := rfl
@[simp] theorem State.modPlane_flashMgmt (s : State) (p : PlaneId) (f : Plane → Plane) : (s.modPlane p f).flashMgmt = s.flashMgmt := rfl
@[simp] theorem State.modPlane_fused (s : State) (p : PlaneId) (f : Plane → Plane) : (s.modPlane p f).fused = s.fused := rfl
@[simp] theorem State.modPlane_measRoot (s : State) (p : PlaneId) (f : Plane → Plane) : (s.modPlane p f).measRoot = s.measRoot := rfl
@[simp] theorem State.modPlane_measMgmt (s : State) (p : PlaneId) (f : Plane → Plane) : (s.modPlane p f).measMgmt = s.measMgmt := rfl
@[simp] theorem State.modPlane_errors (s : State) (p : PlaneId) (f : Plane → Plane) : (s.modPlane p f).errors = s.errors := rfl
@[simp] theorem State.modPlane_dropped (s : State) (p : PlaneId) (f : Plane → Plane) : (s.modPlane p f).dropped = s.dropped := rfl
@[simp] theorem State.modPlane_frames (s : State) (p : PlaneId) (f : Plane → Plane) : (s.modPlane p f).frames = s.frames := rfl
@[simp] theorem State.modPlane_freq (s : State) (p : PlaneId) (f : Plane → Plane) : (s.modPlane p f).freq = s.freq := rfl
@[simp] theorem State.modPlane_limit (s : State) (p : PlaneId) (f : Plane → Plane) : (s.modPlane p f).limit = s.limit := rfl
@[simp] theorem State.modPlane_ceiling (s : State) (p : PlaneId) (f : Plane → Plane) : (s.modPlane p f).ceiling = s.ceiling := rfl
@[simp] theorem State.modPlane_scrubHours (s : State) (p : PlaneId) (f : Plane → Plane) : (s.modPlane p f).scrubHours = s.scrubHours := rfl
@[simp] theorem State.modPlane_strong (s : State) (p : PlaneId) (f : Plane → Plane) : (s.modPlane p f).strong = s.strong := rfl
@[simp] theorem State.modPlane_lanes (s : State) (p : PlaneId) (f : Plane → Plane) : (s.modPlane p f).lanes = s.lanes := rfl
@[simp] theorem State.modMe_inputs (s : State) (f : Plane → Plane) : (s.modMe f).inputs = s.inputs := rfl
@[simp] theorem State.modMe_cur (s : State) (f : Plane → Plane) : (s.modMe f).cur = s.cur := rfl
@[simp] theorem State.modMe_vlag (s : State) (f : Plane → Plane) : (s.modMe f).vlag = s.vlag := rfl
@[simp] theorem State.modMe_free (s : State) (f : Plane → Plane) : (s.modMe f).free = s.free := rfl
@[simp] theorem State.modMe_cycle (s : State) (f : Plane → Plane) : (s.modMe f).cycle = s.cycle := rfl
@[simp] theorem State.modMe_cores (s : State) (f : Plane → Plane) : (s.modMe f).cores = s.cores := rfl
@[simp] theorem State.modMe_mem (s : State) (f : Plane → Plane) : (s.modMe f).mem = s.mem := rfl
@[simp] theorem State.modMe_full (s : State) (f : Plane → Plane) : (s.modMe f).full = s.full := rfl
@[simp] theorem State.modMe_zsClear (s : State) (f : Plane → Plane) : (s.modMe f).zsClear = s.zsClear := rfl
@[simp] theorem State.modMe_poison (s : State) (f : Plane → Plane) : (s.modMe f).poison = s.poison := rfl
@[simp] theorem State.modMe_groups (s : State) (f : Plane → Plane) : (s.modMe f).groups = s.groups := rfl
@[simp] theorem State.modMe_cohorts (s : State) (f : Plane → Plane) : (s.modMe f).cohorts = s.cohorts := rfl
@[simp] theorem State.modMe_nextOrder (s : State) (f : Plane → Plane) : (s.modMe f).nextOrder = s.nextOrder := rfl
@[simp] theorem State.modMe_parked (s : State) (f : Plane → Plane) : (s.modMe f).parked = s.parked := rfl
@[simp] theorem State.modMe_retired (s : State) (f : Plane → Plane) : (s.modMe f).retired = s.retired := rfl
@[simp] theorem State.modMe_doomed (s : State) (f : Plane → Plane) : (s.modMe f).doomed = s.doomed := rfl
@[simp] theorem State.modMe_watching (s : State) (f : Plane → Plane) : (s.modMe f).watching = s.watching := rfl
@[simp] theorem State.modMe_wrote (s : State) (f : Plane → Plane) : (s.modMe f).wrote = s.wrote := rfl
@[simp] theorem State.modMe_wms (s : State) (f : Plane → Plane) : (s.modMe f).wms = s.wms := rfl
@[simp] theorem State.modMe_slotLen (s : State) (f : Plane → Plane) : (s.modMe f).slotLen = s.slotLen := rfl
@[simp] theorem State.modMe_pkg (s : State) (f : Plane → Plane) : (s.modMe f).pkg = s.pkg := rfl
@[simp] theorem State.modMe_domain (s : State) (f : Plane → Plane) : (s.modMe f).domain = s.domain := rfl
@[simp] theorem State.modMe_failing (s : State) (f : Plane → Plane) : (s.modMe f).failing = s.failing := rfl
@[simp] theorem State.modMe_leeSize (s : State) (f : Plane → Plane) : (s.modMe f).leeSize = s.leeSize := rfl
@[simp] theorem State.modMe_regions (s : State) (f : Plane → Plane) : (s.modMe f).regions = s.regions := rfl
@[simp] theorem State.modMe_pend (s : State) (f : Plane → Plane) : (s.modMe f).pend = s.pend := rfl
@[simp] theorem State.modMe_ops (s : State) (f : Plane → Plane) : (s.modMe f).ops = s.ops := rfl
@[simp] theorem State.modMe_tables (s : State) (f : Plane → Plane) : (s.modMe f).tables = s.tables := rfl
@[simp] theorem State.modMe_nextTable (s : State) (f : Plane → Plane) : (s.modMe f).nextTable = s.nextTable := rfl
@[simp] theorem State.modMe_routes (s : State) (f : Plane → Plane) : (s.modMe f).routes = s.routes := rfl
@[simp] theorem State.modMe_awayRows (s : State) (f : Plane → Plane) : (s.modMe f).awayRows = s.awayRows := rfl
@[simp] theorem State.modMe_comms (s : State) (f : Plane → Plane) : (s.modMe f).comms = s.comms := rfl
@[simp] theorem State.modMe_engines (s : State) (f : Plane → Plane) : (s.modMe f).engines = s.engines := rfl
@[simp] theorem State.modMe_wins (s : State) (f : Plane → Plane) : (s.modMe f).wins = s.wins := rfl
@[simp] theorem State.modMe_issuedKeys (s : State) (f : Plane → Plane) : (s.modMe f).issuedKeys = s.issuedKeys := rfl
@[simp] theorem State.modMe_oldKeys (s : State) (f : Plane → Plane) : (s.modMe f).oldKeys = s.oldKeys := rfl
@[simp] theorem State.modMe_hostRegions (s : State) (f : Plane → Plane) : (s.modMe f).hostRegions = s.hostRegions := rfl
@[simp] theorem State.modMe_hostMem (s : State) (f : Plane → Plane) : (s.modMe f).hostMem = s.hostMem := rfl
@[simp] theorem State.modMe_sessions (s : State) (f : Plane → Plane) : (s.modMe f).sessions = s.sessions := rfl
@[simp] theorem State.modMe_nextSession (s : State) (f : Plane → Plane) : (s.modMe f).nextSession = s.nextSession := rfl
@[simp] theorem State.modMe_owner (s : State) (f : Plane → Plane) : (s.modMe f).owner = s.owner := rfl
@[simp] theorem State.modMe_sent (s : State) (f : Plane → Plane) : (s.modMe f).sent = s.sent := rfl
@[simp] theorem State.modMe_completes (s : State) (f : Plane → Plane) : (s.modMe f).completes = s.completes := rfl
@[simp] theorem State.modMe_held (s : State) (f : Plane → Plane) : (s.modMe f).held = s.held := rfl
@[simp] theorem State.modMe_flashRoot (s : State) (f : Plane → Plane) : (s.modMe f).flashRoot = s.flashRoot := rfl
@[simp] theorem State.modMe_flashMgmt (s : State) (f : Plane → Plane) : (s.modMe f).flashMgmt = s.flashMgmt := rfl
@[simp] theorem State.modMe_fused (s : State) (f : Plane → Plane) : (s.modMe f).fused = s.fused := rfl
@[simp] theorem State.modMe_measRoot (s : State) (f : Plane → Plane) : (s.modMe f).measRoot = s.measRoot := rfl
@[simp] theorem State.modMe_measMgmt (s : State) (f : Plane → Plane) : (s.modMe f).measMgmt = s.measMgmt := rfl
@[simp] theorem State.modMe_errors (s : State) (f : Plane → Plane) : (s.modMe f).errors = s.errors := rfl
@[simp] theorem State.modMe_dropped (s : State) (f : Plane → Plane) : (s.modMe f).dropped = s.dropped := rfl
@[simp] theorem State.modMe_frames (s : State) (f : Plane → Plane) : (s.modMe f).frames = s.frames := rfl
@[simp] theorem State.modMe_freq (s : State) (f : Plane → Plane) : (s.modMe f).freq = s.freq := rfl
@[simp] theorem State.modMe_limit (s : State) (f : Plane → Plane) : (s.modMe f).limit = s.limit := rfl
@[simp] theorem State.modMe_ceiling (s : State) (f : Plane → Plane) : (s.modMe f).ceiling = s.ceiling := rfl
@[simp] theorem State.modMe_scrubHours (s : State) (f : Plane → Plane) : (s.modMe f).scrubHours = s.scrubHours := rfl
@[simp] theorem State.modMe_strong (s : State) (f : Plane → Plane) : (s.modMe f).strong = s.strong := rfl
@[simp] theorem State.modMe_lanes (s : State) (f : Plane → Plane) : (s.modMe f).lanes = s.lanes := rfl
@[simp] theorem State.setX_inputs (s : State) (d : XReg) (v : Word) : (s.setX d v).inputs = s.inputs := rfl
@[simp] theorem State.setX_cur (s : State) (d : XReg) (v : Word) : (s.setX d v).cur = s.cur := rfl
@[simp] theorem State.setX_vlag (s : State) (d : XReg) (v : Word) : (s.setX d v).vlag = s.vlag := rfl
@[simp] theorem State.setX_free (s : State) (d : XReg) (v : Word) : (s.setX d v).free = s.free := rfl
@[simp] theorem State.setX_cycle (s : State) (d : XReg) (v : Word) : (s.setX d v).cycle = s.cycle := rfl
@[simp] theorem State.setX_cores (s : State) (d : XReg) (v : Word) : (s.setX d v).cores = s.cores := rfl
@[simp] theorem State.setX_mem (s : State) (d : XReg) (v : Word) : (s.setX d v).mem = s.mem := rfl
@[simp] theorem State.setX_full (s : State) (d : XReg) (v : Word) : (s.setX d v).full = s.full := rfl
@[simp] theorem State.setX_zsClear (s : State) (d : XReg) (v : Word) : (s.setX d v).zsClear = s.zsClear := rfl
@[simp] theorem State.setX_poison (s : State) (d : XReg) (v : Word) : (s.setX d v).poison = s.poison := rfl
@[simp] theorem State.setX_groups (s : State) (d : XReg) (v : Word) : (s.setX d v).groups = s.groups := rfl
@[simp] theorem State.setX_cohorts (s : State) (d : XReg) (v : Word) : (s.setX d v).cohorts = s.cohorts := rfl
@[simp] theorem State.setX_nextOrder (s : State) (d : XReg) (v : Word) : (s.setX d v).nextOrder = s.nextOrder := rfl
@[simp] theorem State.setX_parked (s : State) (d : XReg) (v : Word) : (s.setX d v).parked = s.parked := rfl
@[simp] theorem State.setX_retired (s : State) (d : XReg) (v : Word) : (s.setX d v).retired = s.retired := rfl
@[simp] theorem State.setX_doomed (s : State) (d : XReg) (v : Word) : (s.setX d v).doomed = s.doomed := rfl
@[simp] theorem State.setX_watching (s : State) (d : XReg) (v : Word) : (s.setX d v).watching = s.watching := rfl
@[simp] theorem State.setX_wrote (s : State) (d : XReg) (v : Word) : (s.setX d v).wrote = s.wrote := rfl
@[simp] theorem State.setX_wms (s : State) (d : XReg) (v : Word) : (s.setX d v).wms = s.wms := rfl
@[simp] theorem State.setX_slotLen (s : State) (d : XReg) (v : Word) : (s.setX d v).slotLen = s.slotLen := rfl
@[simp] theorem State.setX_pkg (s : State) (d : XReg) (v : Word) : (s.setX d v).pkg = s.pkg := rfl
@[simp] theorem State.setX_domain (s : State) (d : XReg) (v : Word) : (s.setX d v).domain = s.domain := rfl
@[simp] theorem State.setX_failing (s : State) (d : XReg) (v : Word) : (s.setX d v).failing = s.failing := rfl
@[simp] theorem State.setX_leeSize (s : State) (d : XReg) (v : Word) : (s.setX d v).leeSize = s.leeSize := rfl
@[simp] theorem State.setX_regions (s : State) (d : XReg) (v : Word) : (s.setX d v).regions = s.regions := rfl
@[simp] theorem State.setX_pend (s : State) (d : XReg) (v : Word) : (s.setX d v).pend = s.pend := rfl
@[simp] theorem State.setX_ops (s : State) (d : XReg) (v : Word) : (s.setX d v).ops = s.ops := rfl
@[simp] theorem State.setX_tables (s : State) (d : XReg) (v : Word) : (s.setX d v).tables = s.tables := rfl
@[simp] theorem State.setX_nextTable (s : State) (d : XReg) (v : Word) : (s.setX d v).nextTable = s.nextTable := rfl
@[simp] theorem State.setX_routes (s : State) (d : XReg) (v : Word) : (s.setX d v).routes = s.routes := rfl
@[simp] theorem State.setX_awayRows (s : State) (d : XReg) (v : Word) : (s.setX d v).awayRows = s.awayRows := rfl
@[simp] theorem State.setX_comms (s : State) (d : XReg) (v : Word) : (s.setX d v).comms = s.comms := rfl
@[simp] theorem State.setX_engines (s : State) (d : XReg) (v : Word) : (s.setX d v).engines = s.engines := rfl
@[simp] theorem State.setX_wins (s : State) (d : XReg) (v : Word) : (s.setX d v).wins = s.wins := rfl
@[simp] theorem State.setX_issuedKeys (s : State) (d : XReg) (v : Word) : (s.setX d v).issuedKeys = s.issuedKeys := rfl
@[simp] theorem State.setX_oldKeys (s : State) (d : XReg) (v : Word) : (s.setX d v).oldKeys = s.oldKeys := rfl
@[simp] theorem State.setX_hostRegions (s : State) (d : XReg) (v : Word) : (s.setX d v).hostRegions = s.hostRegions := rfl
@[simp] theorem State.setX_hostMem (s : State) (d : XReg) (v : Word) : (s.setX d v).hostMem = s.hostMem := rfl
@[simp] theorem State.setX_sessions (s : State) (d : XReg) (v : Word) : (s.setX d v).sessions = s.sessions := rfl
@[simp] theorem State.setX_nextSession (s : State) (d : XReg) (v : Word) : (s.setX d v).nextSession = s.nextSession := rfl
@[simp] theorem State.setX_owner (s : State) (d : XReg) (v : Word) : (s.setX d v).owner = s.owner := rfl
@[simp] theorem State.setX_sent (s : State) (d : XReg) (v : Word) : (s.setX d v).sent = s.sent := rfl
@[simp] theorem State.setX_completes (s : State) (d : XReg) (v : Word) : (s.setX d v).completes = s.completes := rfl
@[simp] theorem State.setX_held (s : State) (d : XReg) (v : Word) : (s.setX d v).held = s.held := rfl
@[simp] theorem State.setX_flashRoot (s : State) (d : XReg) (v : Word) : (s.setX d v).flashRoot = s.flashRoot := rfl
@[simp] theorem State.setX_flashMgmt (s : State) (d : XReg) (v : Word) : (s.setX d v).flashMgmt = s.flashMgmt := rfl
@[simp] theorem State.setX_fused (s : State) (d : XReg) (v : Word) : (s.setX d v).fused = s.fused := rfl
@[simp] theorem State.setX_measRoot (s : State) (d : XReg) (v : Word) : (s.setX d v).measRoot = s.measRoot := rfl
@[simp] theorem State.setX_measMgmt (s : State) (d : XReg) (v : Word) : (s.setX d v).measMgmt = s.measMgmt := rfl
@[simp] theorem State.setX_errors (s : State) (d : XReg) (v : Word) : (s.setX d v).errors = s.errors := rfl
@[simp] theorem State.setX_dropped (s : State) (d : XReg) (v : Word) : (s.setX d v).dropped = s.dropped := rfl
@[simp] theorem State.setX_frames (s : State) (d : XReg) (v : Word) : (s.setX d v).frames = s.frames := rfl
@[simp] theorem State.setX_freq (s : State) (d : XReg) (v : Word) : (s.setX d v).freq = s.freq := rfl
@[simp] theorem State.setX_limit (s : State) (d : XReg) (v : Word) : (s.setX d v).limit = s.limit := rfl
@[simp] theorem State.setX_ceiling (s : State) (d : XReg) (v : Word) : (s.setX d v).ceiling = s.ceiling := rfl
@[simp] theorem State.setX_scrubHours (s : State) (d : XReg) (v : Word) : (s.setX d v).scrubHours = s.scrubHours := rfl
@[simp] theorem State.setX_strong (s : State) (d : XReg) (v : Word) : (s.setX d v).strong = s.strong := rfl
@[simp] theorem State.setX_lanes (s : State) (d : XReg) (v : Word) : (s.setX d v).lanes = s.lanes := rfl
@[simp] theorem State.setF_inputs (s : State) (d : FReg) (f : FFmt) (v : Word) : (s.setF d f v).inputs = s.inputs := rfl
@[simp] theorem State.setF_cur (s : State) (d : FReg) (f : FFmt) (v : Word) : (s.setF d f v).cur = s.cur := rfl
@[simp] theorem State.setF_vlag (s : State) (d : FReg) (f : FFmt) (v : Word) : (s.setF d f v).vlag = s.vlag := rfl
@[simp] theorem State.setF_free (s : State) (d : FReg) (f : FFmt) (v : Word) : (s.setF d f v).free = s.free := rfl
@[simp] theorem State.setF_cycle (s : State) (d : FReg) (f : FFmt) (v : Word) : (s.setF d f v).cycle = s.cycle := rfl
@[simp] theorem State.setF_cores (s : State) (d : FReg) (f : FFmt) (v : Word) : (s.setF d f v).cores = s.cores := rfl
@[simp] theorem State.setF_mem (s : State) (d : FReg) (f : FFmt) (v : Word) : (s.setF d f v).mem = s.mem := rfl
@[simp] theorem State.setF_full (s : State) (d : FReg) (f : FFmt) (v : Word) : (s.setF d f v).full = s.full := rfl
@[simp] theorem State.setF_zsClear (s : State) (d : FReg) (f : FFmt) (v : Word) : (s.setF d f v).zsClear = s.zsClear := rfl
@[simp] theorem State.setF_poison (s : State) (d : FReg) (f : FFmt) (v : Word) : (s.setF d f v).poison = s.poison := rfl
@[simp] theorem State.setF_groups (s : State) (d : FReg) (f : FFmt) (v : Word) : (s.setF d f v).groups = s.groups := rfl
@[simp] theorem State.setF_cohorts (s : State) (d : FReg) (f : FFmt) (v : Word) : (s.setF d f v).cohorts = s.cohorts := rfl
@[simp] theorem State.setF_nextOrder (s : State) (d : FReg) (f : FFmt) (v : Word) : (s.setF d f v).nextOrder = s.nextOrder := rfl
@[simp] theorem State.setF_parked (s : State) (d : FReg) (f : FFmt) (v : Word) : (s.setF d f v).parked = s.parked := rfl
@[simp] theorem State.setF_retired (s : State) (d : FReg) (f : FFmt) (v : Word) : (s.setF d f v).retired = s.retired := rfl
@[simp] theorem State.setF_doomed (s : State) (d : FReg) (f : FFmt) (v : Word) : (s.setF d f v).doomed = s.doomed := rfl
@[simp] theorem State.setF_watching (s : State) (d : FReg) (f : FFmt) (v : Word) : (s.setF d f v).watching = s.watching := rfl
@[simp] theorem State.setF_wrote (s : State) (d : FReg) (f : FFmt) (v : Word) : (s.setF d f v).wrote = s.wrote := rfl
@[simp] theorem State.setF_wms (s : State) (d : FReg) (f : FFmt) (v : Word) : (s.setF d f v).wms = s.wms := rfl
@[simp] theorem State.setF_slotLen (s : State) (d : FReg) (f : FFmt) (v : Word) : (s.setF d f v).slotLen = s.slotLen := rfl
@[simp] theorem State.setF_pkg (s : State) (d : FReg) (f : FFmt) (v : Word) : (s.setF d f v).pkg = s.pkg := rfl
@[simp] theorem State.setF_domain (s : State) (d : FReg) (f : FFmt) (v : Word) : (s.setF d f v).domain = s.domain := rfl
@[simp] theorem State.setF_failing (s : State) (d : FReg) (f : FFmt) (v : Word) : (s.setF d f v).failing = s.failing := rfl
@[simp] theorem State.setF_leeSize (s : State) (d : FReg) (f : FFmt) (v : Word) : (s.setF d f v).leeSize = s.leeSize := rfl
@[simp] theorem State.setF_regions (s : State) (d : FReg) (f : FFmt) (v : Word) : (s.setF d f v).regions = s.regions := rfl
@[simp] theorem State.setF_pend (s : State) (d : FReg) (f : FFmt) (v : Word) : (s.setF d f v).pend = s.pend := rfl
@[simp] theorem State.setF_ops (s : State) (d : FReg) (f : FFmt) (v : Word) : (s.setF d f v).ops = s.ops := rfl
@[simp] theorem State.setF_tables (s : State) (d : FReg) (f : FFmt) (v : Word) : (s.setF d f v).tables = s.tables := rfl
@[simp] theorem State.setF_nextTable (s : State) (d : FReg) (f : FFmt) (v : Word) : (s.setF d f v).nextTable = s.nextTable := rfl
@[simp] theorem State.setF_routes (s : State) (d : FReg) (f : FFmt) (v : Word) : (s.setF d f v).routes = s.routes := rfl
@[simp] theorem State.setF_awayRows (s : State) (d : FReg) (f : FFmt) (v : Word) : (s.setF d f v).awayRows = s.awayRows := rfl
@[simp] theorem State.setF_comms (s : State) (d : FReg) (f : FFmt) (v : Word) : (s.setF d f v).comms = s.comms := rfl
@[simp] theorem State.setF_engines (s : State) (d : FReg) (f : FFmt) (v : Word) : (s.setF d f v).engines = s.engines := rfl
@[simp] theorem State.setF_wins (s : State) (d : FReg) (f : FFmt) (v : Word) : (s.setF d f v).wins = s.wins := rfl
@[simp] theorem State.setF_issuedKeys (s : State) (d : FReg) (f : FFmt) (v : Word) : (s.setF d f v).issuedKeys = s.issuedKeys := rfl
@[simp] theorem State.setF_oldKeys (s : State) (d : FReg) (f : FFmt) (v : Word) : (s.setF d f v).oldKeys = s.oldKeys := rfl
@[simp] theorem State.setF_hostRegions (s : State) (d : FReg) (f : FFmt) (v : Word) : (s.setF d f v).hostRegions = s.hostRegions := rfl
@[simp] theorem State.setF_hostMem (s : State) (d : FReg) (f : FFmt) (v : Word) : (s.setF d f v).hostMem = s.hostMem := rfl
@[simp] theorem State.setF_sessions (s : State) (d : FReg) (f : FFmt) (v : Word) : (s.setF d f v).sessions = s.sessions := rfl
@[simp] theorem State.setF_nextSession (s : State) (d : FReg) (f : FFmt) (v : Word) : (s.setF d f v).nextSession = s.nextSession := rfl
@[simp] theorem State.setF_owner (s : State) (d : FReg) (f : FFmt) (v : Word) : (s.setF d f v).owner = s.owner := rfl
@[simp] theorem State.setF_sent (s : State) (d : FReg) (f : FFmt) (v : Word) : (s.setF d f v).sent = s.sent := rfl
@[simp] theorem State.setF_completes (s : State) (d : FReg) (f : FFmt) (v : Word) : (s.setF d f v).completes = s.completes := rfl
@[simp] theorem State.setF_held (s : State) (d : FReg) (f : FFmt) (v : Word) : (s.setF d f v).held = s.held := rfl
@[simp] theorem State.setF_flashRoot (s : State) (d : FReg) (f : FFmt) (v : Word) : (s.setF d f v).flashRoot = s.flashRoot := rfl
@[simp] theorem State.setF_flashMgmt (s : State) (d : FReg) (f : FFmt) (v : Word) : (s.setF d f v).flashMgmt = s.flashMgmt := rfl
@[simp] theorem State.setF_fused (s : State) (d : FReg) (f : FFmt) (v : Word) : (s.setF d f v).fused = s.fused := rfl
@[simp] theorem State.setF_measRoot (s : State) (d : FReg) (f : FFmt) (v : Word) : (s.setF d f v).measRoot = s.measRoot := rfl
@[simp] theorem State.setF_measMgmt (s : State) (d : FReg) (f : FFmt) (v : Word) : (s.setF d f v).measMgmt = s.measMgmt := rfl
@[simp] theorem State.setF_errors (s : State) (d : FReg) (f : FFmt) (v : Word) : (s.setF d f v).errors = s.errors := rfl
@[simp] theorem State.setF_dropped (s : State) (d : FReg) (f : FFmt) (v : Word) : (s.setF d f v).dropped = s.dropped := rfl
@[simp] theorem State.setF_frames (s : State) (d : FReg) (f : FFmt) (v : Word) : (s.setF d f v).frames = s.frames := rfl
@[simp] theorem State.setF_freq (s : State) (d : FReg) (f : FFmt) (v : Word) : (s.setF d f v).freq = s.freq := rfl
@[simp] theorem State.setF_limit (s : State) (d : FReg) (f : FFmt) (v : Word) : (s.setF d f v).limit = s.limit := rfl
@[simp] theorem State.setF_ceiling (s : State) (d : FReg) (f : FFmt) (v : Word) : (s.setF d f v).ceiling = s.ceiling := rfl
@[simp] theorem State.setF_scrubHours (s : State) (d : FReg) (f : FFmt) (v : Word) : (s.setF d f v).scrubHours = s.scrubHours := rfl
@[simp] theorem State.setF_strong (s : State) (d : FReg) (f : FFmt) (v : Word) : (s.setF d f v).strong = s.strong := rfl
@[simp] theorem State.setF_lanes (s : State) (d : FReg) (f : FFmt) (v : Word) : (s.setF d f v).lanes = s.lanes := rfl
@[simp] theorem State.advance_inputs (s : State) (n : Nat) : (s.advance n).inputs = s.inputs := rfl
@[simp] theorem State.advance_cur (s : State) (n : Nat) : (s.advance n).cur = s.cur := rfl
@[simp] theorem State.advance_vlag (s : State) (n : Nat) : (s.advance n).vlag = s.vlag := rfl
@[simp] theorem State.advance_free (s : State) (n : Nat) : (s.advance n).free = s.free := rfl
@[simp] theorem State.advance_cycle (s : State) (n : Nat) : (s.advance n).cycle = s.cycle := rfl
@[simp] theorem State.advance_cores (s : State) (n : Nat) : (s.advance n).cores = s.cores := rfl
@[simp] theorem State.advance_mem (s : State) (n : Nat) : (s.advance n).mem = s.mem := rfl
@[simp] theorem State.advance_full (s : State) (n : Nat) : (s.advance n).full = s.full := rfl
@[simp] theorem State.advance_zsClear (s : State) (n : Nat) : (s.advance n).zsClear = s.zsClear := rfl
@[simp] theorem State.advance_poison (s : State) (n : Nat) : (s.advance n).poison = s.poison := rfl
@[simp] theorem State.advance_groups (s : State) (n : Nat) : (s.advance n).groups = s.groups := rfl
@[simp] theorem State.advance_cohorts (s : State) (n : Nat) : (s.advance n).cohorts = s.cohorts := rfl
@[simp] theorem State.advance_nextOrder (s : State) (n : Nat) : (s.advance n).nextOrder = s.nextOrder := rfl
@[simp] theorem State.advance_parked (s : State) (n : Nat) : (s.advance n).parked = s.parked := rfl
@[simp] theorem State.advance_retired (s : State) (n : Nat) : (s.advance n).retired = s.retired := rfl
@[simp] theorem State.advance_doomed (s : State) (n : Nat) : (s.advance n).doomed = s.doomed := rfl
@[simp] theorem State.advance_watching (s : State) (n : Nat) : (s.advance n).watching = s.watching := rfl
@[simp] theorem State.advance_wrote (s : State) (n : Nat) : (s.advance n).wrote = s.wrote := rfl
@[simp] theorem State.advance_wms (s : State) (n : Nat) : (s.advance n).wms = s.wms := rfl
@[simp] theorem State.advance_slotLen (s : State) (n : Nat) : (s.advance n).slotLen = s.slotLen := rfl
@[simp] theorem State.advance_pkg (s : State) (n : Nat) : (s.advance n).pkg = s.pkg := rfl
@[simp] theorem State.advance_domain (s : State) (n : Nat) : (s.advance n).domain = s.domain := rfl
@[simp] theorem State.advance_failing (s : State) (n : Nat) : (s.advance n).failing = s.failing := rfl
@[simp] theorem State.advance_leeSize (s : State) (n : Nat) : (s.advance n).leeSize = s.leeSize := rfl
@[simp] theorem State.advance_regions (s : State) (n : Nat) : (s.advance n).regions = s.regions := rfl
@[simp] theorem State.advance_pend (s : State) (n : Nat) : (s.advance n).pend = s.pend := rfl
@[simp] theorem State.advance_ops (s : State) (n : Nat) : (s.advance n).ops = s.ops := rfl
@[simp] theorem State.advance_tables (s : State) (n : Nat) : (s.advance n).tables = s.tables := rfl
@[simp] theorem State.advance_nextTable (s : State) (n : Nat) : (s.advance n).nextTable = s.nextTable := rfl
@[simp] theorem State.advance_routes (s : State) (n : Nat) : (s.advance n).routes = s.routes := rfl
@[simp] theorem State.advance_awayRows (s : State) (n : Nat) : (s.advance n).awayRows = s.awayRows := rfl
@[simp] theorem State.advance_comms (s : State) (n : Nat) : (s.advance n).comms = s.comms := rfl
@[simp] theorem State.advance_engines (s : State) (n : Nat) : (s.advance n).engines = s.engines := rfl
@[simp] theorem State.advance_wins (s : State) (n : Nat) : (s.advance n).wins = s.wins := rfl
@[simp] theorem State.advance_issuedKeys (s : State) (n : Nat) : (s.advance n).issuedKeys = s.issuedKeys := rfl
@[simp] theorem State.advance_oldKeys (s : State) (n : Nat) : (s.advance n).oldKeys = s.oldKeys := rfl
@[simp] theorem State.advance_hostRegions (s : State) (n : Nat) : (s.advance n).hostRegions = s.hostRegions := rfl
@[simp] theorem State.advance_hostMem (s : State) (n : Nat) : (s.advance n).hostMem = s.hostMem := rfl
@[simp] theorem State.advance_sessions (s : State) (n : Nat) : (s.advance n).sessions = s.sessions := rfl
@[simp] theorem State.advance_nextSession (s : State) (n : Nat) : (s.advance n).nextSession = s.nextSession := rfl
@[simp] theorem State.advance_owner (s : State) (n : Nat) : (s.advance n).owner = s.owner := rfl
@[simp] theorem State.advance_sent (s : State) (n : Nat) : (s.advance n).sent = s.sent := rfl
@[simp] theorem State.advance_completes (s : State) (n : Nat) : (s.advance n).completes = s.completes := rfl
@[simp] theorem State.advance_held (s : State) (n : Nat) : (s.advance n).held = s.held := rfl
@[simp] theorem State.advance_flashRoot (s : State) (n : Nat) : (s.advance n).flashRoot = s.flashRoot := rfl
@[simp] theorem State.advance_flashMgmt (s : State) (n : Nat) : (s.advance n).flashMgmt = s.flashMgmt := rfl
@[simp] theorem State.advance_fused (s : State) (n : Nat) : (s.advance n).fused = s.fused := rfl
@[simp] theorem State.advance_measRoot (s : State) (n : Nat) : (s.advance n).measRoot = s.measRoot := rfl
@[simp] theorem State.advance_measMgmt (s : State) (n : Nat) : (s.advance n).measMgmt = s.measMgmt := rfl
@[simp] theorem State.advance_errors (s : State) (n : Nat) : (s.advance n).errors = s.errors := rfl
@[simp] theorem State.advance_dropped (s : State) (n : Nat) : (s.advance n).dropped = s.dropped := rfl
@[simp] theorem State.advance_frames (s : State) (n : Nat) : (s.advance n).frames = s.frames := rfl
@[simp] theorem State.advance_freq (s : State) (n : Nat) : (s.advance n).freq = s.freq := rfl
@[simp] theorem State.advance_limit (s : State) (n : Nat) : (s.advance n).limit = s.limit := rfl
@[simp] theorem State.advance_ceiling (s : State) (n : Nat) : (s.advance n).ceiling = s.ceiling := rfl
@[simp] theorem State.advance_scrubHours (s : State) (n : Nat) : (s.advance n).scrubHours = s.scrubHours := rfl
@[simp] theorem State.advance_strong (s : State) (n : Nat) : (s.advance n).strong = s.strong := rfl
@[simp] theorem State.advance_lanes (s : State) (n : Nat) : (s.advance n).lanes = s.lanes := rfl
@[simp] theorem State.retX_inputs (s : State) (d : XReg) (v : Word) (n : Nat) : (s.retX d v n).inputs = s.inputs := rfl
@[simp] theorem State.retX_cur (s : State) (d : XReg) (v : Word) (n : Nat) : (s.retX d v n).cur = s.cur := rfl
@[simp] theorem State.retX_vlag (s : State) (d : XReg) (v : Word) (n : Nat) : (s.retX d v n).vlag = s.vlag := rfl
@[simp] theorem State.retX_free (s : State) (d : XReg) (v : Word) (n : Nat) : (s.retX d v n).free = s.free := rfl
@[simp] theorem State.retX_cycle (s : State) (d : XReg) (v : Word) (n : Nat) : (s.retX d v n).cycle = s.cycle := rfl
@[simp] theorem State.retX_cores (s : State) (d : XReg) (v : Word) (n : Nat) : (s.retX d v n).cores = s.cores := rfl
@[simp] theorem State.retX_mem (s : State) (d : XReg) (v : Word) (n : Nat) : (s.retX d v n).mem = s.mem := rfl
@[simp] theorem State.retX_full (s : State) (d : XReg) (v : Word) (n : Nat) : (s.retX d v n).full = s.full := rfl
@[simp] theorem State.retX_zsClear (s : State) (d : XReg) (v : Word) (n : Nat) : (s.retX d v n).zsClear = s.zsClear := rfl
@[simp] theorem State.retX_poison (s : State) (d : XReg) (v : Word) (n : Nat) : (s.retX d v n).poison = s.poison := rfl
@[simp] theorem State.retX_groups (s : State) (d : XReg) (v : Word) (n : Nat) : (s.retX d v n).groups = s.groups := rfl
@[simp] theorem State.retX_cohorts (s : State) (d : XReg) (v : Word) (n : Nat) : (s.retX d v n).cohorts = s.cohorts := rfl
@[simp] theorem State.retX_nextOrder (s : State) (d : XReg) (v : Word) (n : Nat) : (s.retX d v n).nextOrder = s.nextOrder := rfl
@[simp] theorem State.retX_parked (s : State) (d : XReg) (v : Word) (n : Nat) : (s.retX d v n).parked = s.parked := rfl
@[simp] theorem State.retX_retired (s : State) (d : XReg) (v : Word) (n : Nat) : (s.retX d v n).retired = s.retired := rfl
@[simp] theorem State.retX_doomed (s : State) (d : XReg) (v : Word) (n : Nat) : (s.retX d v n).doomed = s.doomed := rfl
@[simp] theorem State.retX_watching (s : State) (d : XReg) (v : Word) (n : Nat) : (s.retX d v n).watching = s.watching := rfl
@[simp] theorem State.retX_wrote (s : State) (d : XReg) (v : Word) (n : Nat) : (s.retX d v n).wrote = s.wrote := rfl
@[simp] theorem State.retX_wms (s : State) (d : XReg) (v : Word) (n : Nat) : (s.retX d v n).wms = s.wms := rfl
@[simp] theorem State.retX_slotLen (s : State) (d : XReg) (v : Word) (n : Nat) : (s.retX d v n).slotLen = s.slotLen := rfl
@[simp] theorem State.retX_pkg (s : State) (d : XReg) (v : Word) (n : Nat) : (s.retX d v n).pkg = s.pkg := rfl
@[simp] theorem State.retX_domain (s : State) (d : XReg) (v : Word) (n : Nat) : (s.retX d v n).domain = s.domain := rfl
@[simp] theorem State.retX_failing (s : State) (d : XReg) (v : Word) (n : Nat) : (s.retX d v n).failing = s.failing := rfl
@[simp] theorem State.retX_leeSize (s : State) (d : XReg) (v : Word) (n : Nat) : (s.retX d v n).leeSize = s.leeSize := rfl
@[simp] theorem State.retX_regions (s : State) (d : XReg) (v : Word) (n : Nat) : (s.retX d v n).regions = s.regions := rfl
@[simp] theorem State.retX_pend (s : State) (d : XReg) (v : Word) (n : Nat) : (s.retX d v n).pend = s.pend := rfl
@[simp] theorem State.retX_ops (s : State) (d : XReg) (v : Word) (n : Nat) : (s.retX d v n).ops = s.ops := rfl
@[simp] theorem State.retX_tables (s : State) (d : XReg) (v : Word) (n : Nat) : (s.retX d v n).tables = s.tables := rfl
@[simp] theorem State.retX_nextTable (s : State) (d : XReg) (v : Word) (n : Nat) : (s.retX d v n).nextTable = s.nextTable := rfl
@[simp] theorem State.retX_routes (s : State) (d : XReg) (v : Word) (n : Nat) : (s.retX d v n).routes = s.routes := rfl
@[simp] theorem State.retX_awayRows (s : State) (d : XReg) (v : Word) (n : Nat) : (s.retX d v n).awayRows = s.awayRows := rfl
@[simp] theorem State.retX_comms (s : State) (d : XReg) (v : Word) (n : Nat) : (s.retX d v n).comms = s.comms := rfl
@[simp] theorem State.retX_engines (s : State) (d : XReg) (v : Word) (n : Nat) : (s.retX d v n).engines = s.engines := rfl
@[simp] theorem State.retX_wins (s : State) (d : XReg) (v : Word) (n : Nat) : (s.retX d v n).wins = s.wins := rfl
@[simp] theorem State.retX_issuedKeys (s : State) (d : XReg) (v : Word) (n : Nat) : (s.retX d v n).issuedKeys = s.issuedKeys := rfl
@[simp] theorem State.retX_oldKeys (s : State) (d : XReg) (v : Word) (n : Nat) : (s.retX d v n).oldKeys = s.oldKeys := rfl
@[simp] theorem State.retX_hostRegions (s : State) (d : XReg) (v : Word) (n : Nat) : (s.retX d v n).hostRegions = s.hostRegions := rfl
@[simp] theorem State.retX_hostMem (s : State) (d : XReg) (v : Word) (n : Nat) : (s.retX d v n).hostMem = s.hostMem := rfl
@[simp] theorem State.retX_sessions (s : State) (d : XReg) (v : Word) (n : Nat) : (s.retX d v n).sessions = s.sessions := rfl
@[simp] theorem State.retX_nextSession (s : State) (d : XReg) (v : Word) (n : Nat) : (s.retX d v n).nextSession = s.nextSession := rfl
@[simp] theorem State.retX_owner (s : State) (d : XReg) (v : Word) (n : Nat) : (s.retX d v n).owner = s.owner := rfl
@[simp] theorem State.retX_sent (s : State) (d : XReg) (v : Word) (n : Nat) : (s.retX d v n).sent = s.sent := rfl
@[simp] theorem State.retX_completes (s : State) (d : XReg) (v : Word) (n : Nat) : (s.retX d v n).completes = s.completes := rfl
@[simp] theorem State.retX_held (s : State) (d : XReg) (v : Word) (n : Nat) : (s.retX d v n).held = s.held := rfl
@[simp] theorem State.retX_flashRoot (s : State) (d : XReg) (v : Word) (n : Nat) : (s.retX d v n).flashRoot = s.flashRoot := rfl
@[simp] theorem State.retX_flashMgmt (s : State) (d : XReg) (v : Word) (n : Nat) : (s.retX d v n).flashMgmt = s.flashMgmt := rfl
@[simp] theorem State.retX_fused (s : State) (d : XReg) (v : Word) (n : Nat) : (s.retX d v n).fused = s.fused := rfl
@[simp] theorem State.retX_measRoot (s : State) (d : XReg) (v : Word) (n : Nat) : (s.retX d v n).measRoot = s.measRoot := rfl
@[simp] theorem State.retX_measMgmt (s : State) (d : XReg) (v : Word) (n : Nat) : (s.retX d v n).measMgmt = s.measMgmt := rfl
@[simp] theorem State.retX_errors (s : State) (d : XReg) (v : Word) (n : Nat) : (s.retX d v n).errors = s.errors := rfl
@[simp] theorem State.retX_dropped (s : State) (d : XReg) (v : Word) (n : Nat) : (s.retX d v n).dropped = s.dropped := rfl
@[simp] theorem State.retX_frames (s : State) (d : XReg) (v : Word) (n : Nat) : (s.retX d v n).frames = s.frames := rfl
@[simp] theorem State.retX_freq (s : State) (d : XReg) (v : Word) (n : Nat) : (s.retX d v n).freq = s.freq := rfl
@[simp] theorem State.retX_limit (s : State) (d : XReg) (v : Word) (n : Nat) : (s.retX d v n).limit = s.limit := rfl
@[simp] theorem State.retX_ceiling (s : State) (d : XReg) (v : Word) (n : Nat) : (s.retX d v n).ceiling = s.ceiling := rfl
@[simp] theorem State.retX_scrubHours (s : State) (d : XReg) (v : Word) (n : Nat) : (s.retX d v n).scrubHours = s.scrubHours := rfl
@[simp] theorem State.retX_strong (s : State) (d : XReg) (v : Word) (n : Nat) : (s.retX d v n).strong = s.strong := rfl
@[simp] theorem State.retX_lanes (s : State) (d : XReg) (v : Word) (n : Nat) : (s.retX d v n).lanes = s.lanes := rfl
@[simp] theorem State.jump_inputs (s : State) (t : Word) : (s.jump t).inputs = s.inputs := rfl
@[simp] theorem State.jump_cur (s : State) (t : Word) : (s.jump t).cur = s.cur := rfl
@[simp] theorem State.jump_vlag (s : State) (t : Word) : (s.jump t).vlag = s.vlag := rfl
@[simp] theorem State.jump_free (s : State) (t : Word) : (s.jump t).free = s.free := rfl
@[simp] theorem State.jump_cycle (s : State) (t : Word) : (s.jump t).cycle = s.cycle := rfl
@[simp] theorem State.jump_cores (s : State) (t : Word) : (s.jump t).cores = s.cores := rfl
@[simp] theorem State.jump_mem (s : State) (t : Word) : (s.jump t).mem = s.mem := rfl
@[simp] theorem State.jump_full (s : State) (t : Word) : (s.jump t).full = s.full := rfl
@[simp] theorem State.jump_zsClear (s : State) (t : Word) : (s.jump t).zsClear = s.zsClear := rfl
@[simp] theorem State.jump_poison (s : State) (t : Word) : (s.jump t).poison = s.poison := rfl
@[simp] theorem State.jump_groups (s : State) (t : Word) : (s.jump t).groups = s.groups := rfl
@[simp] theorem State.jump_cohorts (s : State) (t : Word) : (s.jump t).cohorts = s.cohorts := rfl
@[simp] theorem State.jump_nextOrder (s : State) (t : Word) : (s.jump t).nextOrder = s.nextOrder := rfl
@[simp] theorem State.jump_parked (s : State) (t : Word) : (s.jump t).parked = s.parked := rfl
@[simp] theorem State.jump_retired (s : State) (t : Word) : (s.jump t).retired = s.retired := rfl
@[simp] theorem State.jump_doomed (s : State) (t : Word) : (s.jump t).doomed = s.doomed := rfl
@[simp] theorem State.jump_watching (s : State) (t : Word) : (s.jump t).watching = s.watching := rfl
@[simp] theorem State.jump_wrote (s : State) (t : Word) : (s.jump t).wrote = s.wrote := rfl
@[simp] theorem State.jump_wms (s : State) (t : Word) : (s.jump t).wms = s.wms := rfl
@[simp] theorem State.jump_slotLen (s : State) (t : Word) : (s.jump t).slotLen = s.slotLen := rfl
@[simp] theorem State.jump_pkg (s : State) (t : Word) : (s.jump t).pkg = s.pkg := rfl
@[simp] theorem State.jump_domain (s : State) (t : Word) : (s.jump t).domain = s.domain := rfl
@[simp] theorem State.jump_failing (s : State) (t : Word) : (s.jump t).failing = s.failing := rfl
@[simp] theorem State.jump_leeSize (s : State) (t : Word) : (s.jump t).leeSize = s.leeSize := rfl
@[simp] theorem State.jump_regions (s : State) (t : Word) : (s.jump t).regions = s.regions := rfl
@[simp] theorem State.jump_pend (s : State) (t : Word) : (s.jump t).pend = s.pend := rfl
@[simp] theorem State.jump_ops (s : State) (t : Word) : (s.jump t).ops = s.ops := rfl
@[simp] theorem State.jump_tables (s : State) (t : Word) : (s.jump t).tables = s.tables := rfl
@[simp] theorem State.jump_nextTable (s : State) (t : Word) : (s.jump t).nextTable = s.nextTable := rfl
@[simp] theorem State.jump_routes (s : State) (t : Word) : (s.jump t).routes = s.routes := rfl
@[simp] theorem State.jump_awayRows (s : State) (t : Word) : (s.jump t).awayRows = s.awayRows := rfl
@[simp] theorem State.jump_comms (s : State) (t : Word) : (s.jump t).comms = s.comms := rfl
@[simp] theorem State.jump_engines (s : State) (t : Word) : (s.jump t).engines = s.engines := rfl
@[simp] theorem State.jump_wins (s : State) (t : Word) : (s.jump t).wins = s.wins := rfl
@[simp] theorem State.jump_issuedKeys (s : State) (t : Word) : (s.jump t).issuedKeys = s.issuedKeys := rfl
@[simp] theorem State.jump_oldKeys (s : State) (t : Word) : (s.jump t).oldKeys = s.oldKeys := rfl
@[simp] theorem State.jump_hostRegions (s : State) (t : Word) : (s.jump t).hostRegions = s.hostRegions := rfl
@[simp] theorem State.jump_hostMem (s : State) (t : Word) : (s.jump t).hostMem = s.hostMem := rfl
@[simp] theorem State.jump_sessions (s : State) (t : Word) : (s.jump t).sessions = s.sessions := rfl
@[simp] theorem State.jump_nextSession (s : State) (t : Word) : (s.jump t).nextSession = s.nextSession := rfl
@[simp] theorem State.jump_owner (s : State) (t : Word) : (s.jump t).owner = s.owner := rfl
@[simp] theorem State.jump_sent (s : State) (t : Word) : (s.jump t).sent = s.sent := rfl
@[simp] theorem State.jump_completes (s : State) (t : Word) : (s.jump t).completes = s.completes := rfl
@[simp] theorem State.jump_held (s : State) (t : Word) : (s.jump t).held = s.held := rfl
@[simp] theorem State.jump_flashRoot (s : State) (t : Word) : (s.jump t).flashRoot = s.flashRoot := rfl
@[simp] theorem State.jump_flashMgmt (s : State) (t : Word) : (s.jump t).flashMgmt = s.flashMgmt := rfl
@[simp] theorem State.jump_fused (s : State) (t : Word) : (s.jump t).fused = s.fused := rfl
@[simp] theorem State.jump_measRoot (s : State) (t : Word) : (s.jump t).measRoot = s.measRoot := rfl
@[simp] theorem State.jump_measMgmt (s : State) (t : Word) : (s.jump t).measMgmt = s.measMgmt := rfl
@[simp] theorem State.jump_errors (s : State) (t : Word) : (s.jump t).errors = s.errors := rfl
@[simp] theorem State.jump_dropped (s : State) (t : Word) : (s.jump t).dropped = s.dropped := rfl
@[simp] theorem State.jump_frames (s : State) (t : Word) : (s.jump t).frames = s.frames := rfl
@[simp] theorem State.jump_freq (s : State) (t : Word) : (s.jump t).freq = s.freq := rfl
@[simp] theorem State.jump_limit (s : State) (t : Word) : (s.jump t).limit = s.limit := rfl
@[simp] theorem State.jump_ceiling (s : State) (t : Word) : (s.jump t).ceiling = s.ceiling := rfl
@[simp] theorem State.jump_scrubHours (s : State) (t : Word) : (s.jump t).scrubHours = s.scrubHours := rfl
@[simp] theorem State.jump_strong (s : State) (t : Word) : (s.jump t).strong = s.strong := rfl
@[simp] theorem State.jump_lanes (s : State) (t : Word) : (s.jump t).lanes = s.lanes := rfl

/-! ### Fields of a plane -/

@[simp] theorem Plane.setX_st (p : Plane) (d : XReg) (v : Word) : (p.setX d v).st = p.st := by simp only [Plane.setX]; split <;> rfl
@[simp] theorem Plane.setX_coh (p : Plane) (d : XReg) (v : Word) : (p.setX d v).coh = p.coh := by simp only [Plane.setX]; split <;> rfl
@[simp] theorem Plane.setX_rank (p : Plane) (d : XReg) (v : Word) : (p.setX d v).rank = p.rank := by simp only [Plane.setX]; split <;> rfl
@[simp] theorem Plane.setX_pc (p : Plane) (d : XReg) (v : Word) : (p.setX d v).pc = p.pc := by simp only [Plane.setX]; split <;> rfl
@[simp] theorem Plane.setX_level (p : Plane) (d : XReg) (v : Word) : (p.setX d v).level = p.level := by simp only [Plane.setX]; split <;> rfl
@[simp] theorem Plane.setX_f (p : Plane) (d : XReg) (v : Word) : (p.setX d v).f = p.f := by simp only [Plane.setX]; split <;> rfl
@[simp] theorem Plane.setX_v (p : Plane) (d : XReg) (v : Word) : (p.setX d v).v = p.v := by simp only [Plane.setX]; split <;> rfl
@[simp] theorem Plane.setX_m (p : Plane) (d : XReg) (v : Word) : (p.setX d v).m = p.m := by simp only [Plane.setX]; split <;> rfl
@[simp] theorem Plane.setX_t (p : Plane) (d : XReg) (v : Word) : (p.setX d v).t = p.t := by simp only [Plane.setX]; split <;> rfl
@[simp] theorem Plane.setX_xac (p : Plane) (d : XReg) (v : Word) : (p.setX d v).xac = p.xac := by simp only [Plane.setX]; split <;> rfl
@[simp] theorem Plane.setX_xacSt (p : Plane) (d : XReg) (v : Word) : (p.setX d v).xacSt = p.xacSt := by simp only [Plane.setX]; split <;> rfl
@[simp] theorem Plane.setX_vl (p : Plane) (d : XReg) (v : Word) : (p.setX d v).vl = p.vl := by simp only [Plane.setX]; split <;> rfl
@[simp] theorem Plane.setX_lg (p : Plane) (d : XReg) (v : Word) : (p.setX d v).lg = p.lg := by simp only [Plane.setX]; split <;> rfl
@[simp] theorem Plane.setX_tag (p : Plane) (d : XReg) (v : Word) : (p.setX d v).tag = p.tag := by simp only [Plane.setX]; split <;> rfl
@[simp] theorem Plane.setX_qnext (p : Plane) (d : XReg) (v : Word) : (p.setX d v).qnext = p.qnext := by simp only [Plane.setX]; split <;> rfl
@[simp] theorem Plane.setX_vq (p : Plane) (d : XReg) (v : Word) : (p.setX d v).vq = p.vq := by simp only [Plane.setX]; split <;> rfl
@[simp] theorem Plane.setX_fcsr (p : Plane) (d : XReg) (v : Word) : (p.setX d v).fcsr = p.fcsr := by simp only [Plane.setX]; split <;> rfl
@[simp] theorem Plane.setX_fex0 (p : Plane) (d : XReg) (v : Word) : (p.setX d v).fex0 = p.fex0 := by simp only [Plane.setX]; split <;> rfl
@[simp] theorem Plane.setX_fex1 (p : Plane) (d : XReg) (v : Word) : (p.setX d v).fex1 = p.fex1 := by simp only [Plane.setX]; split <;> rfl
@[simp] theorem Plane.setX_grps (p : Plane) (d : XReg) (v : Word) : (p.setX d v).grps = p.grps := by simp only [Plane.setX]; split <;> rfl
@[simp] theorem Plane.setX_prio (p : Plane) (d : XReg) (v : Word) : (p.setX d v).prio = p.prio := by simp only [Plane.setX]; split <;> rfl
@[simp] theorem Plane.setX_tvec (p : Plane) (d : XReg) (v : Word) : (p.setX d v).tvec = p.tvec := by simp only [Plane.setX]; split <;> rfl
@[simp] theorem Plane.setX_tcause (p : Plane) (d : XReg) (v : Word) : (p.setX d v).tcause = p.tcause := by simp only [Plane.setX]; split <;> rfl
@[simp] theorem Plane.setX_tpc (p : Plane) (d : XReg) (v : Word) : (p.setX d v).tpc = p.tpc := by simp only [Plane.setX]; split <;> rfl
@[simp] theorem Plane.setX_tval (p : Plane) (d : XReg) (v : Word) : (p.setX d v).tval = p.tval := by simp only [Plane.setX]; split <;> rfl
@[simp] theorem Plane.setX_tstat (p : Plane) (d : XReg) (v : Word) : (p.setX d v).tstat = p.tstat := by simp only [Plane.setX]; split <;> rfl
@[simp] theorem Plane.setX_sel (p : Plane) (d : XReg) (v : Word) : (p.setX d v).sel = p.sel := by simp only [Plane.setX]; split <;> rfl
@[simp] theorem Plane.setX_resume (p : Plane) (d : XReg) (v : Word) : (p.setX d v).resume = p.resume := by simp only [Plane.setX]; split <;> rfl
@[simp] theorem Plane.setX_xroot (p : Plane) (d : XReg) (v : Word) : (p.setX d v).xroot = p.xroot := by simp only [Plane.setX]; split <;> rfl
@[simp] theorem Plane.setX_quota (p : Plane) (d : XReg) (v : Word) : (p.setX d v).quota = p.quota := by simp only [Plane.setX]; split <;> rfl
@[simp] theorem Plane.setX_events (p : Plane) (d : XReg) (v : Word) : (p.setX d v).events = p.events := by simp only [Plane.setX]; split <;> rfl
@[simp] theorem Plane.setX_wait (p : Plane) (d : XReg) (v : Word) : (p.setX d v).wait = p.wait := by simp only [Plane.setX]; split <;> rfl
@[simp] theorem Plane.setX_held (p : Plane) (d : XReg) (v : Word) : (p.setX d v).held = p.held := by simp only [Plane.setX]; split <;> rfl
@[simp] theorem Plane.setX_tags (p : Plane) (d : XReg) (v : Word) : (p.setX d v).tags = p.tags := by simp only [Plane.setX]; split <;> rfl
@[simp] theorem Plane.setX_modulus (p : Plane) (d : XReg) (v : Word) : (p.setX d v).modulus = p.modulus := by simp only [Plane.setX]; split <;> rfl
@[simp] theorem Plane.setX_roots (p : Plane) (d : XReg) (v : Word) : (p.setX d v).roots = p.roots := by simp only [Plane.setX]; split <;> rfl
@[simp] theorem Plane.setX_fab (p : Plane) (d : XReg) (v : Word) : (p.setX d v).fab = p.fab := by simp only [Plane.setX]; split <;> rfl
@[simp] theorem Plane.setX_mx (p : Plane) (d : XReg) (v : Word) : (p.setX d v).mx = p.mx := by simp only [Plane.setX]; split <;> rfl
@[simp] theorem Plane.setX_mxLast (p : Plane) (d : XReg) (v : Word) : (p.setX d v).mxLast = p.mxLast := by simp only [Plane.setX]; split <;> rfl
@[simp] theorem Plane.setX_graph (p : Plane) (d : XReg) (v : Word) : (p.setX d v).graph = p.graph := by simp only [Plane.setX]; split <;> rfl
@[simp] theorem Plane.setX_grLast (p : Plane) (d : XReg) (v : Word) : (p.setX d v).grLast = p.grLast := by simp only [Plane.setX]; split <;> rfl
@[simp] theorem Plane.setX_gcs (p : Plane) (d : XReg) (v : Word) : (p.setX d v).gcs = p.gcs := by simp only [Plane.setX]; split <;> rfl
@[simp] theorem Plane.setX_gcsSeen (p : Plane) (d : XReg) (v : Word) : (p.setX d v).gcsSeen = p.gcsSeen := by simp only [Plane.setX]; split <;> rfl
@[simp] theorem Plane.setX_dq (p : Plane) (d : XReg) (v : Word) : (p.setX d v).dq = p.dq := by simp only [Plane.setX]; split <;> rfl
@[simp] theorem Plane.setX_waited (p : Plane) (d : XReg) (v : Word) : (p.setX d v).waited = p.waited := by simp only [Plane.setX]; split <;> rfl
@[simp] theorem Plane.setX_window (p : Plane) (d : XReg) (v : Word) : (p.setX d v).window = p.window := by simp only [Plane.setX]; split <;> rfl
@[simp] theorem Plane.setX_streams (p : Plane) (d : XReg) (v : Word) : (p.setX d v).streams = p.streams := by simp only [Plane.setX]; split <;> rfl
@[simp] theorem Plane.setX_policy (p : Plane) (d : XReg) (v : Word) : (p.setX d v).policy = p.policy := by simp only [Plane.setX]; split <;> rfl
@[simp] theorem Plane.setX_tmo (p : Plane) (d : XReg) (v : Word) : (p.setX d v).tmo = p.tmo := by simp only [Plane.setX]; split <;> rfl
@[simp] theorem Plane.setX_inbox (p : Plane) (d : XReg) (v : Word) : (p.setX d v).inbox = p.inbox := by simp only [Plane.setX]; split <;> rfl
@[simp] theorem Plane.setX_late (p : Plane) (d : XReg) (v : Word) : (p.setX d v).late = p.late := by simp only [Plane.setX]; split <;> rfl
@[simp] theorem Plane.advance_coh (p : Plane) (n : Nat) : (p.advance n).coh = p.coh := rfl
@[simp] theorem Plane.advance_rank (p : Plane) (n : Nat) : (p.advance n).rank = p.rank := rfl
@[simp] theorem Plane.advance_level (p : Plane) (n : Nat) : (p.advance n).level = p.level := rfl
@[simp] theorem Plane.advance_x (p : Plane) (n : Nat) : (p.advance n).x = p.x := rfl
@[simp] theorem Plane.advance_f (p : Plane) (n : Nat) : (p.advance n).f = p.f := rfl
@[simp] theorem Plane.advance_v (p : Plane) (n : Nat) : (p.advance n).v = p.v := rfl
@[simp] theorem Plane.advance_m (p : Plane) (n : Nat) : (p.advance n).m = p.m := rfl
@[simp] theorem Plane.advance_t (p : Plane) (n : Nat) : (p.advance n).t = p.t := rfl
@[simp] theorem Plane.advance_xac (p : Plane) (n : Nat) : (p.advance n).xac = p.xac := rfl
@[simp] theorem Plane.advance_xacSt (p : Plane) (n : Nat) : (p.advance n).xacSt = p.xacSt := rfl
@[simp] theorem Plane.advance_vl (p : Plane) (n : Nat) : (p.advance n).vl = p.vl := rfl
@[simp] theorem Plane.advance_lg (p : Plane) (n : Nat) : (p.advance n).lg = p.lg := rfl
@[simp] theorem Plane.advance_tag (p : Plane) (n : Nat) : (p.advance n).tag = p.tag := rfl
@[simp] theorem Plane.advance_qnext (p : Plane) (n : Nat) : (p.advance n).qnext = p.qnext := rfl
@[simp] theorem Plane.advance_vq (p : Plane) (n : Nat) : (p.advance n).vq = p.vq := rfl
@[simp] theorem Plane.advance_fcsr (p : Plane) (n : Nat) : (p.advance n).fcsr = p.fcsr := rfl
@[simp] theorem Plane.advance_fex0 (p : Plane) (n : Nat) : (p.advance n).fex0 = p.fex0 := rfl
@[simp] theorem Plane.advance_fex1 (p : Plane) (n : Nat) : (p.advance n).fex1 = p.fex1 := rfl
@[simp] theorem Plane.advance_grps (p : Plane) (n : Nat) : (p.advance n).grps = p.grps := rfl
@[simp] theorem Plane.advance_prio (p : Plane) (n : Nat) : (p.advance n).prio = p.prio := rfl
@[simp] theorem Plane.advance_tvec (p : Plane) (n : Nat) : (p.advance n).tvec = p.tvec := rfl
@[simp] theorem Plane.advance_tcause (p : Plane) (n : Nat) : (p.advance n).tcause = p.tcause := rfl
@[simp] theorem Plane.advance_tpc (p : Plane) (n : Nat) : (p.advance n).tpc = p.tpc := rfl
@[simp] theorem Plane.advance_tval (p : Plane) (n : Nat) : (p.advance n).tval = p.tval := rfl
@[simp] theorem Plane.advance_tstat (p : Plane) (n : Nat) : (p.advance n).tstat = p.tstat := rfl
@[simp] theorem Plane.advance_sel (p : Plane) (n : Nat) : (p.advance n).sel = p.sel := rfl
@[simp] theorem Plane.advance_resume (p : Plane) (n : Nat) : (p.advance n).resume = p.resume := rfl
@[simp] theorem Plane.advance_xroot (p : Plane) (n : Nat) : (p.advance n).xroot = p.xroot := rfl
@[simp] theorem Plane.advance_quota (p : Plane) (n : Nat) : (p.advance n).quota = p.quota := rfl
@[simp] theorem Plane.advance_events (p : Plane) (n : Nat) : (p.advance n).events = p.events := rfl
@[simp] theorem Plane.advance_held (p : Plane) (n : Nat) : (p.advance n).held = p.held := rfl
@[simp] theorem Plane.advance_tags (p : Plane) (n : Nat) : (p.advance n).tags = p.tags := rfl
@[simp] theorem Plane.advance_modulus (p : Plane) (n : Nat) : (p.advance n).modulus = p.modulus := rfl
@[simp] theorem Plane.advance_roots (p : Plane) (n : Nat) : (p.advance n).roots = p.roots := rfl
@[simp] theorem Plane.advance_fab (p : Plane) (n : Nat) : (p.advance n).fab = p.fab := rfl
@[simp] theorem Plane.advance_mx (p : Plane) (n : Nat) : (p.advance n).mx = p.mx := rfl
@[simp] theorem Plane.advance_mxLast (p : Plane) (n : Nat) : (p.advance n).mxLast = p.mxLast := rfl
@[simp] theorem Plane.advance_graph (p : Plane) (n : Nat) : (p.advance n).graph = p.graph := rfl
@[simp] theorem Plane.advance_grLast (p : Plane) (n : Nat) : (p.advance n).grLast = p.grLast := rfl
@[simp] theorem Plane.advance_gcs (p : Plane) (n : Nat) : (p.advance n).gcs = p.gcs := rfl
@[simp] theorem Plane.advance_gcsSeen (p : Plane) (n : Nat) : (p.advance n).gcsSeen = p.gcsSeen := rfl
@[simp] theorem Plane.advance_dq (p : Plane) (n : Nat) : (p.advance n).dq = p.dq := rfl
@[simp] theorem Plane.advance_waited (p : Plane) (n : Nat) : (p.advance n).waited = p.waited := rfl
@[simp] theorem Plane.advance_window (p : Plane) (n : Nat) : (p.advance n).window = p.window := rfl
@[simp] theorem Plane.advance_streams (p : Plane) (n : Nat) : (p.advance n).streams = p.streams := rfl
@[simp] theorem Plane.advance_policy (p : Plane) (n : Nat) : (p.advance n).policy = p.policy := rfl
@[simp] theorem Plane.advance_tmo (p : Plane) (n : Nat) : (p.advance n).tmo = p.tmo := rfl
@[simp] theorem Plane.advance_inbox (p : Plane) (n : Nat) : (p.advance n).inbox = p.inbox := rfl
@[simp] theorem Plane.advance_late (p : Plane) (n : Nat) : (p.advance n).late = p.late := rfl
@[simp] theorem Plane.advance_pc (p : Plane) (n : Nat) : (p.advance n).pc = p.pc + BitVec.ofNat 64 n := rfl
@[simp] theorem Plane.advance_wait (p : Plane) (n : Nat) : (p.advance n).wait = none := rfl
@[simp] theorem Plane.advance_st (p : Plane) (n : Nat) : (p.advance n).st = p.awake := rfl
@[simp] theorem Plane.getX_advance (p : Plane) (n : Nat) (r : XReg) : (p.advance n).getX r = p.getX r := rfl
/-- Xd after a write: the value, X0 zero. -/
theorem Plane.getX_setX_self (p : Plane) (d : XReg) (v : Word) : (p.setX d v).getX d = if d = 0 then 0 else v := by
  unfold Plane.getX Plane.setX
  split
  · rfl
  · show (p.x.set d.toFin v)[(d.toFin : Nat)] = v
    simp
/-- Any other X register after a write. -/
theorem Plane.getX_setX_ne (p : Plane) {d r : XReg} (v : Word) (h : r ≠ d) : (p.setX d v).getX r = p.getX r := by
  unfold Plane.getX Plane.setX
  have : (d.toFin : Nat) ≠ r.toFin := fun e => h (BitVec.eq_of_toFin_eq (Fin.ext e.symm))
  split
  · rfl
  · split
    · rfl
    · show (p.x.set d.toFin v)[(r.toFin : Nat)] = p.x[(r.toFin : Nat)]
      rw [Vector.getElem_set, if_neg this]

end Sys2Proof.Machine
end

