-- ==== Sys2Proof/Laws/Ops.lean ====
section
/-! SUPPORT. What each shared operation of the machine can do, said once. -/
namespace Sys2Proof.Machine

/-- A change of the issuing plane changes nothing else. -/
theorem onlyMe_modMe (s : State) (f : Plane → Plane) : OnlyMe s (s.modMe f) :=
  ⟨fun _ h => s.plane_modMe_ne f h, fun _ => rfl, rfl⟩

/-- Two changes of the issuing plane are one. -/
theorem modMe_modMe (s : State) (f g : Plane → Plane) : (s.modMe f).modMe g = s.modMe fun p => g (f p) := by
  have h : (s.modMe f).modMe g = (s.modMe f).setPlane s.cur (g ((s.modMe f).me)) := rfl
  rw [h, State.me_modMe]
  have k : (s.modMe f).planes = s.planes.set s.cur (f s.me) := rfl
  simp only [State.setPlane, k, Vector.set_set]
  rfl

theorem onlyMe_trans {s t u : State} (h : OnlyMe s t) (k : OnlyMe t u) : OnlyMe s u := by
  have hc : t.cur = s.cur := by have e := congrArg State.cur h.2.2; exact e
  refine ⟨fun p hp => ?_, fun a => (k.2.1 a).trans (h.2.1 a), ?_⟩
  · rw [k.1 p (hc ▸ hp), h.1 p hp]
  · have h2 := h.2.2; have k2 := k.2.2
    have : ({ u with planes := s.planes } : State) = { ({ u with planes := t.planes } : State) with planes := s.planes } := rfl
    rw [this, k2, h2]

/-- An instruction that writes Xd retires. -/
theorem onlyX_retX (s : State) (d : XReg) (v : Word) (len : Nat) : OnlyX s d v (s.me.pc + BitVec.ofNat 64 len) (s.retX d v len) := by
  have e : s.retX d v len = s.modMe fun p => (p.setX d v).advance len :=
    modMe_modMe s (fun p => p.setX d v) (fun p => p.advance len)
  rw [e]
  refine ⟨?_, fun r hr => ?_, ⟨?_, ?_, ?_⟩, onlyMe_modMe _ _, ?_⟩
  · simp [State.getX, Plane.getX_setX_self]
  · simp [State.getX, Plane.getX_setX_ne _ _ hr]
  · simp
  · simp [Plane.awake]
  · simp
  · simp only [State.me_modMe, SameButPc, Plane.advance, Plane.setX]; split <;> rfl

/-- An instruction that writes no register retires. -/
theorem onlyPc_advance (s : State) (len : Nat) : OnlyPc s (s.me.pc + BitVec.ofNat 64 len) (s.advance len) := by
  refine ⟨⟨?_, ?_, ?_⟩, onlyMe_modMe _ _, ?_⟩ <;> simp [State.advance, SameButPc, Plane.advance, Plane.awake]

/-- A jump. -/
theorem onlyPc_jump (s : State) (a : Word) : OnlyPc s a (s.jump a) := by
  refine ⟨⟨?_, ?_, ?_⟩, onlyMe_modMe _ _, ?_⟩ <;> simp [State.jump, SameButPc, Plane.awake]

/-- A wait that puts the strand to sleep. -/
theorem sleeps_sleepOn (s : State) (w : Wait) : Sleeps s w (s.sleepOn w) := by
  refine ⟨?_, ?_, onlyMe_modMe _ _, ?_⟩ <;> simp [State.sleepOn]

/-- A jump that links. -/
theorem onlyX_jump (s : State) (d : XReg) (v t : Word) : OnlyX s d v t ((s.setX d v).jump t) := by
  have e : (s.setX d v).jump t = s.modMe fun p => { p.setX d v with pc := t, wait := none, st := (p.setX d v).awake } :=
    modMe_modMe s (fun p => p.setX d v) (fun p => { p with pc := t, wait := none, st := p.awake })
  rw [e]
  refine ⟨?_, fun r hr => ?_, ⟨?_, ?_, ?_⟩, onlyMe_modMe _ _, ?_⟩
  · simp only [State.getX, State.me_modMe]; exact Plane.getX_setX_self s.me d v
  · simp only [State.getX, State.me_modMe]; exact Plane.getX_setX_ne s.me v hr
  · simp
  · simp [Plane.awake]
  · simp
  · simp only [State.me_modMe, SameButPc, Plane.setX]; split <;> rfl

/-- An instruction that writes Fd retires. -/
theorem onlyF_set (s : State) (d : FReg) (f : FFmt) (v : Word) : OnlyF s d f v s.pc4 ((s.setF d f v).advance 4) := by
  have e : (s.setF d f v).advance 4 = s.modMe fun p => ({ p with f := p.f.set d.toFin ⟨v, f⟩ } : Plane).advance 4 :=
    modMe_modMe s _ _
  rw [e]
  refine ⟨?_, fun r hr => ?_, ⟨?_, ?_, ?_⟩, onlyMe_modMe _ _, ?_⟩
  · simp only [State.getF, State.me_modMe, Plane.advance_f]
    show (s.me.f.set d.toFin _)[(d.toFin : Nat)] = _
    simp
  · simp only [State.getF, State.me_modMe, Plane.advance_f]
    have : (d.toFin : Nat) ≠ r.toFin := fun e => hr (BitVec.eq_of_toFin_eq (Fin.ext e.symm))
    show (s.me.f.set d.toFin _)[(r.toFin : Nat)] = s.me.f[(r.toFin : Nat)]
    rw [Vector.getElem_set, if_neg this]
  · simp [State.pc4]
  · simp [Plane.awake]
  · simp
  · simp only [State.me_modMe, SameButPc, Plane.advance]
/-- The same from a state whose issuing plane is that of s. -/
theorem onlyF_set_of_me {s s' : State} (h : s'.me = s.me) (d : FReg) (f : FFmt) (v : Word) : OnlyF s' d f v s.pc4 ((s'.setF d f v).advance 4) := by
  have := onlyF_set s' d f v
  unfold State.pc4 at *; rw [h] at this; exact this


/-- A precise trap with a handler. -/
theorem trapped_trapAt {s : State} {c tpc tval : Word} (hq : s.me.vq = []) (ht : s.mayTrap) (hw : s.me.wait = none) :
    Trapped s c tpc tval (preciseTstat s.me.level) (s.trapAt c tpc tval) := by
  have hq' : s.me.vq.isEmpty = true := by rw [hq]; rfl
  unfold State.trapAt
  rw [if_pos hq']
  unfold State.takeTrap
  have h1 : ¬ ((s.plane s.cur).tvec = 0 ∨ tstatInh (s.plane s.cur).tstat = true) := by
    rintro (h | h)
    · exact ht.1 h
    · have := ht.2; rw [State.me] at this; simp [this] at h
  rw [if_neg (by simpa using h1)]
  have harr : (s.plane s.cur).arrivedAt tpc = none := by
    unfold Plane.arrivedAt; rw [State.me] at hw; rw [hw]
  show Trapped _ _ _ _ _ (s.modMe fun _ => _)
  refine ⟨⟨?_, ?_, ?_⟩, ?_, ?_, ?_, ?_, ?_, ?_, ?_, ?_, ?_, ?_, onlyMe_modMe _ _, ?_⟩
  all_goals simp only [State.me_modMe, SameButPc]
  · rfl
  · rfl
  · rw [harr]; unfold entryTstat preciseTstat State.me
    cases h : (s.plane s.cur).level <;> rfl
  · rfl


/-! ### Flags -/

theorem modMe_comm (s : State) (f g : Plane → Plane) (h : ∀ p, f (g p) = g (f p)) : (s.modMe f).modMe g = (s.modMe g).modMe f := by
  rw [modMe_modMe, modMe_modMe]; congr 1; funext p; exact (h p).symm

/-- A trap taken with nothing queued. -/
theorem trapped_takeTrap {s s2 : State} (c tval : Word) (hl : s2.me.level = s.me.level) (hv : s2.me.vq = []) (ht : s2.mayTrap) (hw : s2.me.wait = none) (tpc : Word):
    Trapped s2 c tpc tval (preciseTstat s.me.level) (s2.takeTrap s2.cur c tpc tval false []) := by
  have := trapped_trapAt (c := c) (tpc := tpc) (tval := tval) hv ht hw
  unfold State.trapAt at this
  have hq : s2.me.vq.isEmpty = true := by rw [hv]; rfl
  rw [if_pos hq, hl] at this
  exact this

/-- A scalar instruction that raised flags retires, or its floating-point trap follows it. -/
theorem raises_ret {s : State} (fl : Flags) (w : IWord) (f : Plane → Plane) (P : State → State → Prop)
    (hc : ∀ p, (f p).orFlags fl = f (p.orFlags fl))
    (hp : P (s.modMe fun p => p.orFlags fl) ((s.modMe fun p => p.orFlags fl).modMe f))
    (hf : (f (s.me.orFlags fl)).level = s.me.level ∧ (f (s.me.orFlags fl)).vq = s.me.vq ∧ (f (s.me.orFlags fl)).tvec = s.me.tvec ∧ (f (s.me.orFlags fl)).tstat = s.me.tstat ∧ (f (s.me.orFlags fl)).wait = none ∧ (f (s.me.orFlags fl)).pc = s.pc4)
    (h : s.canEnd fl) : Raises s fl w P (s.retFlags (s.modMe f) fl w) := by
  unfold Raises State.retFlags
  have e : (s.modMe f).modMe (fun p => p.orFlags fl) = (s.modMe fun p => p.orFlags fl).modMe f := modMe_comm s f _ (fun p => (hc p).symm)
  have e2 : (s.modMe f).modMe (fun p => p.orFlags fl) = s.modMe fun p => f (p.orFlags fl) := by rw [e]; exact modMe_modMe s _ _
  simp only
  split
  · rw [e]; exact hp
  · rename_i hn
    rcases h with h | ⟨hv, ht⟩
    · exact absurd h hn
    · have hq : s.me.vq.isEmpty = true := by rw [hv]; rfl
      rw [if_pos hq]
      refine ⟨_, hp, ?_⟩
      rw [e]
      have hm : ((s.modMe fun p => p.orFlags fl).modMe f).me = f (s.me.orFlags fl) := by simp
      have hpc : ((s.modMe fun p => p.orFlags fl).modMe f).me.pc = s.pc4 := by rw [hm]; exact hf.2.2.2.2.2
      rw [hpc]
      refine trapped_takeTrap _ _ (by rw [hm]; exact hf.1) (by rw [hm, hf.2.1, hv]) ⟨by rw [hm, hf.2.2.1]; exact ht.1, by rw [hm, hf.2.2.2.1]; exact ht.2⟩ (by rw [hm]; exact hf.2.2.2.2.1) _

theorem raisesF {s : State} (fl : Flags) (w : IWord) (d : FReg) (t : FFmt) (v : Word) (h : s.canEnd fl) :
    Raises s fl w (fun s1 => OnlyF s1 d t v s.pc4) (s.retFlags ((s.setF d t v).advance 4) fl w) := by
  have e : (s.setF d t v).advance 4 = s.modMe fun p => ({ p with f := p.f.set d.toFin ⟨v, t⟩ } : Plane).advance 4 := modMe_modMe s _ _
  rw [e]
  refine raises_ret fl w _ _ (fun p => rfl) ?_ ⟨rfl, rfl, rfl, rfl, rfl, rfl⟩ h
  have k := onlyF_set (s.modMe fun p => p.orFlags fl) d t v
  have e2 : ((s.modMe fun p => p.orFlags fl).setF d t v).advance 4 = (s.modMe fun p => p.orFlags fl).modMe fun p => ({ p with f := p.f.set d.toFin ⟨v, t⟩ } : Plane).advance 4 := modMe_modMe _ _ _
  rw [e2] at k
  have : (s.modMe fun p => p.orFlags fl).pc4 = s.pc4 := by unfold State.pc4; simp [Plane.orFlags]
  rw [this] at k; exact k
theorem setX_orFlags (p : Plane) (d : XReg) (v : Word) (fl : Flags) : (p.setX d v).orFlags fl = (p.orFlags fl).setX d v := by
  unfold Plane.setX; split <;> rfl
theorem raisesX {s : State} (fl : Flags) (w : IWord) (d : XReg) (v : Word) (h : s.canEnd fl) :
    Raises s fl w (fun s1 => OnlyX s1 d v s.pc4) (s.retFlags (s.retX d v 4) fl w) := by
  have e : s.retX d v 4 = s.modMe fun p => (p.setX d v).advance 4 := modMe_modMe s (fun p => p.setX d v) (fun p => p.advance 4)
  rw [e]
  refine raises_ret fl w _ _ (fun p => ?_) ?_ (by simp [Plane.orFlags, State.pc4]) h
  · show (p.setX d v |>.advance 4).orFlags fl = _
    rw [← setX_orFlags]; rfl
  have k := onlyX_retX (s.modMe fun p => p.orFlags fl) d v 4
  have e2 : (s.modMe fun p => p.orFlags fl).retX d v 4 = (s.modMe fun p => p.orFlags fl).modMe fun p => (p.setX d v).advance 4 := modMe_modMe _ (fun p => p.setX d v) (fun p => p.advance 4)
  rw [e2] at k
  have : (s.modMe fun p => p.orFlags fl).me.pc + BitVec.ofNat 64 4 = s.pc4 := by unfold State.pc4; simp [Plane.orFlags]
  rw [this] at k; exact k


/-! ### Memory -/

/-- With no vector instruction queued no scalar access waits. -/
theorem noConflict_of_empty {s : State} (h : s.me.vq = []) (addr : Word) (n : Nat) (acc : Acc) : s.noConflict addr n acc := by
  unfold State.noConflict State.vecConflict; rw [h]

theorem onlyTouched_applyKey {s t : State} (k : PendKey) (h : OnlyTouched s t) : OnlyTouched s (t.applyKey k) := by
  unfold State.applyKey
  split
  · exact h
  · exact h

theorem onlyTouched_foldl (ks : List PendKey) {s t : State} (h : OnlyTouched s t) : OnlyTouched s (ks.foldl (fun s k => s.applyKey k) t) := by
  induction ks generalizing t with
  | nil => exact h
  | cons k ks ih => exact ih (onlyTouched_applyKey k h)

/-- Applying pending pairs changes memory, the bins and the supply of free values alone. -/
theorem onlyTouched_pressTouch (s : State) (ps : List Place) : OnlyTouched s (s.pressTouch ps) := by
  unfold State.pressTouch State.applyKeys
  split
  · exact onlyTouched_foldl _ rfl
  · rfl

/-- An access changes nothing of the state but the translations that its plane holds, and those only where its stream leaves a page. -/
theorem leavePage_only (s : State) (ag : Agent) (va n : Nat) :
    s.leavePage ag va n = s ∨ ∃ f : List Held → List Held, s.leavePage ag va n = s.modPlane ag.plane fun p => { p with held := f p.held } := by
  unfold State.leavePage
  split
  · exact .inl rfl
  · split
    · exact .inl rfl
    · exact .inr ⟨_, rfl⟩

/-- A read changes nothing but the translations held and what pending pairs change. -/
theorem onlyTouched_read {s s' : State} {ag : Agent} {va : Word} {n v : Nat} {acc : Acc} (h : s.read ag va n acc = .ok (v, s')) :
    OnlyTouched (s.leavePage ag va.toNat n) s' := by
  unfold State.read at h
  split at h
  · cases h
  · simp only at h
    split at h
    · cases h
    · cases h; exact onlyTouched_pressTouch _ _

theorem onlyStored_zsSet {s t : State} (p : Place) (v : Bool) (h : OnlyStored s t) : OnlyStored s (t.zsSet p v) := by
  unfold State.zsSet; split <;> exact h

theorem onlyStored_putByte {s t : State} (p : Place) (b : Byte) (h : OnlyStored s t) : OnlyStored s (t.putByte p b) := by
  unfold State.putByte
  simp only
  split
  · exact onlyStored_zsSet _ _ h
  · exact h

theorem onlyStored_foldl (xs : List (Place × Byte)) {s t : State} (h : OnlyStored s t) :
    OnlyStored s (xs.foldl (fun s x => s.putByte x.1 x.2) t) := by
  induction xs generalizing t with
  | nil => exact h
  | cons x xs ih => exact ih (onlyStored_putByte _ _ h)

theorem onlyStored_of_touched {s t : State} (h : OnlyTouched s t) : OnlyStored s t := by
  unfold OnlyTouched at h; unfold OnlyStored; rw [← h]

/-- A write changes the translations held, memory, zero-summary bits, poison, pending pairs and the supply of free values alone. -/
theorem onlyStored_write {s s' : State} {ag : Agent} {va : Word} {n d : Nat} {acc : Acc} (h : s.write ag va n d acc = .ok s') :
    OnlyStored (s.leavePage ag va.toNat n) s' := by
  unfold State.write at h
  split at h
  · cases h
  · split at h
    · cases h
    · cases h
      unfold State.writePlaces State.clearPoison
      have k2 : ∀ (u : State) (ps : List Place), OnlyStored u ((ps.zip (leBytes n d)).foldl (fun s x => s.putByte x.1 x.2) (u.pressTouch ps)) :=
        fun u ps => onlyStored_foldl _ (onlyStored_of_touched (onlyTouched_pressTouch u ps))
      split
      · exact k2 _ _
      · exact k2 _ _

theorem me_of_touched {s t : State} (h : OnlyTouched s t) : t.me = s.me := by
  unfold OnlyTouched at h; rw [← h]; rfl
theorem me_of_stored {s t : State} (h : OnlyStored s t) : t.me = s.me := by
  unfold OnlyStored at h; rw [← h]; rfl

theorem onlyX_of_me {s s' : State} (h : s'.me = s.me) (d : XReg) (v : Word) : OnlyX s' d v s.pc4 (s'.retX d v 4) := by
  have := onlyX_retX s' d v 4
  rw [h] at this; exact this
theorem onlyPc_of_me {s s' : State} (h : s'.me = s.me) : OnlyPc s' s.pc4 (s'.advance 4) := by
  have := onlyPc_advance s' 4
  rw [h] at this; exact this

end Sys2Proof.Machine
end

