-- ==== Sys2Proof/Laws/Keep.lean ====
section
/-! SUPPORT. Which operations keep the canonical form of memory (log 1). -/
namespace Sys2Proof.Machine

theorem Memory.wf_write (bs : List Byte) (a : Nat) (cs : List Host.Cell) (h : Memory.wf cs = true) :
    Memory.wf (bs.foldl (fun (x : Nat × List Host.Cell) b => (x.1 + 1, Memory.set x.2 x.1 b)) (a, cs)).2 = true := by
  induction bs generalizing a cs with
  | nil => exact h
  | cons b bs ih => exact ih _ _ (Memory.wf_set a b h)

theorem wf_physWrite {s : State} (pa : Nat) (bs : List Byte) (h : Memory.wf s.mem = true) : Memory.wf (s.physWrite pa bs).mem = true :=
  Memory.wf_write bs pa s.mem h

theorem wf_feSet {s : State} (p : Place) (v : Bool) (h : Memory.wf s.mem = true) : Memory.wf (s.feSet p v).mem = true := by
  unfold State.feSet; split
  · exact h
  · exact h
  · exact Memory.wf_set _ _ h

theorem wf_zsSet {s : State} (p : Place) (v : Bool) (h : Memory.wf s.mem = true) : Memory.wf (s.zsSet p v).mem = true := by
  unfold State.zsSet; split
  · exact h
  · exact h
  · exact Memory.wf_set _ _ h

theorem wf_putByte {s : State} (p : Place) (b : Byte) (h : Memory.wf s.mem = true) : Memory.wf (s.putByte p b).mem = true := by
  unfold State.putByte; simp only; split
  · exact wf_zsSet _ _ (Memory.wf_set _ _ h)
  · exact Memory.wf_set _ _ h

theorem wf_writePlaces {s : State} (ps : List Place) (bs : List Byte) (h : Memory.wf s.mem = true) :
    Memory.wf (s.writePlaces ps bs).mem = true := by
  have k : ∀ xs : List (Place × Byte), ∀ t : State, Memory.wf t.mem = true →
      Memory.wf (xs.foldl (fun s x => s.putByte x.1 x.2) t).mem = true := by
    intro xs
    induction xs with
    | nil => exact fun _ h => h
    | cons x xs ih => exact fun t h => ih _ (wf_putByte _ _ h)
  unfold State.writePlaces State.clearPoison
  split
  · exact k _ _ h
  · exact k _ _ h

theorem wf_applyKey {s : State} (k : PendKey) (h : Memory.wf s.mem = true) : Memory.wf (s.applyKey k).mem = true := by
  unfold State.applyKey
  split
  · exact wf_physWrite _ _ h
  · exact h

theorem wf_applyKeys {s : State} (sel : PendKey → Bool) (h : Memory.wf s.mem = true) : Memory.wf (s.applyKeys sel).mem = true := by
  have k : ∀ ks : List PendKey, ∀ t : State, Memory.wf t.mem = true → Memory.wf (ks.foldl (fun s k => s.applyKey k) t).mem = true := by
    intro ks
    induction ks with
    | nil => exact fun _ h => h
    | cons x xs ih =>
      exact fun t h => ih _ (wf_applyKey x h)
  unfold State.applyKeys; split
  · exact k _ _ h
  · exact h

@[simp] theorem mem_leavePage (s : State) (ag : Agent) (va n : Nat) : (s.leavePage ag va n).mem = s.mem := by
  unfold State.leavePage
  split
  · rfl
  · split <;> rfl

theorem wf_read {s s' : State} {ag : Agent} {va : Word} {n v : Nat} {acc : Acc} (h : s.read ag va n acc = .ok (v, s'))
    (hm : Memory.wf s.mem = true) : Memory.wf s'.mem = true := by
  unfold State.read at h
  split at h
  · cases h
  · simp only at h; split at h
    · cases h
    · cases h; exact wf_applyKeys _ (by simpa using hm)

theorem wf_stored {s s' : State} {ag : Agent} {va : Word} {n d : Nat} {acc : Acc} (h : s.write ag va n d acc = .ok s')
    (hm : Memory.wf s.mem = true) : Memory.wf s'.mem = true := by
  unfold State.write at h
  split at h
  · cases h
  · split at h
    · cases h
    · cases h; exact wf_writePlaces _ _ (wf_applyKeys _ (by simpa using hm))

/-- Cells kept by a test stay canonical. -/
theorem Memory.wfFrom_filter (f : Host.Cell → Bool) {cs : List Host.Cell} {lo : Nat} (h : Memory.wfFrom lo cs = true) :
    Memory.wfFrom lo (cs.filter f) = true := by
  induction cs generalizing lo with
  | nil => rfl
  | cons c rest ih =>
    simp only [Memory.wfFrom, Bool.and_eq_true, decide_eq_true_eq, bne_iff_ne, ne_eq] at h
    rw [List.filter_cons]
    split
    · simp only [Memory.wfFrom, Bool.and_eq_true, decide_eq_true_eq, bne_iff_ne, ne_eq]; exact ⟨h.1, ih h.2⟩
    · exact Memory.wfFrom_mono (ih h.2) (by omega)

/-- Two canonical lists, the first below a bound and the second from it on, are canonical one after the other. -/
theorem Memory.wfFrom_append {cs ds : List Host.Cell} {lo hi : Nat} (h : Memory.wfFrom lo cs = true) (hd : Memory.wfFrom hi ds = true)
    (hl : lo ≤ hi) (hc : ∀ c ∈ cs, c.1 < hi) : Memory.wfFrom lo (cs ++ ds) = true := by
  induction cs generalizing lo with
  | nil => exact Memory.wfFrom_mono hd hl
  | cons c rest ih =>
    simp only [Memory.wfFrom, Bool.and_eq_true, decide_eq_true_eq, bne_iff_ne, ne_eq] at h
    simp only [List.cons_append, Memory.wfFrom, Bool.and_eq_true, decide_eq_true_eq, bne_iff_ne, ne_eq]
    exact ⟨h.1, ih h.2 (hc c List.mem_cons_self) fun x hx => hc x (List.mem_cons_of_mem _ hx)⟩

/-- The non-zero bytes of a block, at their addresses. -/
theorem Memory.wfFrom_block (bs : List Byte) (a k : Nat) :
    Memory.wfFrom (a + k) (((bs.mapIdx fun i b => (a + (k + i), b)).filter fun x => x.2 != 0) : List Host.Cell) = true := by
  induction bs generalizing k with
  | nil => rfl
  | cons b bs ih =>
    have h := ih (k + 1)
    have e : (bs.mapIdx fun i b => (a + (k + (i + 1)), b)) = bs.mapIdx fun i b => (a + (k + 1 + i), b) := by
      congr 1; funext i b; congr 1; omega
    rw [List.mapIdx_cons, e, List.filter_cons]
    split
    · rename_i hb
      simp only [Memory.wfFrom, Bool.and_eq_true, decide_eq_true_eq]
      exact ⟨⟨by omega, hb⟩, h⟩
    · exact Memory.wfFrom_mono h (by omega)

/-- Cells from an address on. -/
theorem Memory.wfFrom_from {cs : List Host.Cell} {lo : Nat} (hi : Nat) (h : Memory.wfFrom lo cs = true) :
    Memory.wfFrom hi (cs.filter fun x => decide (hi ≤ x.1)) = true := by
  induction cs generalizing lo with
  | nil => rfl
  | cons c rest ih =>
    simp only [Memory.wfFrom, Bool.and_eq_true, decide_eq_true_eq, bne_iff_ne, ne_eq] at h
    rw [List.filter_cons]
    split
    · rename_i hc
      simp only [Memory.wfFrom, Bool.and_eq_true, decide_eq_true_eq, bne_iff_ne, ne_eq]
      exact ⟨⟨by simpa using hc, h.1.2⟩, Memory.wfFrom_filter _ h.2⟩
    · exact ih h.2

/-- A block written whole keeps the canonical form. -/
theorem Memory.wf_putBlock (a : Nat) (bs : List Byte) {cs : List Host.Cell} (h : Memory.wf cs = true) :
    Memory.wf (Memory.putBlock cs a bs) = true := by
  unfold Memory.putBlock Memory.wf
  have hb : Memory.wfFrom a (((bs.mapIdx fun i b => (a + i, b)).filter fun x => x.2 != 0) : List Host.Cell) = true := by
    have := Memory.wfFrom_block bs a 0; simpa using this
  have hm : ∀ c ∈ ((bs.mapIdx fun i b => (a + i, b)).filter fun x => x.2 != 0), c.1 < a + bs.length := by
    intro c hc
    obtain ⟨i, hi, rfl⟩ := List.mem_mapIdx.mp (List.mem_filter.mp hc).1
    show a + i < a + bs.length
    omega
  rw [List.append_assoc]
  refine Memory.wfFrom_append (hi := a) (Memory.wfFrom_filter _ h) ?_ (by omega) fun c hc => by simpa using (List.mem_filter.mp hc).2
  exact Memory.wfFrom_append hb (Memory.wfFrom_from _ h) (by omega) hm

/-- A scrub keeps the canonical form. -/
theorem wf_scrub {s : State} (h : Memory.wf s.mem = true) : Memory.wf s.scrub.mem = true := Memory.wfFrom_filter _ h

end Sys2Proof.Machine
end

