-- ==== Sys2Proof/Laws/PerInstr.lean ====
section
/-! SUPPORT. The families of statements that are made instruction by instruction. RoundTrip: decoding the words of an instruction gives
it back, with every operand (09 R113 to R124). -/
namespace Sys2Proof.Laws
set_option Elab.async false
set_option linter.unusedSimpArgs false
set_option maxErrors 1000

/-- Decoding the encoded words of a well-formed instruction, whatever follows them, gives the instruction and what follows. -/
def RoundTrip.Statement (i : Instr) : Prop :=
  i.wf = true → i.encoded = true → ∀ rest, decode ((encode i).flatMap bytesOfWord ++ rest) = .ok (i, rest)

theorem decode_pair (k : BitVec 26) (w : IWord) (rest : List Byte) :
    decode (([63#6 ++ k, w] : List IWord).flatMap bytesOfWord ++ rest) = .ok (.pfx k w, rest) := by
  have h1 : fldOp (63#6 ++ k) = 63#6 := by
    simp only [fldOp]; ext j hj; simp only [BitVec.getElem_extractLsb', BitVec.getLsbD_append]; grind
  have h2 : (63#6 ++ k).extractLsb' 0 26 = k := by
    ext j hj; simp only [BitVec.getElem_extractLsb', BitVec.getLsbD_append]; grind
  simp [decode, bytesOfWord, isPfx, h1, h2]

theorem RoundTrip.add x1 x2 x3 : RoundTrip.Statement (.add x1 x2 x3) := fun h _ => decode_word (by simp) (by simp [decodeInt, guardWf, freg?, mreg?, xreg?, h])
theorem RoundTrip.sub x1 x2 x3 : RoundTrip.Statement (.sub x1 x2 x3) := fun h _ => decode_word (by simp) (by simp [decodeInt, guardWf, freg?, mreg?, xreg?, h])
theorem RoundTrip.and x1 x2 x3 : RoundTrip.Statement (.and x1 x2 x3) := fun h _ => decode_word (by simp) (by simp [decodeInt, guardWf, freg?, mreg?, xreg?, h])
theorem RoundTrip.or x1 x2 x3 : RoundTrip.Statement (.or x1 x2 x3) := fun h _ => decode_word (by simp) (by simp [decodeInt, guardWf, freg?, mreg?, xreg?, h])
theorem RoundTrip.xor x1 x2 x3 : RoundTrip.Statement (.xor x1 x2 x3) := fun h _ => decode_word (by simp) (by simp [decodeInt, guardWf, freg?, mreg?, xreg?, h])
theorem RoundTrip.andn x1 x2 x3 : RoundTrip.Statement (.andn x1 x2 x3) := fun h _ => decode_word (by simp) (by simp [decodeInt, guardWf, freg?, mreg?, xreg?, h])
theorem RoundTrip.orn x1 x2 x3 : RoundTrip.Statement (.orn x1 x2 x3) := fun h _ => decode_word (by simp) (by simp [decodeInt, guardWf, freg?, mreg?, xreg?, h])
theorem RoundTrip.sll x1 x2 x3 : RoundTrip.Statement (.sll x1 x2 x3) := fun h _ => decode_word (by simp) (by simp [decodeInt, guardWf, freg?, mreg?, xreg?, h])
theorem RoundTrip.srl x1 x2 x3 : RoundTrip.Statement (.srl x1 x2 x3) := fun h _ => decode_word (by simp) (by simp [decodeInt, guardWf, freg?, mreg?, xreg?, h])
theorem RoundTrip.sra x1 x2 x3 : RoundTrip.Statement (.sra x1 x2 x3) := fun h _ => decode_word (by simp) (by simp [decodeInt, guardWf, freg?, mreg?, xreg?, h])
theorem RoundTrip.ror x1 x2 x3 : RoundTrip.Statement (.ror x1 x2 x3) := fun h _ => decode_word (by simp) (by simp [decodeInt, guardWf, freg?, mreg?, xreg?, h])
theorem RoundTrip.mul x1 x2 x3 : RoundTrip.Statement (.mul x1 x2 x3) := fun h _ => decode_word (by simp) (by simp [decodeInt, guardWf, freg?, mreg?, xreg?, h])
theorem RoundTrip.mulh x1 x2 x3 : RoundTrip.Statement (.mulh x1 x2 x3) := fun h _ => decode_word (by simp) (by simp [decodeInt, guardWf, freg?, mreg?, xreg?, h])
theorem RoundTrip.mulhz x1 x2 x3 : RoundTrip.Statement (.mulhz x1 x2 x3) := fun h _ => decode_word (by simp) (by simp [decodeInt, guardWf, freg?, mreg?, xreg?, h])
theorem RoundTrip.div x1 x2 x3 : RoundTrip.Statement (.div x1 x2 x3) := fun h _ => decode_word (by simp) (by simp [decodeInt, guardWf, freg?, mreg?, xreg?, h])
theorem RoundTrip.divz x1 x2 x3 : RoundTrip.Statement (.divz x1 x2 x3) := fun h _ => decode_word (by simp) (by simp [decodeInt, guardWf, freg?, mreg?, xreg?, h])
theorem RoundTrip.rem x1 x2 x3 : RoundTrip.Statement (.rem x1 x2 x3) := fun h _ => decode_word (by simp) (by simp [decodeInt, guardWf, freg?, mreg?, xreg?, h])
theorem RoundTrip.remz x1 x2 x3 : RoundTrip.Statement (.remz x1 x2 x3) := fun h _ => decode_word (by simp) (by simp [decodeInt, guardWf, freg?, mreg?, xreg?, h])
theorem RoundTrip.min x1 x2 x3 : RoundTrip.Statement (.min x1 x2 x3) := fun h _ => decode_word (by simp) (by simp [decodeInt, guardWf, freg?, mreg?, xreg?, h])
theorem RoundTrip.max x1 x2 x3 : RoundTrip.Statement (.max x1 x2 x3) := fun h _ => decode_word (by simp) (by simp [decodeInt, guardWf, freg?, mreg?, xreg?, h])
theorem RoundTrip.minz x1 x2 x3 : RoundTrip.Statement (.minz x1 x2 x3) := fun h _ => decode_word (by simp) (by simp [decodeInt, guardWf, freg?, mreg?, xreg?, h])
theorem RoundTrip.maxz x1 x2 x3 : RoundTrip.Statement (.maxz x1 x2 x3) := fun h _ => decode_word (by simp) (by simp [decodeInt, guardWf, freg?, mreg?, xreg?, h])
theorem RoundTrip.seq x1 x2 x3 : RoundTrip.Statement (.seq x1 x2 x3) := fun h _ => decode_word (by simp) (by simp [decodeInt, guardWf, freg?, mreg?, xreg?, h])
theorem RoundTrip.slt x1 x2 x3 : RoundTrip.Statement (.slt x1 x2 x3) := fun h _ => decode_word (by simp) (by simp [decodeInt, guardWf, freg?, mreg?, xreg?, h])
theorem RoundTrip.sltz x1 x2 x3 : RoundTrip.Statement (.sltz x1 x2 x3) := fun h _ => decode_word (by simp) (by simp [decodeInt, guardWf, freg?, mreg?, xreg?, h])
theorem RoundTrip.clz x1 x2 : RoundTrip.Statement (.clz x1 x2) := fun h _ => decode_word (by simp) (by simp [decodeInt, guardWf, freg?, mreg?, xreg?, h])
theorem RoundTrip.ctz x1 x2 : RoundTrip.Statement (.ctz x1 x2) := fun h _ => decode_word (by simp) (by simp [decodeInt, guardWf, freg?, mreg?, xreg?, h])
theorem RoundTrip.popc x1 x2 : RoundTrip.Statement (.popc x1 x2) := fun h _ => decode_word (by simp) (by simp [decodeInt, guardWf, freg?, mreg?, xreg?, h])
theorem RoundTrip.sext x1 x2 x3 : RoundTrip.Statement (.sext x1 x2 x3) := fun h _ => decode_word (by simp) (by simp [decodeInt, guardWf, freg?, mreg?, xreg?, h])
theorem RoundTrip.zext x1 x2 x3 : RoundTrip.Statement (.zext x1 x2 x3) := fun h _ => decode_word (by simp) (by simp [decodeInt, guardWf, freg?, mreg?, xreg?, h])
theorem RoundTrip.bfx x1 x2 x3 x4 : RoundTrip.Statement (.bfx x1 x2 x3 x4) := fun h _ => decode_word (by simp) (by simp [decodeInt, guardWf, freg?, mreg?, xreg?, h])
theorem RoundTrip.bfi x1 x2 x3 x4 : RoundTrip.Statement (.bfi x1 x2 x3 x4) := fun h _ => decode_word (by simp) (by simp [decodeInt, guardWf, freg?, mreg?, xreg?, h])
theorem RoundTrip.addi x1 x2 x3 : RoundTrip.Statement (.addi x1 x2 x3) := fun h _ => decode_word (by simp) (by simp [decodeAddi, guardWf, freg?, mreg?, xreg?, h])
theorem RoundTrip.andi x1 x2 x3 : RoundTrip.Statement (.andi x1 x2 x3) := fun h _ => decode_word (by simp) (by simp [decodeAndi, guardWf, freg?, mreg?, xreg?, h])
theorem RoundTrip.ori x1 x2 x3 : RoundTrip.Statement (.ori x1 x2 x3) := fun h _ => decode_word (by simp) (by simp [decodeOri, guardWf, freg?, mreg?, xreg?, h])
theorem RoundTrip.xori x1 x2 x3 : RoundTrip.Statement (.xori x1 x2 x3) := fun h _ => decode_word (by simp) (by simp [decodeXori, guardWf, freg?, mreg?, xreg?, h])
theorem RoundTrip.slti x1 x2 x3 : RoundTrip.Statement (.slti x1 x2 x3) := fun h _ => decode_word (by simp) (by simp [decodeSlti, guardWf, freg?, mreg?, xreg?, h])
theorem RoundTrip.lih x1 x2 x3 : RoundTrip.Statement (.lih x1 x2 x3) := fun h _ => decode_word (by simp) (by simp [decodeLih, guardWf, freg?, mreg?, xreg?, h])
theorem RoundTrip.slli x1 x2 x3 : RoundTrip.Statement (.slli x1 x2 x3) := fun h _ => decode_word (by simp) (by simp [decodeShi, guardWf, freg?, mreg?, xreg?, h])
theorem RoundTrip.srli x1 x2 x3 : RoundTrip.Statement (.srli x1 x2 x3) := fun h _ => decode_word (by simp) (by simp [decodeShi, guardWf, freg?, mreg?, xreg?, h])
theorem RoundTrip.srai x1 x2 x3 : RoundTrip.Statement (.srai x1 x2 x3) := fun h _ => decode_word (by simp) (by simp [decodeShi, guardWf, freg?, mreg?, xreg?, h])
theorem RoundTrip.rori x1 x2 x3 : RoundTrip.Statement (.rori x1 x2 x3) := fun h _ => decode_word (by simp) (by simp [decodeShi, guardWf, freg?, mreg?, xreg?, h])
theorem RoundTrip.ld x1 x2 x3 x4 : RoundTrip.Statement (.ld x1 x2 x3 x4) := fun h _ => decode_word (by simp) (by simp [decodeLd, guardWf, freg?, mreg?, xreg?, h])
theorem RoundTrip.ldz x1 x2 x3 x4 : RoundTrip.Statement (.ldz x1 x2 x3 x4) := fun h _ => decode_word (by simp) (by simp [decodeLdz, guardWf, freg?, mreg?, xreg?, h])
theorem RoundTrip.st x1 x2 x3 x4 : RoundTrip.Statement (.st x1 x2 x3 x4) := fun h _ => decode_word (by simp) (by simp [decodeSt, guardWf, freg?, mreg?, xreg?, h])
theorem RoundTrip.fldw x1 x2 x3 : RoundTrip.Statement (.fldw x1 x2 x3) := fun h _ => decode_word (by simp) (by simp [decodeFmem, guardWf, freg?, mreg?, xreg?, h])
theorem RoundTrip.fldd x1 x2 x3 : RoundTrip.Statement (.fldd x1 x2 x3) := fun h _ => decode_word (by simp) (by simp [decodeFmem, guardWf, freg?, mreg?, xreg?, h])
theorem RoundTrip.fstw x1 x2 x3 : RoundTrip.Statement (.fstw x1 x2 x3) := fun h _ => decode_word (by simp) (by simp [decodeFmem, guardWf, freg?, mreg?, xreg?, h])
theorem RoundTrip.fstd x1 x2 x3 : RoundTrip.Statement (.fstd x1 x2 x3) := fun h _ => decode_word (by simp) (by simp [decodeFmem, guardWf, freg?, mreg?, xreg?, h])
theorem RoundTrip.beq x1 x2 x3 : RoundTrip.Statement (.beq x1 x2 x3) := fun h _ => decode_word (by simp) (by simp [decodeBeq, guardWf, freg?, mreg?, xreg?, h])
theorem RoundTrip.bne x1 x2 x3 : RoundTrip.Statement (.bne x1 x2 x3) := fun h _ => decode_word (by simp) (by simp [decodeBne, guardWf, freg?, mreg?, xreg?, h])
theorem RoundTrip.blt x1 x2 x3 : RoundTrip.Statement (.blt x1 x2 x3) := fun h _ => decode_word (by simp) (by simp [decodeBlt, guardWf, freg?, mreg?, xreg?, h])
theorem RoundTrip.bge x1 x2 x3 : RoundTrip.Statement (.bge x1 x2 x3) := fun h _ => decode_word (by simp) (by simp [decodeBge, guardWf, freg?, mreg?, xreg?, h])
theorem RoundTrip.blo x1 x2 x3 : RoundTrip.Statement (.blo x1 x2 x3) := fun h _ => decode_word (by simp) (by simp [decodeBlo, guardWf, freg?, mreg?, xreg?, h])
theorem RoundTrip.bhs x1 x2 x3 : RoundTrip.Statement (.bhs x1 x2 x3) := fun h _ => decode_word (by simp) (by simp [decodeBhs, guardWf, freg?, mreg?, xreg?, h])
theorem RoundTrip.jl x1 x2 : RoundTrip.Statement (.jl x1 x2) := fun h _ => decode_word (by simp) (by simp [decodeJl, guardWf, freg?, mreg?, xreg?, h])
theorem RoundTrip.jlr x1 x2 x3 : RoundTrip.Statement (.jlr x1 x2 x3) := fun h _ => decode_word (by simp) (by simp [decodeJlr, guardWf, freg?, mreg?, xreg?, h])
theorem RoundTrip.pfx x1 x2 : RoundTrip.Statement (.pfx x1 x2) := fun _ _ _ => decode_pair x1 x2 _
theorem RoundTrip.fadd x1 x2 x3 x4 x5 : RoundTrip.Statement (.fadd x1 x2 x3 x4 x5) := fun h _ => decode_word (by simp) (by simp [decodeFp, guardWf, freg?, mreg?, xreg?, h])
theorem RoundTrip.fsub x1 x2 x3 x4 x5 : RoundTrip.Statement (.fsub x1 x2 x3 x4 x5) := fun h _ => decode_word (by simp) (by simp [decodeFp, guardWf, freg?, mreg?, xreg?, h])
theorem RoundTrip.fmul x1 x2 x3 x4 x5 : RoundTrip.Statement (.fmul x1 x2 x3 x4 x5) := fun h _ => decode_word (by simp) (by simp [decodeFp, guardWf, freg?, mreg?, xreg?, h])
theorem RoundTrip.fdiv x1 x2 x3 x4 x5 : RoundTrip.Statement (.fdiv x1 x2 x3 x4 x5) := fun h _ => decode_word (by simp) (by simp [decodeFp, guardWf, freg?, mreg?, xreg?, h])
theorem RoundTrip.fsqrt x1 x2 x3 x4 : RoundTrip.Statement (.fsqrt x1 x2 x3 x4) := fun h _ => decode_word (by simp) (by simp [decodeFp, guardWf, freg?, mreg?, xreg?, h])
theorem RoundTrip.fmin x1 x2 x3 x4 x5 : RoundTrip.Statement (.fmin x1 x2 x3 x4 x5) := fun h _ => decode_word (by simp) (by simp [decodeFp, guardWf, freg?, mreg?, xreg?, h])
theorem RoundTrip.fmax x1 x2 x3 x4 x5 : RoundTrip.Statement (.fmax x1 x2 x3 x4 x5) := fun h _ => decode_word (by simp) (by simp [decodeFp, guardWf, freg?, mreg?, xreg?, h])
theorem RoundTrip.fma x1 x2 x3 x4 x5 : RoundTrip.Statement (.fma x1 x2 x3 x4 x5) := fun h _ => decode_word (by simp) (by simp [decodeFp, guardWf, freg?, mreg?, xreg?, h])
theorem RoundTrip.fneg x1 x2 x3 x4 : RoundTrip.Statement (.fneg x1 x2 x3 x4) := fun h _ => decode_word (by simp) (by simp [decodeFp, guardWf, freg?, mreg?, xreg?, h])
theorem RoundTrip.fabs x1 x2 x3 x4 : RoundTrip.Statement (.fabs x1 x2 x3 x4) := fun h _ => decode_word (by simp) (by simp [decodeFp, guardWf, freg?, mreg?, xreg?, h])
theorem RoundTrip.fcps x1 x2 x3 x4 x5 : RoundTrip.Statement (.fcps x1 x2 x3 x4 x5) := fun h _ => decode_word (by simp) (by simp [decodeFp, guardWf, freg?, mreg?, xreg?, h])
theorem RoundTrip.feq x1 x2 x3 x4 x5 : RoundTrip.Statement (.feq x1 x2 x3 x4 x5) := fun h _ => decode_word (by simp) (by simp [decodeFp, guardWf, freg?, mreg?, xreg?, h])
theorem RoundTrip.flt x1 x2 x3 x4 x5 : RoundTrip.Statement (.flt x1 x2 x3 x4 x5) := fun h _ => decode_word (by simp) (by simp [decodeFp, guardWf, freg?, mreg?, xreg?, h])
theorem RoundTrip.fle x1 x2 x3 x4 x5 : RoundTrip.Statement (.fle x1 x2 x3 x4 x5) := fun h _ => decode_word (by simp) (by simp [decodeFp, guardWf, freg?, mreg?, xreg?, h])
theorem RoundTrip.fcvt x1 x2 x3 : RoundTrip.Statement (.fcvt x1 x2 x3) := fun h _ => decode_word (by simp) (by simp [decodeFp, guardWf, freg?, mreg?, xreg?, h])
theorem RoundTrip.fmovxf x1 x2 x3 x4 : RoundTrip.Statement (.fmovxf x1 x2 x3 x4) := fun h _ => decode_word (by simp) (by simp [decodeFp, guardWf, freg?, mreg?, xreg?, h])
theorem RoundTrip.fmovfx x1 x2 x3 : RoundTrip.Statement (.fmovfx x1 x2 x3) := fun h _ => decode_word (by simp) (by simp [decodeFp, guardWf, freg?, mreg?, xreg?, h])
theorem RoundTrip.fclass x1 x2 x3 x4 : RoundTrip.Statement (.fclass x1 x2 x3 x4) := fun h _ => decode_word (by simp) (by simp [decodeFp, guardWf, freg?, mreg?, xreg?, h])
theorem RoundTrip.amoswap x1 x2 x3 x4 x5 x6 : RoundTrip.Statement (.amoswap x1 x2 x3 x4 x5 x6) := fun h _ => decode_word (by simp) (by simp [decodeAmo, guardWf, freg?, mreg?, xreg?, h])
theorem RoundTrip.amocas x1 x2 x3 x4 x5 x6 : RoundTrip.Statement (.amocas x1 x2 x3 x4 x5 x6) := fun h _ => decode_word (by simp) (by simp [decodeAmo, guardWf, freg?, mreg?, xreg?, h])
theorem RoundTrip.amoadd x1 x2 x3 x4 x5 x6 : RoundTrip.Statement (.amoadd x1 x2 x3 x4 x5 x6) := fun h _ => decode_word (by simp) (by simp [decodeAmo, guardWf, freg?, mreg?, xreg?, h])
theorem RoundTrip.amoand x1 x2 x3 x4 x5 x6 : RoundTrip.Statement (.amoand x1 x2 x3 x4 x5 x6) := fun h _ => decode_word (by simp) (by simp [decodeAmo, guardWf, freg?, mreg?, xreg?, h])
theorem RoundTrip.amoor x1 x2 x3 x4 x5 x6 : RoundTrip.Statement (.amoor x1 x2 x3 x4 x5 x6) := fun h _ => decode_word (by simp) (by simp [decodeAmo, guardWf, freg?, mreg?, xreg?, h])
theorem RoundTrip.amoxor x1 x2 x3 x4 x5 x6 : RoundTrip.Statement (.amoxor x1 x2 x3 x4 x5 x6) := fun h _ => decode_word (by simp) (by simp [decodeAmo, guardWf, freg?, mreg?, xreg?, h])
theorem RoundTrip.amomin x1 x2 x3 x4 x5 x6 : RoundTrip.Statement (.amomin x1 x2 x3 x4 x5 x6) := fun h _ => decode_word (by simp) (by simp [decodeAmo, guardWf, freg?, mreg?, xreg?, h])
theorem RoundTrip.amomax x1 x2 x3 x4 x5 x6 : RoundTrip.Statement (.amomax x1 x2 x3 x4 x5 x6) := fun h _ => decode_word (by simp) (by simp [decodeAmo, guardWf, freg?, mreg?, xreg?, h])
theorem RoundTrip.amominz x1 x2 x3 x4 x5 x6 : RoundTrip.Statement (.amominz x1 x2 x3 x4 x5 x6) := fun h _ => decode_word (by simp) (by simp [decodeAmo, guardWf, freg?, mreg?, xreg?, h])
theorem RoundTrip.amomaxz x1 x2 x3 x4 x5 x6 : RoundTrip.Statement (.amomaxz x1 x2 x3 x4 x5 x6) := fun h _ => decode_word (by simp) (by simp [decodeAmo, guardWf, freg?, mreg?, xreg?, h])
theorem RoundTrip.ldacq x1 x2 x3 x4 : RoundTrip.Statement (.ldacq x1 x2 x3 x4) := fun h _ => decode_word (by simp) (by simp [decodeAmo, guardWf, freg?, mreg?, xreg?, h])
theorem RoundTrip.strel x1 x2 x3 x4 : RoundTrip.Statement (.strel x1 x2 x3 x4) := fun h _ => decode_word (by simp) (by simp [decodeAmo, guardWf, freg?, mreg?, xreg?, h])
theorem RoundTrip.fence x1 : RoundTrip.Statement (.fence x1) := fun h _ => decode_word (by simp) (by simp [decodeSync, guardWf, freg?, mreg?, xreg?, h])
theorem RoundTrip.waittl x1 x2 : RoundTrip.Statement (.waittl x1 x2) := fun h _ => decode_word (by simp) (by simp [decodeSync, guardWf, freg?, mreg?, xreg?, h])
theorem RoundTrip.waittlImm x1 x2 : RoundTrip.Statement (.waittlImm x1 x2) := fun h _ => decode_word (by simp) (by simp [decodeSync, guardWf, freg?, mreg?, xreg?, h])
theorem RoundTrip.tlread x1 x2 : RoundTrip.Statement (.tlread x1 x2) := fun h _ => decode_word (by simp) (by simp [decodeSync, guardWf, freg?, mreg?, xreg?, h])
theorem RoundTrip.tlreadIss x1 x2 : RoundTrip.Statement (.tlreadIss x1 x2) := fun h _ => decode_word (by simp) (by simp [decodeSync, guardWf, freg?, mreg?, xreg?, h])
theorem RoundTrip.tlbump x1 x2 x3 : RoundTrip.Statement (.tlbump x1 x2 x3) := fun h _ => decode_word (by simp) (by simp [decodeSync, guardWf, freg?, mreg?, xreg?, h])
theorem RoundTrip.qdrain x1 : RoundTrip.Statement (.qdrain x1) := fun h _ => decode_word (by simp) (by simp [decodeSync, guardWf, freg?, mreg?, xreg?, h])
theorem RoundTrip.gbar x1 : RoundTrip.Statement (.gbar x1) := fun h _ => decode_word (by simp) (by simp [decodeSync, guardWf, freg?, mreg?, xreg?, h])
theorem RoundTrip.garrive x1 x2 : RoundTrip.Statement (.garrive x1 x2) := fun h _ => decode_word (by simp) (by simp [decodeSync, guardWf, freg?, mreg?, xreg?, h])
theorem RoundTrip.gwait x1 x2 : RoundTrip.Statement (.gwait x1 x2) := fun h _ => decode_word (by simp) (by simp [decodeSync, guardWf, freg?, mreg?, xreg?, h])
theorem RoundTrip.acwait x1 x2 x3 : RoundTrip.Statement (.acwait x1 x2 x3) := fun h _ => decode_word (by simp) (by simp [decodeSync, guardWf, freg?, mreg?, xreg?, h])
theorem RoundTrip.wmpub x1 x2 : RoundTrip.Statement (.wmpub x1 x2) := fun h _ => decode_word (by simp) (by simp [decodeSync, guardWf, freg?, mreg?, xreg?, h])
theorem RoundTrip.wmpubImm x1 x2 : RoundTrip.Statement (.wmpubImm x1 x2) := fun h _ => decode_word (by simp) (by simp [decodeSync, guardWf, freg?, mreg?, xreg?, h])
theorem RoundTrip.wmread x1 x2 : RoundTrip.Statement (.wmread x1 x2) := fun h _ => decode_word (by simp) (by simp [decodeSync, guardWf, freg?, mreg?, xreg?, h])
theorem RoundTrip.yield : RoundTrip.Statement (.yield) := fun h _ => decode_word (by simp) (by simp [decodeSync, guardWf, freg?, mreg?, xreg?, h])
theorem RoundTrip.sleep x1 x2 x3 : RoundTrip.Statement (.sleep x1 x2 x3) := fun h _ => decode_word (by simp) (by simp [decodeSync, guardWf, freg?, mreg?, xreg?, h])
theorem RoundTrip.evpost x1 x2 x3 : RoundTrip.Statement (.evpost x1 x2 x3) := fun h _ => decode_word (by simp) (by simp [decodeSync, guardWf, freg?, mreg?, xreg?, h])
theorem RoundTrip.launch x1 x2 x3 x4 : RoundTrip.Statement (.launch x1 x2 x3 x4) := fun h _ => decode_word (by simp) (by simp [decodeSync, guardWf, freg?, mreg?, xreg?, h])
theorem RoundTrip.crget x1 x2 : RoundTrip.Statement (.crget x1 x2) := fun h _ => decode_word (by simp) (by simp [decodeSys, guardWf, freg?, mreg?, xreg?, h])
theorem RoundTrip.crput x1 x2 : RoundTrip.Statement (.crput x1 x2) := fun h _ => decode_word (by simp) (by simp [decodeSys, guardWf, freg?, mreg?, xreg?, h])
theorem RoundTrip.crswap x1 x2 x3 : RoundTrip.Statement (.crswap x1 x2 x3) := fun h _ => decode_word (by simp) (by simp [decodeSys, guardWf, freg?, mreg?, xreg?, h])
theorem RoundTrip.ecall : RoundTrip.Statement (.ecall) := fun h _ => decode_word (by simp) (by simp [decodeSys, guardWf, freg?, mreg?, xreg?, h])
theorem RoundTrip.ebreak : RoundTrip.Statement (.ebreak) := fun h _ => decode_word (by simp) (by simp [decodeSys, guardWf, freg?, mreg?, xreg?, h])
theorem RoundTrip.rte : RoundTrip.Statement (.rte) := fun h _ => decode_word (by simp) (by simp [decodeSys, guardWf, freg?, mreg?, xreg?, h])
theorem RoundTrip.halts : RoundTrip.Statement (.halts) := fun h _ => decode_word (by simp) (by simp [decodeSys, guardWf, freg?, mreg?, xreg?, h])
theorem RoundTrip.xinv x1 : RoundTrip.Statement (.xinv x1) := fun h _ => decode_word (by simp) (by simp [decodeSys, guardWf, freg?, mreg?, xreg?, h])
theorem RoundTrip.xinvPage x1 x2 : RoundTrip.Statement (.xinvPage x1 x2) := fun h _ => decode_word (by simp) (by simp [decodeSys, guardWf, freg?, mreg?, xreg?, h])
theorem RoundTrip.ctxsv x1 : RoundTrip.Statement (.ctxsv x1) := fun h _ => decode_word (by simp) (by simp [decodeSys, guardWf, freg?, mreg?, xreg?, h])
theorem RoundTrip.ctxld x1 : RoundTrip.Statement (.ctxld x1) := fun h _ => decode_word (by simp) (by simp [decodeSys, guardWf, freg?, mreg?, xreg?, h])
theorem RoundTrip.ifence : RoundTrip.Statement (.ifence) := fun h _ => decode_word (by simp) (by simp [decodeSys, guardWf, freg?, mreg?, xreg?, h])
theorem RoundTrip.tlook x1 x2 : RoundTrip.Statement (.tlook x1 x2) := fun h _ => decode_word (by simp) (by simp [decodeTagTable, guardWf, freg?, mreg?, xreg?, h])
theorem RoundTrip.tset x1 x2 : RoundTrip.Statement (.tset x1 x2) := fun h _ => decode_word (by simp) (by simp [decodeTagTable, guardWf, freg?, mreg?, xreg?, h])
theorem RoundTrip.tinv x1 x2 : RoundTrip.Statement (.tinv x1 x2) := fun h _ => decode_word (by simp) (by simp [decodeTagTable, guardWf, freg?, mreg?, xreg?, h])
theorem RoundTrip.tclr : RoundTrip.Statement (.tclr) := fun h _ => decode_word (by simp) (by simp [decodeTagTable, guardWf, freg?, mreg?, xreg?, h])
theorem RoundTrip.feget x1 x2 : RoundTrip.Statement (.feget x1 x2) := fun h _ => decode_word (by simp) (by simp [decodeTagTable, guardWf, freg?, mreg?, xreg?, h])
theorem RoundTrip.feset x1 : RoundTrip.Statement (.feset x1) := fun h _ => decode_word (by simp) (by simp [decodeTagTable, guardWf, freg?, mreg?, xreg?, h])
theorem RoundTrip.feclr x1 : RoundTrip.Statement (.feclr x1) := fun h _ => decode_word (by simp) (by simp [decodeTagTable, guardWf, freg?, mreg?, xreg?, h])
theorem RoundTrip.zscan x1 x2 x3 : RoundTrip.Statement (.zscan x1 x2 x3) := fun h _ => decode_word (by simp) (by simp [decodeTagTable, guardWf, freg?, mreg?, xreg?, h])
theorem RoundTrip.setvl x1 x2 x3 x4 : RoundTrip.Statement (.setvl x1 x2 x3 x4) := fun h _ => decode_word (by simp) (by simp [decodeVcfg, guardWf, freg?, mreg?, xreg?, h])
theorem RoundTrip.cfgget x1 : RoundTrip.Statement (.cfgget x1) := fun h _ => decode_word (by simp) (by simp [decodeVcfg, guardWf, freg?, mreg?, xreg?, h])
theorem RoundTrip.vcpget x1 : RoundTrip.Statement (.vcpget x1) := fun h _ => decode_word (by simp) (by simp [decodeVcfg, guardWf, freg?, mreg?, xreg?, h])
theorem RoundTrip.vadd x1 x2 x3 x4 : RoundTrip.Statement (.vadd x1 x2 x3 x4) := fun h _ => decode_word (by simp) (by simp [decodeVarith, guardWf, freg?, mreg?, xreg?, h])
theorem RoundTrip.vsub x1 x2 x3 x4 : RoundTrip.Statement (.vsub x1 x2 x3 x4) := fun h _ => decode_word (by simp) (by simp [decodeVarith, guardWf, freg?, mreg?, xreg?, h])
theorem RoundTrip.vmul x1 x2 x3 x4 : RoundTrip.Statement (.vmul x1 x2 x3 x4) := fun h _ => decode_word (by simp) (by simp [decodeVarith, guardWf, freg?, mreg?, xreg?, h])
theorem RoundTrip.vdiv x1 x2 x3 x4 : RoundTrip.Statement (.vdiv x1 x2 x3 x4) := fun h _ => decode_word (by simp) (by simp [decodeVarith, guardWf, freg?, mreg?, xreg?, h])
theorem RoundTrip.vmin x1 x2 x3 x4 : RoundTrip.Statement (.vmin x1 x2 x3 x4) := fun h _ => decode_word (by simp) (by simp [decodeVarith, guardWf, freg?, mreg?, xreg?, h])
theorem RoundTrip.vmax x1 x2 x3 x4 : RoundTrip.Statement (.vmax x1 x2 x3 x4) := fun h _ => decode_word (by simp) (by simp [decodeVarith, guardWf, freg?, mreg?, xreg?, h])
theorem RoundTrip.vabs x1 x2 x3 : RoundTrip.Statement (.vabs x1 x2 x3) := fun h _ => decode_word (by simp) (by simp [decodeVarith, guardWf, freg?, mreg?, xreg?, h])
theorem RoundTrip.vneg x1 x2 x3 : RoundTrip.Statement (.vneg x1 x2 x3) := fun h _ => decode_word (by simp) (by simp [decodeVarith, guardWf, freg?, mreg?, xreg?, h])
theorem RoundTrip.vsqrt x1 x2 x3 : RoundTrip.Statement (.vsqrt x1 x2 x3) := fun h _ => decode_word (by simp) (by simp [decodeVarith, guardWf, freg?, mreg?, xreg?, h])
theorem RoundTrip.vfma x1 x2 x3 x4 : RoundTrip.Statement (.vfma x1 x2 x3 x4) := fun h _ => decode_word (by simp) (by simp [decodeVarith, guardWf, freg?, mreg?, xreg?, h])
theorem RoundTrip.vfms x1 x2 x3 x4 : RoundTrip.Statement (.vfms x1 x2 x3 x4) := fun h _ => decode_word (by simp) (by simp [decodeVarith, guardWf, freg?, mreg?, xreg?, h])
theorem RoundTrip.vfnma x1 x2 x3 x4 : RoundTrip.Statement (.vfnma x1 x2 x3 x4) := fun h _ => decode_word (by simp) (by simp [decodeVarith, guardWf, freg?, mreg?, xreg?, h])
theorem RoundTrip.vand x1 x2 x3 x4 : RoundTrip.Statement (.vand x1 x2 x3 x4) := fun h _ => decode_word (by simp) (by simp [decodeVarith, guardWf, freg?, mreg?, xreg?, h])
theorem RoundTrip.vor x1 x2 x3 x4 : RoundTrip.Statement (.vor x1 x2 x3 x4) := fun h _ => decode_word (by simp) (by simp [decodeVarith, guardWf, freg?, mreg?, xreg?, h])
theorem RoundTrip.vxor x1 x2 x3 x4 : RoundTrip.Statement (.vxor x1 x2 x3 x4) := fun h _ => decode_word (by simp) (by simp [decodeVarith, guardWf, freg?, mreg?, xreg?, h])
theorem RoundTrip.vnot x1 x2 x3 : RoundTrip.Statement (.vnot x1 x2 x3) := fun h _ => decode_word (by simp) (by simp [decodeVarith, guardWf, freg?, mreg?, xreg?, h])
theorem RoundTrip.vsll x1 x2 x3 x4 : RoundTrip.Statement (.vsll x1 x2 x3 x4) := fun h _ => decode_word (by simp) (by simp [decodeVarith, guardWf, freg?, mreg?, xreg?, h])
theorem RoundTrip.vsrl x1 x2 x3 x4 : RoundTrip.Statement (.vsrl x1 x2 x3 x4) := fun h _ => decode_word (by simp) (by simp [decodeVarith, guardWf, freg?, mreg?, xreg?, h])
theorem RoundTrip.vsra x1 x2 x3 x4 : RoundTrip.Statement (.vsra x1 x2 x3 x4) := fun h _ => decode_word (by simp) (by simp [decodeVarith, guardWf, freg?, mreg?, xreg?, h])
theorem RoundTrip.vmulh x1 x2 x3 x4 : RoundTrip.Statement (.vmulh x1 x2 x3 x4) := fun h _ => decode_word (by simp) (by simp [decodeVarith, guardWf, freg?, mreg?, xreg?, h])
theorem RoundTrip.vsadd x1 x2 x3 x4 : RoundTrip.Statement (.vsadd x1 x2 x3 x4) := fun h _ => decode_word (by simp) (by simp [decodeVarith, guardWf, freg?, mreg?, xreg?, h])
theorem RoundTrip.vssub x1 x2 x3 x4 : RoundTrip.Statement (.vssub x1 x2 x3 x4) := fun h _ => decode_word (by simp) (by simp [decodeVarith, guardWf, freg?, mreg?, xreg?, h])
theorem RoundTrip.vclz x1 x2 x3 : RoundTrip.Statement (.vclz x1 x2 x3) := fun h _ => decode_word (by simp) (by simp [decodeVarith, guardWf, freg?, mreg?, xreg?, h])
theorem RoundTrip.vpopc x1 x2 x3 : RoundTrip.Statement (.vpopc x1 x2 x3) := fun h _ => decode_word (by simp) (by simp [decodeVarith, guardWf, freg?, mreg?, xreg?, h])
theorem RoundTrip.vmov x1 x2 x3 : RoundTrip.Statement (.vmov x1 x2 x3) := fun h _ => decode_word (by simp) (by simp [decodeVarith, guardWf, freg?, mreg?, xreg?, h])
theorem RoundTrip.vmerge x1 x2 x3 x4 : RoundTrip.Statement (.vmerge x1 x2 x3 x4) := fun h _ => decode_word (by simp) (by simp [decodeVarith, guardWf, freg?, mreg?, xreg?, h])
theorem RoundTrip.vcps x1 x2 x3 x4 : RoundTrip.Statement (.vcps x1 x2 x3 x4) := fun h _ => decode_word (by simp) (by simp [decodeVarith, guardWf, freg?, mreg?, xreg?, h])
theorem RoundTrip.vclass x1 x2 x3 : RoundTrip.Statement (.vclass x1 x2 x3) := fun h _ => decode_word (by simp) (by simp [decodeVarith, guardWf, freg?, mreg?, xreg?, h])
theorem RoundTrip.vmodmul x1 x2 x3 x4 : RoundTrip.Statement (.vmodmul x1 x2 x3 x4) := fun h _ => decode_word (by simp) (by simp [decodeVarith, guardWf, freg?, mreg?, xreg?, h])
theorem RoundTrip.vmodadd x1 x2 x3 x4 : RoundTrip.Statement (.vmodadd x1 x2 x3 x4) := fun h _ => decode_word (by simp) (by simp [decodeVarith, guardWf, freg?, mreg?, xreg?, h])
theorem RoundTrip.vmodsub x1 x2 x3 x4 : RoundTrip.Statement (.vmodsub x1 x2 x3 x4) := fun h _ => decode_word (by simp) (by simp [decodeVarith, guardWf, freg?, mreg?, xreg?, h])
theorem RoundTrip.vtag x1 x2 x3 : RoundTrip.Statement (.vtag x1 x2 x3) := fun h _ => decode_word (by simp) (by simp [decodeVarith, guardWf, freg?, mreg?, xreg?, h])
theorem RoundTrip.vaddVs x1 x2 x3 x4 x5 : RoundTrip.Statement (.vaddVs x1 x2 x3 x4 x5) := fun h _ => decode_word (by simp) (by simp [decodeVariths, guardWf, freg?, mreg?, xreg?, h])
theorem RoundTrip.vsubVs x1 x2 x3 x4 x5 : RoundTrip.Statement (.vsubVs x1 x2 x3 x4 x5) := fun h _ => decode_word (by simp) (by simp [decodeVariths, guardWf, freg?, mreg?, xreg?, h])
theorem RoundTrip.vmulVs x1 x2 x3 x4 x5 : RoundTrip.Statement (.vmulVs x1 x2 x3 x4 x5) := fun h _ => decode_word (by simp) (by simp [decodeVariths, guardWf, freg?, mreg?, xreg?, h])
theorem RoundTrip.vdivVs x1 x2 x3 x4 x5 : RoundTrip.Statement (.vdivVs x1 x2 x3 x4 x5) := fun h _ => decode_word (by simp) (by simp [decodeVariths, guardWf, freg?, mreg?, xreg?, h])
theorem RoundTrip.vminVs x1 x2 x3 x4 x5 : RoundTrip.Statement (.vminVs x1 x2 x3 x4 x5) := fun h _ => decode_word (by simp) (by simp [decodeVariths, guardWf, freg?, mreg?, xreg?, h])
theorem RoundTrip.vmaxVs x1 x2 x3 x4 x5 : RoundTrip.Statement (.vmaxVs x1 x2 x3 x4 x5) := fun h _ => decode_word (by simp) (by simp [decodeVariths, guardWf, freg?, mreg?, xreg?, h])
theorem RoundTrip.vfmaVs x1 x2 x3 x4 x5 : RoundTrip.Statement (.vfmaVs x1 x2 x3 x4 x5) := fun h _ => decode_word (by simp) (by simp [decodeVariths, guardWf, freg?, mreg?, xreg?, h])
theorem RoundTrip.vfmsVs x1 x2 x3 x4 x5 : RoundTrip.Statement (.vfmsVs x1 x2 x3 x4 x5) := fun h _ => decode_word (by simp) (by simp [decodeVariths, guardWf, freg?, mreg?, xreg?, h])
theorem RoundTrip.vfnmaVs x1 x2 x3 x4 x5 : RoundTrip.Statement (.vfnmaVs x1 x2 x3 x4 x5) := fun h _ => decode_word (by simp) (by simp [decodeVariths, guardWf, freg?, mreg?, xreg?, h])
theorem RoundTrip.vandVs x1 x2 x3 x4 x5 : RoundTrip.Statement (.vandVs x1 x2 x3 x4 x5) := fun h _ => decode_word (by simp) (by simp [decodeVariths, guardWf, freg?, mreg?, xreg?, h])
theorem RoundTrip.vorVs x1 x2 x3 x4 x5 : RoundTrip.Statement (.vorVs x1 x2 x3 x4 x5) := fun h _ => decode_word (by simp) (by simp [decodeVariths, guardWf, freg?, mreg?, xreg?, h])
theorem RoundTrip.vxorVs x1 x2 x3 x4 x5 : RoundTrip.Statement (.vxorVs x1 x2 x3 x4 x5) := fun h _ => decode_word (by simp) (by simp [decodeVariths, guardWf, freg?, mreg?, xreg?, h])
theorem RoundTrip.vsllVs x1 x2 x3 x4 x5 : RoundTrip.Statement (.vsllVs x1 x2 x3 x4 x5) := fun h _ => decode_word (by simp) (by simp [decodeVariths, guardWf, freg?, mreg?, xreg?, h])
theorem RoundTrip.vsrlVs x1 x2 x3 x4 x5 : RoundTrip.Statement (.vsrlVs x1 x2 x3 x4 x5) := fun h _ => decode_word (by simp) (by simp [decodeVariths, guardWf, freg?, mreg?, xreg?, h])
theorem RoundTrip.vsraVs x1 x2 x3 x4 x5 : RoundTrip.Statement (.vsraVs x1 x2 x3 x4 x5) := fun h _ => decode_word (by simp) (by simp [decodeVariths, guardWf, freg?, mreg?, xreg?, h])
theorem RoundTrip.vmulhVs x1 x2 x3 x4 x5 : RoundTrip.Statement (.vmulhVs x1 x2 x3 x4 x5) := fun h _ => decode_word (by simp) (by simp [decodeVariths, guardWf, freg?, mreg?, xreg?, h])
theorem RoundTrip.vsaddVs x1 x2 x3 x4 x5 : RoundTrip.Statement (.vsaddVs x1 x2 x3 x4 x5) := fun h _ => decode_word (by simp) (by simp [decodeVariths, guardWf, freg?, mreg?, xreg?, h])
theorem RoundTrip.vssubVs x1 x2 x3 x4 x5 : RoundTrip.Statement (.vssubVs x1 x2 x3 x4 x5) := fun h _ => decode_word (by simp) (by simp [decodeVariths, guardWf, freg?, mreg?, xreg?, h])
theorem RoundTrip.vmergeVs x1 x2 x3 x4 x5 : RoundTrip.Statement (.vmergeVs x1 x2 x3 x4 x5) := fun h _ => decode_word (by simp) (by simp [decodeVariths, guardWf, freg?, mreg?, xreg?, h])
theorem RoundTrip.vcpsVs x1 x2 x3 x4 x5 : RoundTrip.Statement (.vcpsVs x1 x2 x3 x4 x5) := fun h _ => decode_word (by simp) (by simp [decodeVariths, guardWf, freg?, mreg?, xreg?, h])
theorem RoundTrip.vmodmulVs x1 x2 x3 x4 x5 : RoundTrip.Statement (.vmodmulVs x1 x2 x3 x4 x5) := fun h _ => decode_word (by simp) (by simp [decodeVariths, guardWf, freg?, mreg?, xreg?, h])
theorem RoundTrip.vmodaddVs x1 x2 x3 x4 x5 : RoundTrip.Statement (.vmodaddVs x1 x2 x3 x4 x5) := fun h _ => decode_word (by simp) (by simp [decodeVariths, guardWf, freg?, mreg?, xreg?, h])
theorem RoundTrip.vmodsubVs x1 x2 x3 x4 x5 : RoundTrip.Statement (.vmodsubVs x1 x2 x3 x4 x5) := fun h _ => decode_word (by simp) (by simp [decodeVariths, guardWf, freg?, mreg?, xreg?, h])
theorem RoundTrip.vcmpeq x1 x2 x3 x4 : RoundTrip.Statement (.vcmpeq x1 x2 x3 x4) := fun h _ => decode_word (by simp) (by simp [decodeVcmp, guardWf, freg?, mreg?, xreg?, h])
theorem RoundTrip.vcmpne x1 x2 x3 x4 : RoundTrip.Statement (.vcmpne x1 x2 x3 x4) := fun h _ => decode_word (by simp) (by simp [decodeVcmp, guardWf, freg?, mreg?, xreg?, h])
theorem RoundTrip.vcmplt x1 x2 x3 x4 : RoundTrip.Statement (.vcmplt x1 x2 x3 x4) := fun h _ => decode_word (by simp) (by simp [decodeVcmp, guardWf, freg?, mreg?, xreg?, h])
theorem RoundTrip.vcmple x1 x2 x3 x4 : RoundTrip.Statement (.vcmple x1 x2 x3 x4) := fun h _ => decode_word (by simp) (by simp [decodeVcmp, guardWf, freg?, mreg?, xreg?, h])
theorem RoundTrip.vcmpun x1 x2 x3 x4 : RoundTrip.Statement (.vcmpun x1 x2 x3 x4) := fun h _ => decode_word (by simp) (by simp [decodeVcmp, guardWf, freg?, mreg?, xreg?, h])
theorem RoundTrip.mand x1 x2 x3 : RoundTrip.Statement (.mand x1 x2 x3) := fun h _ => decode_word (by simp) (by simp [decodeVcmp, guardWf, freg?, mreg?, xreg?, h])
theorem RoundTrip.mor x1 x2 x3 : RoundTrip.Statement (.mor x1 x2 x3) := fun h _ => decode_word (by simp) (by simp [decodeVcmp, guardWf, freg?, mreg?, xreg?, h])
theorem RoundTrip.mxor x1 x2 x3 : RoundTrip.Statement (.mxor x1 x2 x3) := fun h _ => decode_word (by simp) (by simp [decodeVcmp, guardWf, freg?, mreg?, xreg?, h])
theorem RoundTrip.mandn x1 x2 x3 : RoundTrip.Statement (.mandn x1 x2 x3) := fun h _ => decode_word (by simp) (by simp [decodeVcmp, guardWf, freg?, mreg?, xreg?, h])
theorem RoundTrip.mnot x1 x2 : RoundTrip.Statement (.mnot x1 x2) := fun h _ => decode_word (by simp) (by simp [decodeVcmp, guardWf, freg?, mreg?, xreg?, h])
theorem RoundTrip.mpopc x1 x2 x3 : RoundTrip.Statement (.mpopc x1 x2 x3) := fun h _ => decode_word (by simp) (by simp [decodeVcmp, guardWf, freg?, mreg?, xreg?, h])
theorem RoundTrip.mfirst x1 x2 x3 : RoundTrip.Statement (.mfirst x1 x2 x3) := fun h _ => decode_word (by simp) (by simp [decodeVcmp, guardWf, freg?, mreg?, xreg?, h])
theorem RoundTrip.mset x1 x2 : RoundTrip.Statement (.mset x1 x2) := fun h _ => decode_word (by simp) (by simp [decodeVcmp, guardWf, freg?, mreg?, xreg?, h])
theorem RoundTrip.mfromv x1 x2 x3 : RoundTrip.Statement (.mfromv x1 x2 x3) := fun h _ => decode_word (by simp) (by simp [decodeVcmp, guardWf, freg?, mreg?, xreg?, h])
theorem RoundTrip.vredsum x1 x2 x3 x4 : RoundTrip.Statement (.vredsum x1 x2 x3 x4) := fun h _ => decode_word (by simp) (by simp [decodeVred, guardWf, freg?, mreg?, xreg?, h])
theorem RoundTrip.vredsumo x1 x2 x3 x4 : RoundTrip.Statement (.vredsumo x1 x2 x3 x4) := fun h _ => decode_word (by simp) (by simp [decodeVred, guardWf, freg?, mreg?, xreg?, h])
theorem RoundTrip.vredmin x1 x2 x3 x4 : RoundTrip.Statement (.vredmin x1 x2 x3 x4) := fun h _ => decode_word (by simp) (by simp [decodeVred, guardWf, freg?, mreg?, xreg?, h])
theorem RoundTrip.vredmax x1 x2 x3 x4 : RoundTrip.Statement (.vredmax x1 x2 x3 x4) := fun h _ => decode_word (by simp) (by simp [decodeVred, guardWf, freg?, mreg?, xreg?, h])
theorem RoundTrip.vredand x1 x2 x3 x4 : RoundTrip.Statement (.vredand x1 x2 x3 x4) := fun h _ => decode_word (by simp) (by simp [decodeVred, guardWf, freg?, mreg?, xreg?, h])
theorem RoundTrip.vredor x1 x2 x3 x4 : RoundTrip.Statement (.vredor x1 x2 x3 x4) := fun h _ => decode_word (by simp) (by simp [decodeVred, guardWf, freg?, mreg?, xreg?, h])
theorem RoundTrip.vredxor x1 x2 x3 x4 : RoundTrip.Statement (.vredxor x1 x2 x3 x4) := fun h _ => decode_word (by simp) (by simp [decodeVred, guardWf, freg?, mreg?, xreg?, h])
theorem RoundTrip.vdot x1 x2 x3 x4 : RoundTrip.Statement (.vdot x1 x2 x3 x4) := fun h _ => decode_word (by simp) (by simp [decodeVred, guardWf, freg?, mreg?, xreg?, h])
theorem RoundTrip.vxacc x1 x2 x3 : RoundTrip.Statement (.vxacc x1 x2 x3) := fun h _ => decode_word (by simp) (by simp [decodeVred, guardWf, freg?, mreg?, xreg?, h])
theorem RoundTrip.vxrnd x1 : RoundTrip.Statement (.vxrnd x1) := fun h _ => decode_word (by simp) (by simp [decodeVred, guardWf, freg?, mreg?, xreg?, h])
theorem RoundTrip.vxrndClr x1 : RoundTrip.Statement (.vxrndClr x1) := fun h _ => decode_word (by simp) (by simp [decodeVred, guardWf, freg?, mreg?, xreg?, h])
theorem RoundTrip.vcvth x1 x2 x3 x4 : RoundTrip.Statement (.vcvth x1 x2 x3 x4) := fun h _ => decode_word (by simp) (by simp [decodeVconv, guardWf, freg?, mreg?, xreg?, h])
theorem RoundTrip.vcvtd x1 x2 x3 x4 : RoundTrip.Statement (.vcvtd x1 x2 x3 x4) := fun h _ => decode_word (by simp) (by simp [decodeVconv, guardWf, freg?, mreg?, xreg?, h])
theorem RoundTrip.vcvtf4 x1 x2 x3 : RoundTrip.Statement (.vcvtf4 x1 x2 x3) := fun h _ => decode_word (by simp) (by simp [decodeVconv, guardWf, freg?, mreg?, xreg?, h])
theorem RoundTrip.vcvti x1 x2 x3 x4 : RoundTrip.Statement (.vcvti x1 x2 x3 x4) := fun h _ => decode_word (by simp) (by simp [decodeVconv, guardWf, freg?, mreg?, xreg?, h])
theorem RoundTrip.vcvtf x1 x2 x3 x4 : RoundTrip.Statement (.vcvtf x1 x2 x3 x4) := fun h _ => decode_word (by simp) (by simp [decodeVconv, guardWf, freg?, mreg?, xreg?, h])
theorem RoundTrip.vquant x1 x2 x3 : RoundTrip.Statement (.vquant x1 x2 x3) := fun h _ => decode_word (by simp) (by simp [decodeVconv, guardWf, freg?, mreg?, xreg?, h])
theorem RoundTrip.vdeq x1 x2 x3 x4 : RoundTrip.Statement (.vdeq x1 x2 x3 x4) := fun h _ => decode_word (by simp) (by simp [decodeVconv, guardWf, freg?, mreg?, xreg?, h])
theorem RoundTrip.vscale x1 x2 x3 x4 : RoundTrip.Statement (.vscale x1 x2 x3 x4) := fun h _ => decode_word (by simp) (by simp [decodeVconv, guardWf, freg?, mreg?, xreg?, h])
theorem RoundTrip.vpacks x1 x2 x3 x4 : RoundTrip.Statement (.vpacks x1 x2 x3 x4) := fun h _ => decode_word (by simp) (by simp [decodeVconv, guardWf, freg?, mreg?, xreg?, h])
theorem RoundTrip.vbfpn x1 x2 x3 x4 : RoundTrip.Statement (.vbfpn x1 x2 x3 x4) := fun h _ => decode_word (by simp) (by simp [decodeVconv, guardWf, freg?, mreg?, xreg?, h])
theorem RoundTrip.vgathr x1 x2 x3 x4 : RoundTrip.Statement (.vgathr x1 x2 x3 x4) := fun h _ => decode_word (by simp) (by simp [decodeVperm, guardWf, freg?, mreg?, xreg?, h])
theorem RoundTrip.vslideup x1 x2 x3 x4 : RoundTrip.Statement (.vslideup x1 x2 x3 x4) := fun h _ => decode_word (by simp) (by simp [decodeVperm, guardWf, freg?, mreg?, xreg?, h])
theorem RoundTrip.vslidedn x1 x2 x3 x4 : RoundTrip.Statement (.vslidedn x1 x2 x3 x4) := fun h _ => decode_word (by simp) (by simp [decodeVperm, guardWf, freg?, mreg?, xreg?, h])
theorem RoundTrip.vcompr x1 x2 x3 : RoundTrip.Statement (.vcompr x1 x2 x3) := fun h _ => decode_word (by simp) (by simp [decodeVperm, guardWf, freg?, mreg?, xreg?, h])
theorem RoundTrip.vexpnd x1 x2 x3 : RoundTrip.Statement (.vexpnd x1 x2 x3) := fun h _ => decode_word (by simp) (by simp [decodeVperm, guardWf, freg?, mreg?, xreg?, h])
theorem RoundTrip.viota x1 x2 x3 : RoundTrip.Statement (.viota x1 x2 x3) := fun h _ => decode_word (by simp) (by simp [decodeVperm, guardWf, freg?, mreg?, xreg?, h])
theorem RoundTrip.vid x1 x2 : RoundTrip.Statement (.vid x1 x2) := fun h _ => decode_word (by simp) (by simp [decodeVperm, guardWf, freg?, mreg?, xreg?, h])
theorem RoundTrip.vbcast x1 x2 x3 x4 : RoundTrip.Statement (.vbcast x1 x2 x3 x4) := fun h _ => decode_word (by simp) (by simp [decodeVperm, guardWf, freg?, mreg?, xreg?, h])
theorem RoundTrip.vextr x1 x2 x3 : RoundTrip.Statement (.vextr x1 x2 x3) := fun h _ => decode_word (by simp) (by simp [decodeVperm, guardWf, freg?, mreg?, xreg?, h])
theorem RoundTrip.vinsrt x1 x2 x3 : RoundTrip.Statement (.vinsrt x1 x2 x3) := fun h _ => decode_word (by simp) (by simp [decodeVperm, guardWf, freg?, mreg?, xreg?, h])
theorem RoundTrip.vrev x1 x2 x3 : RoundTrip.Statement (.vrev x1 x2 x3) := fun h _ => decode_word (by simp) (by simp [decodeVperm, guardWf, freg?, mreg?, xreg?, h])
theorem RoundTrip.vzip x1 x2 x3 : RoundTrip.Statement (.vzip x1 x2 x3) := fun h _ => decode_word (by simp) (by simp [decodeVperm, guardWf, freg?, mreg?, xreg?, h])
theorem RoundTrip.vunzip x1 x2 x3 : RoundTrip.Statement (.vunzip x1 x2 x3) := fun h _ => decode_word (by simp) (by simp [decodeVperm, guardWf, freg?, mreg?, xreg?, h])
theorem RoundTrip.vstrp x1 x2 x3 : RoundTrip.Statement (.vstrp x1 x2 x3) := fun h _ => decode_word (by simp) (by simp [decodeVperm, guardWf, freg?, mreg?, xreg?, h])
theorem RoundTrip.vconfd x1 x2 x3 : RoundTrip.Statement (.vconfd x1 x2 x3) := fun h _ => decode_word (by simp) (by simp [decodeVperm, guardWf, freg?, mreg?, xreg?, h])
theorem RoundTrip.vld x1 x2 x3 : RoundTrip.Statement (.vld x1 x2 x3) := fun h _ => decode_word (by simp) (by simp [decodeVload, guardWf, freg?, mreg?, xreg?, h])
theorem RoundTrip.vlds x1 x2 x3 x4 : RoundTrip.Statement (.vlds x1 x2 x3 x4) := fun h _ => decode_word (by simp) (by simp [decodeVload, guardWf, freg?, mreg?, xreg?, h])
theorem RoundTrip.vldseg x1 x2 x3 x4 : RoundTrip.Statement (.vldseg x1 x2 x3 x4) := fun h _ => decode_word (by simp) (by simp [decodeVload, guardWf, freg?, mreg?, xreg?, h])
theorem RoundTrip.vldx x1 x2 x3 x4 x5 : RoundTrip.Statement (.vldx x1 x2 x3 x4 x5) := fun h _ => decode_word (by simp) (by simp [decodeVload, guardWf, freg?, mreg?, xreg?, h])
theorem RoundTrip.vldff x1 x2 x3 : RoundTrip.Statement (.vldff x1 x2 x3) := fun h _ => decode_word (by simp) (by simp [decodeVload, guardWf, freg?, mreg?, xreg?, h])
theorem RoundTrip.vldw x1 x2 x3 x4 : RoundTrip.Statement (.vldw x1 x2 x3 x4) := fun h _ => decode_word (by simp) (by simp [decodeVload, guardWf, freg?, mreg?, xreg?, h])
theorem RoundTrip.vgwin x1 x2 x3 x4 x5 : RoundTrip.Statement (.vgwin x1 x2 x3 x4 x5) := fun h _ => decode_word (by simp) (by simp [decodeVload, guardWf, freg?, mreg?, xreg?, h])
theorem RoundTrip.vldfe x1 x2 x3 x4 : RoundTrip.Statement (.vldfe x1 x2 x3 x4) := fun h _ => decode_word (by simp) (by simp [decodeVload, guardWf, freg?, mreg?, xreg?, h])
theorem RoundTrip.vst x1 x2 x3 : RoundTrip.Statement (.vst x1 x2 x3) := fun h _ => decode_word (by simp) (by simp [decodeVstore, guardWf, freg?, mreg?, xreg?, h])
theorem RoundTrip.vsts x1 x2 x3 x4 : RoundTrip.Statement (.vsts x1 x2 x3 x4) := fun h _ => decode_word (by simp) (by simp [decodeVstore, guardWf, freg?, mreg?, xreg?, h])
theorem RoundTrip.vstseg x1 x2 x3 x4 : RoundTrip.Statement (.vstseg x1 x2 x3 x4) := fun h _ => decode_word (by simp) (by simp [decodeVstore, guardWf, freg?, mreg?, xreg?, h])
theorem RoundTrip.vstx x1 x2 x3 x4 x5 : RoundTrip.Statement (.vstx x1 x2 x3 x4 x5) := fun h _ => decode_word (by simp) (by simp [decodeVstore, guardWf, freg?, mreg?, xreg?, h])
theorem RoundTrip.vstxo x1 x2 x3 x4 x5 : RoundTrip.Statement (.vstxo x1 x2 x3 x4 x5) := fun h _ => decode_word (by simp) (by simp [decodeVstore, guardWf, freg?, mreg?, xreg?, h])
theorem RoundTrip.vstfe x1 x2 x3 : RoundTrip.Statement (.vstfe x1 x2 x3) := fun h _ => decode_word (by simp) (by simp [decodeVstore, guardWf, freg?, mreg?, xreg?, h])
theorem RoundTrip.vstwm x1 x2 x3 x4 : RoundTrip.Statement (.vstwm x1 x2 x3 x4) := fun h _ => decode_word (by simp) (by simp [decodeVstore, guardWf, freg?, mreg?, xreg?, h])
theorem RoundTrip.upd x1 x2 x3 x4 : RoundTrip.Statement (.upd x1 x2 x3 x4) := fun h _ => decode_word (by simp) (by simp [decodeVupd, guardWf, freg?, mreg?, xreg?, h])
theorem RoundTrip.upda x1 x2 x3 x4 : RoundTrip.Statement (.upda x1 x2 x3 x4) := fun h _ => decode_word (by simp) (by simp [decodeVupd, guardWf, freg?, mreg?, xreg?, h])
theorem RoundTrip.uwin x1 x2 : RoundTrip.Statement (.uwin x1 x2) := fun h _ => decode_word (by simp) (by simp [decodeVupd, guardWf, freg?, mreg?, xreg?, h])
theorem RoundTrip.uwinRel x1 : RoundTrip.Statement (.uwinRel x1) := fun h _ => decode_word (by simp) (by simp [decodeVupd, guardWf, freg?, mreg?, xreg?, h])
theorem RoundTrip.uacc x1 x2 x3 : RoundTrip.Statement (.uacc x1 x2 x3) := fun h _ => decode_word (by simp) (by simp [decodeVupd, guardWf, freg?, mreg?, xreg?, h])
theorem RoundTrip.umerge : RoundTrip.Statement (.umerge) := fun h _ => decode_word (by simp) (by simp [decodeVupd, guardWf, freg?, mreg?, xreg?, h])
theorem RoundTrip.uflush x1 : RoundTrip.Statement (.uflush x1) := fun h _ => decode_word (by simp) (by simp [decodeVupd, guardWf, freg?, mreg?, xreg?, h])
theorem RoundTrip.uregion x1 x2 : RoundTrip.Statement (.uregion x1 x2) := fun h _ => decode_word (by simp) (by simp [decodeVupd, guardWf, freg?, mreg?, xreg?, h])
theorem RoundTrip.uregionRel x1 x2 : RoundTrip.Statement (.uregionRel x1 x2) := fun h _ => decode_word (by simp) (by simp [decodeVupd, guardWf, freg?, mreg?, xreg?, h])
theorem RoundTrip.uquery x1 x2 : RoundTrip.Statement (.uquery x1 x2) := fun h _ => decode_word (by simp) (by simp [decodeVupd, guardWf, freg?, mreg?, xreg?, h])
theorem RoundTrip.gcsleep x1 x2 x3 x4 : RoundTrip.Statement (.gcsleep x1 x2 x3 x4) := fun h _ => decode_word (by simp) (by simp [decodeVsync, guardWf, freg?, mreg?, xreg?, h])
theorem RoundTrip.vdrain : RoundTrip.Statement (.vdrain) := fun h _ => decode_word (by simp) (by simp [decodeVsync, guardWf, freg?, mreg?, xreg?, h])
theorem RoundTrip.sload x1 x2 : RoundTrip.Statement (.sload x1 x2) := fun h _ => decode_word (by simp) (by simp [decodeTrellis, guardWf, freg?, mreg?, xreg?, h])
theorem RoundTrip.sarm x1 x2 x3 x4 : RoundTrip.Statement (.sarm x1 x2 x3 x4) := fun h _ => decode_word (by simp) (by simp [decodeTrellis, guardWf, freg?, mreg?, xreg?, h])
theorem RoundTrip.sport x1 x2 : RoundTrip.Statement (.sport x1 x2) := fun h _ => decode_word (by simp) (by simp [decodeTrellis, guardWf, freg?, mreg?, xreg?, h])
theorem RoundTrip.twload x1 x2 x3 : RoundTrip.Statement (.twload x1 x2 x3) := fun h _ => decode_word (by simp) (by simp [decodeTrellis, guardWf, freg?, mreg?, xreg?, h])
theorem RoundTrip.sgrow x1 x2 : RoundTrip.Statement (.sgrow x1 x2) := fun h _ => decode_word (by simp) (by simp [decodeTrellis, guardWf, freg?, mreg?, xreg?, h])
theorem RoundTrip.modcfg x1 : RoundTrip.Statement (.modcfg x1) := fun h _ => decode_word (by simp) (by simp [decodeTrellis, guardWf, freg?, mreg?, xreg?, h])
theorem RoundTrip.modchk x1 x2 x3 x4 : RoundTrip.Statement (.modchk x1 x2 x3 x4) := fun h _ => decode_word (by simp) (by simp [decodeTrellis, guardWf, freg?, mreg?, xreg?, h])
theorem RoundTrip.sstat x1 x2 : RoundTrip.Statement (.sstat x1 x2) := fun h _ => decode_word (by simp) (by simp [decodeTrellis, guardWf, freg?, mreg?, xreg?, h])
theorem RoundTrip.sabort x1 x2 : RoundTrip.Statement (.sabort x1 x2) := fun h _ => decode_word (by simp) (by simp [decodeTrellis, guardWf, freg?, mreg?, xreg?, h])
theorem RoundTrip.sfree : RoundTrip.Statement (.sfree) := fun h _ => decode_word (by simp) (by simp [decodeTrellis, guardWf, freg?, mreg?, xreg?, h])
theorem RoundTrip.mgrp x1 x2 : RoundTrip.Statement (.mgrp x1 x2) := fun h _ => decode_word (by simp) (by simp [decodeMatrix, guardWf, freg?, mreg?, xreg?, h])
theorem RoundTrip.mgrpRel : RoundTrip.Statement (.mgrpRel) := fun h _ => decode_word (by simp) (by simp [decodeMatrix, guardWf, freg?, mreg?, xreg?, h])
theorem RoundTrip.mwload x1 x2 : RoundTrip.Statement (.mwload x1 x2) := fun h _ => decode_word (by simp) (by simp [decodeMatrix, guardWf, freg?, mreg?, xreg?, h])
theorem RoundTrip.mma x1 x2 x3 x4 : RoundTrip.Statement (.mma x1 x2 x3 x4) := fun h _ => decode_word (by simp) (by simp [decodeMatrix, guardWf, freg?, mreg?, xreg?, h])
theorem RoundTrip.maccz x1 x2 : RoundTrip.Statement (.maccz x1 x2) := fun h _ => decode_word (by simp) (by simp [decodeMatrix, guardWf, freg?, mreg?, xreg?, h])
theorem RoundTrip.maccst x1 x2 x3 x4 : RoundTrip.Statement (.maccst x1 x2 x3 x4) := fun h _ => decode_word (by simp) (by simp [decodeMatrix, guardWf, freg?, mreg?, xreg?, h])
theorem RoundTrip.maccld x1 x2 x3 x4 : RoundTrip.Statement (.maccld x1 x2 x3 x4) := fun h _ => decode_word (by simp) (by simp [decodeMatrix, guardWf, freg?, mreg?, xreg?, h])
theorem RoundTrip.maload x1 x2 x3 x4 x5 x6 : RoundTrip.Statement (.maload x1 x2 x3 x4 x5 x6) := fun h _ => decode_word (by simp) (by simp [decodeMatrix, guardWf, freg?, mreg?, xreg?, h])
theorem RoundTrip.mstat x1 : RoundTrip.Statement (.mstat x1) := fun h _ => decode_word (by simp) (by simp [decodeMatrix, guardWf, freg?, mreg?, xreg?, h])
theorem RoundTrip.gload x1 x2 : RoundTrip.Statement (.gload x1 x2) := fun h _ => decode_word (by simp) (by simp [decodeGraph, guardWf, freg?, mreg?, xreg?, h])
theorem RoundTrip.grun x1 x2 x3 x4 : RoundTrip.Statement (.grun x1 x2 x3 x4) := fun h _ => decode_word (by simp) (by simp [decodeGraph, guardWf, freg?, mreg?, xreg?, h])
theorem RoundTrip.gstat x1 : RoundTrip.Statement (.gstat x1) := fun h _ => decode_word (by simp) (by simp [decodeGraph, guardWf, freg?, mreg?, xreg?, h])
theorem RoundTrip.gfree : RoundTrip.Statement (.gfree) := fun h _ => decode_word (by simp) (by simp [decodeGraph, guardWf, freg?, mreg?, xreg?, h])
theorem RoundTrip.rtcfg x1 x2 : RoundTrip.Statement (.rtcfg x1 x2) := fun h _ => decode_word (by simp) (by simp [decodeRoute, guardWf, freg?, mreg?, xreg?, h])
theorem RoundTrip.rtcfgRel x1 x2 : RoundTrip.Statement (.rtcfgRel x1 x2) := fun h _ => decode_word (by simp) (by simp [decodeRoute, guardWf, freg?, mreg?, xreg?, h])
theorem RoundTrip.rtupd x1 x2 x3 : RoundTrip.Statement (.rtupd x1 x2 x3) := fun h _ => decode_word (by simp) (by simp [decodeRoute, guardWf, freg?, mreg?, xreg?, h])
theorem RoundTrip.route x1 x2 x3 x4 : RoundTrip.Statement (.route x1 x2 x3 x4) := fun h _ => decode_word (by simp) (by simp [decodeRoute, guardWf, freg?, mreg?, xreg?, h])
theorem RoundTrip.recv x1 : RoundTrip.Statement (.recv x1) := fun h _ => decode_word (by simp) (by simp [decodeRoute, guardWf, freg?, mreg?, xreg?, h])
theorem RoundTrip.recvNb x1 : RoundTrip.Statement (.recvNb x1) := fun h _ => decode_word (by simp) (by simp [decodeRoute, guardWf, freg?, mreg?, xreg?, h])
theorem RoundTrip.rret x1 x2 x3 : RoundTrip.Statement (.rret x1 x2 x3) := fun h _ => decode_word (by simp) (by simp [decodeRoute, guardWf, freg?, mreg?, xreg?, h])
theorem RoundTrip.rretErr x1 x2 : RoundTrip.Statement (.rretErr x1 x2) := fun h _ => decode_word (by simp) (by simp [decodeRoute, guardWf, freg?, mreg?, xreg?, h])
theorem RoundTrip.rstat x1 x2 : RoundTrip.Statement (.rstat x1 x2) := fun h _ => decode_word (by simp) (by simp [decodeRoute, guardWf, freg?, mreg?, xreg?, h])
theorem RoundTrip.rstatLate x1 : RoundTrip.Statement (.rstatLate x1) := fun h _ => decode_word (by simp) (by simp [decodeRoute, guardWf, freg?, mreg?, xreg?, h])
theorem RoundTrip.rhot x1 x2 : RoundTrip.Statement (.rhot x1 x2) := fun h _ => decode_word (by simp) (by simp [decodeRoute, guardWf, freg?, mreg?, xreg?, h])
theorem RoundTrip.rscfg x1 x2 : RoundTrip.Statement (.rscfg x1 x2) := fun h _ => decode_word (by simp) (by simp [decodeRoute, guardWf, freg?, mreg?, xreg?, h])
theorem RoundTrip.rscfgInbox x1 x2 : RoundTrip.Statement (.rscfgInbox x1 x2) := fun h _ => decode_word (by simp) (by simp [decodeRoute, guardWf, freg?, mreg?, xreg?, h])
theorem RoundTrip.ccomm x1 x2 : RoundTrip.Statement (.ccomm x1 x2) := fun h _ => decode_word (by simp) (by simp [decodeColl, guardWf, freg?, mreg?, xreg?, h])
theorem RoundTrip.cfree x1 x2 : RoundTrip.Statement (.cfree x1 x2) := fun h _ => decode_word (by simp) (by simp [decodeColl, guardWf, freg?, mreg?, xreg?, h])
theorem RoundTrip.cbind x1 x2 x3 : RoundTrip.Statement (.cbind x1 x2 x3) := fun h _ => decode_word (by simp) (by simp [decodeColl, guardWf, freg?, mreg?, xreg?, h])
theorem RoundTrip.cunbind x1 x2 : RoundTrip.Statement (.cunbind x1 x2) := fun h _ => decode_word (by simp) (by simp [decodeColl, guardWf, freg?, mreg?, xreg?, h])
theorem RoundTrip.cstart x1 x2 x3 x4 : RoundTrip.Statement (.cstart x1 x2 x3 x4) := fun h _ => decode_word (by simp) (by simp [decodeColl, guardWf, freg?, mreg?, xreg?, h])
theorem RoundTrip.csend x1 x2 x3 : RoundTrip.Statement (.csend x1 x2 x3) := fun h _ => decode_word (by simp) (by simp [decodeColl, guardWf, freg?, mreg?, xreg?, h])
theorem RoundTrip.cfetch x1 x2 x3 : RoundTrip.Statement (.cfetch x1 x2 x3) := fun h _ => decode_word (by simp) (by simp [decodeColl, guardWf, freg?, mreg?, xreg?, h])
theorem RoundTrip.cstat x1 x2 : RoundTrip.Statement (.cstat x1 x2) := fun h _ => decode_word (by simp) (by simp [decodeColl, guardWf, freg?, mreg?, xreg?, h])
theorem RoundTrip.ccancel x1 x2 : RoundTrip.Statement (.ccancel x1 x2) := fun h _ => decode_word (by simp) (by simp [decodeColl, guardWf, freg?, mreg?, xreg?, h])
theorem RoundTrip.xcopy x1 x2 x3 x4 : RoundTrip.Statement (.xcopy x1 x2 x3 x4) := fun h _ => decode_word (by simp) (by simp [decodeCopy, guardWf, freg?, mreg?, xreg?, h])
theorem RoundTrip.xcopyt x1 x2 x3 x4 x5 : RoundTrip.Statement (.xcopyt x1 x2 x3 x4 x5) := fun h _ => decode_word (by simp) (by simp [decodeCopy, guardWf, freg?, mreg?, xreg?, h])
theorem RoundTrip.xdecode x1 x2 x3 x4 : RoundTrip.Statement (.xdecode x1 x2 x3 x4) := fun h _ => decode_word (by simp) (by simp [decodeCopy, guardWf, freg?, mreg?, xreg?, h])
theorem RoundTrip.xexport x1 x2 x3 x4 : RoundTrip.Statement (.xexport x1 x2 x3 x4) := fun h _ => decode_word (by simp) (by simp [decodeCopy, guardWf, freg?, mreg?, xreg?, h])
theorem RoundTrip.xfill x1 x2 x3 x4 : RoundTrip.Statement (.xfill x1 x2 x3 x4) := fun h _ => decode_word (by simp) (by simp [decodeCopy, guardWf, freg?, mreg?, xreg?, h])
theorem RoundTrip.xhost x1 x2 x3 x4 : RoundTrip.Statement (.xhost x1 x2 x3 x4) := fun h _ => decode_word (by simp) (by simp [decodeCopy, guardWf, freg?, mreg?, xreg?, h])
theorem RoundTrip.xhostToh x1 x2 x3 x4 : RoundTrip.Statement (.xhostToh x1 x2 x3 x4) := fun h _ => decode_word (by simp) (by simp [decodeCopy, guardWf, freg?, mreg?, xreg?, h])
theorem RoundTrip.xrootWrite x1 : RoundTrip.Statement (.xrootWrite x1) := fun _ h => nomatch h
theorem RoundTrip.fcsrAccess x1 : RoundTrip.Statement (.fcsrAccess x1) := fun _ h => nomatch h
theorem RoundTrip.tstatWrite x1 : RoundTrip.Statement (.tstatWrite x1) := fun _ h => nomatch h
theorem RoundTrip.rframeWrite x1 : RoundTrip.Statement (.rframeWrite x1) := fun _ h => nomatch h
theorem RoundTrip.vectorExecute x1 x2 : RoundTrip.Statement (.vectorExecute x1 x2) := fun _ h => nomatch h
theorem RoundTrip.walkRefill x1 x2 : RoundTrip.Statement (.walkRefill x1 x2) := fun _ h => nomatch h
theorem RoundTrip.slotBoundary x1 : RoundTrip.Statement (.slotBoundary x1) := fun _ h => nomatch h
theorem RoundTrip.admission x1 x2 : RoundTrip.Statement (.admission x1 x2) := fun _ h => nomatch h
theorem RoundTrip.eviction x1 : RoundTrip.Statement (.eviction x1) := fun _ h => nomatch h
theorem RoundTrip.consumerEviction x1 : RoundTrip.Statement (.consumerEviction x1) := fun _ h => nomatch h
theorem RoundTrip.resumption x1 : RoundTrip.Statement (.resumption x1) := fun _ h => nomatch h
theorem RoundTrip.retirement x1 : RoundTrip.Statement (.retirement x1) := fun _ h => nomatch h
theorem RoundTrip.waittlWake x1 : RoundTrip.Statement (.waittlWake x1) := fun _ h => nomatch h
theorem RoundTrip.sleepWake x1 : RoundTrip.Statement (.sleepWake x1) := fun _ h => nomatch h
theorem RoundTrip.sleepTimeout x1 : RoundTrip.Statement (.sleepTimeout x1) := fun _ h => nomatch h
theorem RoundTrip.barrierWake x1 : RoundTrip.Statement (.barrierWake x1) := fun _ h => nomatch h
theorem RoundTrip.acwaitWake x1 : RoundTrip.Statement (.acwaitWake x1) := fun _ h => nomatch h
theorem RoundTrip.gcsleepWake x1 : RoundTrip.Statement (.gcsleepWake x1) := fun _ h => nomatch h
theorem RoundTrip.qdrainRelease x1 : RoundTrip.Statement (.qdrainRelease x1) := fun _ h => nomatch h
theorem RoundTrip.vldwRelease x1 : RoundTrip.Statement (.vldwRelease x1) := fun _ h => nomatch h
theorem RoundTrip.consumingLoadWake x1 : RoundTrip.Statement (.consumingLoadWake x1) := fun _ h => nomatch h
theorem RoundTrip.recvWake x1 : RoundTrip.Statement (.recvWake x1) := fun _ h => nomatch h
theorem RoundTrip.vstwmComplete x1 : RoundTrip.Statement (.vstwmComplete x1) := fun _ h => nomatch h
theorem RoundTrip.copyComplete x1 x2 x3 : RoundTrip.Statement (.copyComplete x1 x2 x3) := fun _ h => nomatch h
theorem RoundTrip.sloadInstall x1 : RoundTrip.Statement (.sloadInstall x1) := fun _ h => nomatch h
theorem RoundTrip.twloadApply x1 : RoundTrip.Statement (.twloadApply x1) := fun _ h => nomatch h
theorem RoundTrip.modcfgApply x1 : RoundTrip.Statement (.modcfgApply x1) := fun _ h => nomatch h
theorem RoundTrip.nodeFire x1 x2 x3 x4 : RoundTrip.Statement (.nodeFire x1 x2 x3 x4) := fun _ h => nomatch h
theorem RoundTrip.inputPortFeRead x1 x2 x3 x4 x5 : RoundTrip.Statement (.inputPortFeRead x1 x2 x3 x4 x5) := fun _ h => nomatch h
theorem RoundTrip.sectionRunComplete x1 x2 x3 : RoundTrip.Statement (.sectionRunComplete x1 x2 x3) := fun _ h => nomatch h
theorem RoundTrip.matrixGroupStart x1 : RoundTrip.Statement (.matrixGroupStart x1) := fun _ h => nomatch h
theorem RoundTrip.matrixOpComplete x1 x2 x3 : RoundTrip.Statement (.matrixOpComplete x1 x2 x3) := fun _ h => nomatch h
theorem RoundTrip.mgrpReleaseDone x1 : RoundTrip.Statement (.mgrpReleaseDone x1) := fun _ h => nomatch h
theorem RoundTrip.gloadInstall x1 : RoundTrip.Statement (.gloadInstall x1) := fun _ h => nomatch h
theorem RoundTrip.graphRunComplete x1 x2 x3 x4 : RoundTrip.Statement (.graphRunComplete x1 x2 x3 x4) := fun _ h => nomatch h
theorem RoundTrip.fabricRelease x1 : RoundTrip.Statement (.fabricRelease x1) := fun _ h => nomatch h
theorem RoundTrip.graphRelease x1 : RoundTrip.Statement (.graphRelease x1) := fun _ h => nomatch h
theorem RoundTrip.pressAccept x1 x2 x3 x4 : RoundTrip.Statement (.pressAccept x1 x2 x3 x4) := fun _ h => nomatch h
theorem RoundTrip.eagerApply x1 x2 : RoundTrip.Statement (.eagerApply x1 x2) := fun _ h => nomatch h
theorem RoundTrip.updComplete x1 x2 x3 : RoundTrip.Statement (.updComplete x1 x2 x3) := fun _ h => nomatch h
theorem RoundTrip.uflushComplete x1 x2 x3 : RoundTrip.Statement (.uflushComplete x1 x2 x3) := fun _ h => nomatch h
theorem RoundTrip.regionReleaseApply x1 : RoundTrip.Statement (.regionReleaseApply x1) := fun _ h => nomatch h
theorem RoundTrip.routePlacement x1 x2 x3 : RoundTrip.Statement (.routePlacement x1 x2 x3) := fun _ h => nomatch h
theorem RoundTrip.routeWaitDelivery x1 x2 x3 : RoundTrip.Statement (.routeWaitDelivery x1 x2 x3) := fun _ h => nomatch h
theorem RoundTrip.returnApply x1 x2 x3 : RoundTrip.Statement (.returnApply x1 x2 x3) := fun _ h => nomatch h
theorem RoundTrip.routeTimeout x1 x2 : RoundTrip.Statement (.routeTimeout x1 x2) := fun _ h => nomatch h
theorem RoundTrip.routeComplete x1 x2 : RoundTrip.Statement (.routeComplete x1 x2) := fun _ h => nomatch h
theorem RoundTrip.communicatorJoin x1 x2 : RoundTrip.Statement (.communicatorJoin x1 x2) := fun _ h => nomatch h
theorem RoundTrip.chunkSend x1 : RoundTrip.Statement (.chunkSend x1) := fun _ h => nomatch h
theorem RoundTrip.chunkArrival x1 x2 : RoundTrip.Statement (.chunkArrival x1 x2) := fun _ h => nomatch h
theorem RoundTrip.tileLand x1 x2 x3 x4 : RoundTrip.Statement (.tileLand x1 x2 x3 x4) := fun _ h => nomatch h
theorem RoundTrip.cstartComplete x1 x2 x3 : RoundTrip.Statement (.cstartComplete x1 x2 x3) := fun _ h => nomatch h
theorem RoundTrip.streamPieceDeliver x1 x2 : RoundTrip.Statement (.streamPieceDeliver x1 x2) := fun _ h => nomatch h
theorem RoundTrip.cfreeWithdraw x1 : RoundTrip.Statement (.cfreeWithdraw x1) := fun _ h => nomatch h
theorem RoundTrip.cunbindClose x1 : RoundTrip.Statement (.cunbindClose x1) := fun _ h => nomatch h
theorem RoundTrip.thermalThrottle : RoundTrip.Statement (.thermalThrottle) := fun _ h => nomatch h
theorem RoundTrip.workPacing x1 : RoundTrip.Statement (.workPacing x1) := fun _ h => nomatch h
theorem RoundTrip.thermalShutdown : RoundTrip.Statement (.thermalShutdown) := fun _ h => nomatch h
theorem RoundTrip.packageReset x1 x2 x3 : RoundTrip.Statement (.packageReset x1 x2 x3) := fun _ h => nomatch h
theorem RoundTrip.ownerRelease : RoundTrip.Statement (.ownerRelease) := fun _ h => nomatch h
theorem RoundTrip.patrolScrub : RoundTrip.Statement (.patrolScrub) := fun _ h => nomatch h
theorem RoundTrip.flitReplay x1 : RoundTrip.Statement (.flitReplay x1) := fun _ h => nomatch h
theorem RoundTrip.laneLoss x1 : RoundTrip.Statement (.laneLoss x1) := fun _ h => nomatch h
theorem RoundTrip.troiqueMessage x1 : RoundTrip.Statement (.troiqueMessage x1) := fun _ h => nomatch h
theorem RoundTrip.messageFail x1 x2 : RoundTrip.Statement (.messageFail x1 x2) := fun _ h => nomatch h
theorem RoundTrip.ethernetFrameDrop x1 : RoundTrip.Statement (.ethernetFrameDrop x1) := fun _ h => nomatch h
theorem RoundTrip.rdmaWrite x1 x2 x3 : RoundTrip.Statement (.rdmaWrite x1 x2 x3) := fun _ h => nomatch h
theorem RoundTrip.rdmaRead x1 x2 x3 : RoundTrip.Statement (.rdmaRead x1 x2 x3) := fun _ h => nomatch h
theorem RoundTrip.launchCommand x1 x2 x3 : RoundTrip.Statement (.launchCommand x1 x2 x3) := fun _ h => nomatch h
theorem RoundTrip.cancel x1 x2 : RoundTrip.Statement (.cancel x1 x2) := fun _ h => nomatch h
theorem RoundTrip.query x1 : RoundTrip.Statement (.query x1) := fun _ h => nomatch h
theorem RoundTrip.mapwin x1 x2 x3 x4 x5 x6 x7 : RoundTrip.Statement (.mapwin x1 x2 x3 x4 x5 x6 x7) := fun _ h => nomatch h
theorem RoundTrip.unmapwin x1 x2 : RoundTrip.Statement (.unmapwin x1 x2) := fun _ h => nomatch h
theorem RoundTrip.region x1 x2 x3 x4 x5 x6 x7 : RoundTrip.Statement (.region x1 x2 x3 x4 x5 x6 x7) := fun _ h => nomatch h
theorem RoundTrip.unregion x1 x2 : RoundTrip.Statement (.unregion x1 x2) := fun _ h => nomatch h
theorem RoundTrip.modeget x1 : RoundTrip.Statement (.modeget x1) := fun _ h => nomatch h
theorem RoundTrip.modeset x1 x2 : RoundTrip.Statement (.modeset x1 x2) := fun _ h => nomatch h
theorem RoundTrip.attest x1 x2 : RoundTrip.Statement (.attest x1 x2) := fun _ h => nomatch h
theorem RoundTrip.fwupdate x1 x2 x3 x4 x5 : RoundTrip.Statement (.fwupdate x1 x2 x3 x4 x5) := fun _ h => nomatch h
theorem RoundTrip.post x1 x2 x3 x4 : RoundTrip.Statement (.post x1 x2 x3 x4) := fun _ h => nomatch h
theorem RoundTrip.ack x1 x2 : RoundTrip.Statement (.ack x1 x2) := fun _ h => nomatch h
theorem RoundTrip.completeResend : RoundTrip.Statement (.completeResend) := fun _ h => nomatch h
theorem RoundTrip.illegalInstruction x1 : RoundTrip.Statement (.illegalInstruction x1) := fun _ h => nomatch h
theorem RoundTrip.instructionFetchFault x1 x2 : RoundTrip.Statement (.instructionFetchFault x1 x2) := fun _ h => nomatch h
theorem RoundTrip.verifierCiphertext x1 x2 x3 : RoundTrip.Statement (.verifierCiphertext x1 x2 x3) := fun _ h => nomatch h
theorem RoundTrip.unknownOpcode x1 x2 : RoundTrip.Statement (.unknownOpcode x1 x2) := fun _ h => nomatch h

end Sys2Proof.Laws
end

