-- ==== Sys2Proof/Laws/Vector.lean ====
section
/-! SUPPORT. What writing elements of vector registers does, what noting flags does, and what a computation that finds its queue empty does. -/
namespace Sys2Proof.Machine
set_option Elab.async false
set_option exponentiation.threshold 5000

theorem putBits_split (x lo w v : Nat) : putBits x lo w v = 2 ^ lo * (2 ^ w * (x / 2 ^ lo / 2 ^ w) + v % 2 ^ w) + x % 2 ^ lo := by
  unfold putBits
  have h1 := Nat.div_add_mod x (2 ^ lo)
  have h2 := Nat.div_add_mod (x / 2 ^ lo) (2 ^ w)
  generalize hq : x / 2 ^ lo = q at *
  generalize hm : q % 2 ^ w = m at *
  generalize hh : q / 2 ^ w = h at *
  have h3 : x = 2 ^ lo * (2 ^ w * h) + 2 ^ lo * m + x % 2 ^ lo := by rw [← Nat.mul_add, h2]; exact h1.symm
  have h4 : m * 2 ^ lo = 2 ^ lo * m := Nat.mul_comm _ _
  have h5 : v % 2 ^ w * 2 ^ lo = 2 ^ lo * (v % 2 ^ w) := Nat.mul_comm _ _
  rw [h4, h5, Nat.mul_add]
  omega

/-- Bit j of a number with a field replaced. -/
theorem putBits_testBit (x lo w v j : Nat) :
    (putBits x lo w v).testBit j = if lo ≤ j ∧ j < lo + w then v.testBit (j - lo) else x.testBit j := by
  rw [putBits_split, Nat.testBit_two_pow_mul_add _ (Nat.mod_lt _ (Nat.two_pow_pos _))]
  split
  · rw [if_neg (by omega), Nat.testBit_mod_two_pow]; simp [*]
  · rw [Nat.testBit_two_pow_mul_add _ (Nat.mod_lt _ (Nat.two_pow_pos _))]
    split
    · rw [if_pos (by omega), Nat.testBit_mod_two_pow]; simp [*]
    · rw [if_neg (by omega), Nat.testBit_div_two_pow, Nat.testBit_div_two_pow]; congr 1; omega

theorem putBits_lt {x lo w v n : Nat} (hx : x < 2 ^ n) (hw : lo + w ≤ n) : putBits x lo w v < 2 ^ n := by
  apply Nat.lt_pow_two_of_testBit
  intro i hi
  rw [putBits_testBit, if_neg (by omega)]
  exact Nat.testBit_lt_two_pow (Nat.lt_of_lt_of_le hx (Nat.pow_le_pow_right (by decide) hi))

@[simp] theorem Plane.vreg_setVreg (p : Plane) (r : Nat) (v : VRegVal) (k : Nat) :
    (p.setVreg r v).vreg k = if k % 64 = r % 64 then v else p.vreg k := by
  simp only [Plane.setVreg, Plane.vreg]
  show (p.v.set (r % 64) v _)[k % 64] = _
  rw [Vector.getElem_set]
  by_cases h : r % 64 = k % 64 <;> simp [h, eq_comm] <;> rfl

/-- The width of a tag with elements, and its elements in a register. -/
theorem elemsOf_mul {w : Nat} (h : w ∈ [4, 8, 16, 32, 64]) : elemsOf w * w = 4096 ∧ 0 < w ∧ 0 < elemsOf w := by
  simp only [List.mem_cons, List.not_mem_nil, or_false] at h
  rcases h with rfl | rfl | rfl | rfl | rfl <;> decide

/-- An element written: that element takes the value, every other element of the group keeps its own. -/
theorem Plane.elem_setElem (p : Plane) (r w i v j : Nat) (hw : w ∈ [4, 8, 16, 32, 64]) (hi : r + i / elemsOf w < 64) (hj : r + j / elemsOf w < 64) :
    (p.setElem r w i v).elem r w j = if j = i then v % 2 ^ w else p.elem r w j := by
  obtain ⟨hm, hw0, hp⟩ := elemsOf_mul hw
  generalize hper : elemsOf w = per at *
  have key : ∀ k, k < per → k * w + w ≤ 4096 := fun k hk => by
    have := Nat.mul_le_mul_right w (Nat.succ_le_of_lt hk); rw [hm, Nat.succ_mul] at this; exact this
  unfold Plane.setElem Plane.elem
  simp only [hper, Plane.vreg_setVreg]
  by_cases hq : j / per = i / per
  · rw [if_pos (by rw [hq])]
    have hlt : putBits (p.vreg (r + i / per)).data.toNat (i % per * w) w v < 2 ^ 4096 :=
      putBits_lt (BitVec.isLt _) (key _ (Nat.mod_lt _ hp))
    simp only [BitVec.toNat_ofNat, Nat.mod_eq_of_lt hlt]
    apply Nat.eq_of_testBit_eq
    intro b
    rw [Nat.testBit_mod_two_pow, Nat.testBit_div_two_pow, putBits_testBit]
    by_cases hji : j = i
    · subst hji
      rw [if_pos rfl, Nat.testBit_mod_two_pow]
      by_cases hb : b < w
      · simp only [hb, decide_true, Bool.true_and]; rw [if_pos (by omega)]; congr 1; omega
      · simp [hb]
    · rw [if_neg hji]
      have hne : j % per ≠ i % per := fun h => hji (by rw [← Nat.div_add_mod j per, ← Nat.div_add_mod i per, hq, h])
      rw [Nat.testBit_mod_two_pow, Nat.testBit_div_two_pow]
      by_cases hb : b < w
      · simp only [hb, decide_true, Bool.true_and]
        rw [if_neg, hq]
        rintro ⟨h1, h2⟩
        rcases Nat.lt_or_gt_of_ne hne with h | h
        · have := Nat.mul_le_mul_right w (Nat.succ_le_of_lt h); rw [Nat.succ_mul] at this; omega
        · have := Nat.mul_le_mul_right w (Nat.succ_le_of_lt h); rw [Nat.succ_mul] at this; omega
      · simp [hb]
  · rw [if_neg (by rw [Nat.mod_eq_of_lt hi, Nat.mod_eq_of_lt hj]; omega)]
    have hji : j ≠ i := fun h => hq (by rw [h])
    rw [if_neg hji]

theorem Plane.vreg_setElem (p : Plane) (r w i v k : Nat) :
    ((p.setElem r w i v).vreg k).tag = (p.vreg k).tag ∧ ((p.setElem r w i v).vreg k).side = (p.vreg k).side ∧
    (k % 64 ≠ (r + i / elemsOf w) % 64 → (p.setElem r w i v).vreg k = p.vreg k) := by
  unfold Plane.setElem
  simp only [Plane.vreg_setVreg]
  split
  · rename_i h
    have : p.vreg k = p.vreg (r + i / elemsOf w) := by unfold Plane.vreg; simp only [h]
    exact ⟨by rw [this], by rw [this], fun h' => absurd h h'⟩
  · exact ⟨rfl, rfl, fun _ => rfl⟩

theorem Plane.setTags_vreg (p : Plane) (r : Nat) (t : Tag) (n k : Nat) (hn : r + n ≤ 64) (hk : k < 64) :
    (p.setTags r t n).vreg k = if r ≤ k ∧ k < r + n then ⟨(p.vreg k).data, sideOf t (p.vreg k).side, t⟩ else p.vreg k := by
  induction n with
  | zero => rw [if_neg (by omega)]; rfl
  | succ n ih =>
    have ih := ih (by omega)
    simp only [Plane.setTags, Plane.vreg_setVreg]
    rw [Nat.mod_eq_of_lt hk, Nat.mod_eq_of_lt (show r + n < 64 by omega)]
    by_cases h : k = r + n
    · subst h
      have e : (p.setTags r t n).vreg (r + n) = p.vreg (r + n) := by rw [ih, if_neg (fun h => by omega)]
      rw [if_pos rfl, if_pos (show r ≤ r + n ∧ r + n < r + (n + 1) by omega), e]
    · rw [if_neg h, ih]
      by_cases h2 : r ≤ k ∧ k < r + n
      · rw [if_pos h2, if_pos (show r ≤ k ∧ k < r + (n + 1) by omega)]
      · rw [if_neg h2, if_neg (show ¬ (r ≤ k ∧ k < r + (n + 1)) by omega)]

theorem Plane.elem_of_data {p q : Plane} {r w i : Nat} (h : (p.vreg (r + i / elemsOf w)).data = (q.vreg (r + i / elemsOf w)).data) :
    p.elem r w i = q.elem r w i := by unfold Plane.elem; rw [h]

/-- What a change of elements of the group of n registers from r leaves: all but those elements. -/
structure ElemsOnly (p q : Plane) (r n w : Nat) (el : Nat → Option Nat) : Prop where
  elem : ∀ j, j < n * elemsOf w → q.elem r w j = (el j).getD (p.elem r w j)
  meta' : ∀ k, (q.vreg k).tag = (p.vreg k).tag ∧ (q.vreg k).side = (p.vreg k).side
  out : ∀ k, k < 64 → k < r ∨ r + n ≤ k → q.vreg k = p.vreg k
  rest : { q with v := p.v } = p

theorem ElemsOnly.refl (p : Plane) (r n w : Nat) : ElemsOnly p p r n w (fun _ => none) := ⟨fun _ _ => rfl, fun _ => ⟨rfl, rfl⟩, fun _ _ _ => rfl, rfl⟩

theorem ElemsOnly.congr {p q : Plane} {r n w : Nat} {f g : Nat → Option Nat} (h : ElemsOnly p q r n w f) (e : ∀ j, j < n * elemsOf w → f j = g j) :
    ElemsOnly p q r n w g := ⟨fun j hj => by rw [h.elem j hj, e j hj], h.meta', h.out, h.rest⟩

theorem ElemsOnly.set {p q : Plane} {r n w : Nat} {el : Nat → Option Nat} (h : ElemsOnly p q r n w el) (hw : w ∈ [4, 8, 16, 32, 64]) (hn : r + n ≤ 64)
    {i : Nat} (hi : i < n * elemsOf w) (v : Nat) :
    ElemsOnly p (q.setElem r w i v) r n w (fun j => if j = i then some (v % 2 ^ w) else el j) := by
  have hp := (elemsOf_mul hw).2.2
  have lt : ∀ j, j < n * elemsOf w → r + j / elemsOf w < r + n := fun j hj => by
    have := (Nat.div_lt_iff_lt_mul hp).2 hj; omega
  refine ⟨fun j hj => ?_, fun k => ?_, fun k hk ho => ?_, ?_⟩
  · have := lt j hj; have := lt i hi
    rw [Plane.elem_setElem q r w i v j hw (by omega) (by omega), h.elem j hj]
    by_cases e : j = i <;> simp [e]
  · have := q.vreg_setElem r w i v k; have hm := h.meta' k
    exact ⟨by rw [this.1, hm.1], by rw [this.2.1, hm.2]⟩
  · have := lt i hi
    have h1 : r ≤ r + i / elemsOf w := Nat.le_add_right _ _
    rw [(q.vreg_setElem r w i v k).2.2 (by rw [Nat.mod_eq_of_lt hk, Nat.mod_eq_of_lt (by omega)]; omega), h.out k hk ho]
  · have := h.rest
    rw [← this]; rfl

/-- Elements written one after the other from values that do not depend on what was written. -/
theorem ElemsOnly.fold {r n w : Nat} (hw : w ∈ [4, 8, 16, 32, 64]) (hn : r + n ≤ 64) (val : Nat → Nat) (act : Nat → Bool) (L : List Nat)
    (hL : ∀ i ∈ L, i < n * elemsOf w) (p q : Plane) (el : Nat → Option Nat) (h : ElemsOnly p q r n w el) :
    ElemsOnly p (L.foldl (fun q i => if act i then q.setElem r w i (val i) else q) q) r n w
      (fun j => if j ∈ L ∧ act j = true then some (val j % 2 ^ w) else el j) := by
  induction L generalizing q el with
  | nil => exact h.congr fun j _ => by simp
  | cons i L ih =>
    simp only [List.foldl_cons]
    by_cases ha : act i = true
    · rw [if_pos ha]
      refine (ih (fun k hk => hL k (List.mem_cons_of_mem _ hk)) _ _ (h.set hw hn (hL i List.mem_cons_self) (val i))).congr fun j _ => ?_
      by_cases e : j = i
      · subst e; simp [ha]
      · simp [e]
    · rw [if_neg ha]
      refine (ih (fun k hk => hL k (List.mem_cons_of_mem _ hk)) _ _ h).congr fun j _ => ?_
      by_cases e : j = i
      · subst e; simp [ha]
      · simp [e]

/-! ### Flags and their lowest indices -/

theorem First.note_get (f : First) (fl : Flags) (i k : Nat) (hk : k < 8) :
    (f.note fl i)[k] = if fl.getLsbD k then (match f[k] with | some j => some (min j i) | none => some i) else f[k] := by
  unfold First.note
  split
  · rename_i h; subst h; simp
  · rw [Vector.getElem_mapIdx]
    all_goals split <;> first | rfl | (cases f[k] <;> rfl)

/-- The lowest index of a list at which flag k arises. -/
def lowest (fl : Nat → Flags) (k : Nat) : List Nat → Option Nat → Option Nat
  | [], o => o
  | i :: L, o => lowest fl k L (if (fl i).getLsbD k then (match o with | some j => some (min j i) | none => some i) else o)

theorem First.fold_get (fl : Nat → Flags) (act : Nat → Bool) (L : List Nat) (f : First) (k : Nat) (hk : k < 8) :
    (L.foldl (fun f i => if act i then f.note (fl i) i else f) f)[k] = lowest fl k (L.filter act) f[k] := by
  induction L generalizing f with
  | nil => rfl
  | cons i L ih =>
    simp only [List.foldl_cons, List.filter_cons]
    rw [ih]
    by_cases h : act i = true
    · simp only [h, if_true, lowest, First.note_get f (fl i) i k hk]
    · simp only [h]; rfl

theorem lowest_spec (fl : Nat → Flags) (k : Nat) (L : List Nat) (o : Option Nat) :
    match lowest fl k L o with
    | none => o = none ∧ ∀ i ∈ L, (fl i).getLsbD k = false
    | some j => (o = some j ∨ (j ∈ L ∧ (fl j).getLsbD k = true)) ∧ (∀ a, o = some a → j ≤ a) ∧ ∀ i ∈ L, (fl i).getLsbD k = true → j ≤ i := by
  induction L generalizing o with
  | nil => cases o <;> simp [lowest]
  | cons i L ih =>
    simp only [lowest]
    by_cases h : (fl i).getLsbD k = true
    · simp only [h, if_true]
      cases o with
      | none =>
        have := ih (some i)
        revert this
        cases lowest fl k L (some i) with
        | none => simp
        | some j => simp only [Option.some.injEq]; grind
      | some a =>
        have := ih (some (min a i))
        revert this
        cases lowest fl k L (some (min a i)) with
        | none => simp
        | some j => simp only [Option.some.injEq]; grind
    · rw [if_neg h]
      have := ih o
      revert this
      cases lowest fl k L o with
      | none => simp only [List.mem_cons]; grind
      | some j => simp only [List.mem_cons]; grind

theorem Plane.boundTo_nil {p : Plane} (h : ∀ k : Nat, (p.streams[k]?).join = none) (gs : List (Nat × Nat)) : p.boundTo gs = [] := by
  unfold Plane.boundTo
  apply List.filterMap_eq_nil_iff.2
  intro k _
  simp [h k]

theorem Plane.consumedView_free {p : Plane} (h : ∀ k : Nat, (p.streams[k]?).join = none) (e : VEntry) (tv : TagView) : p.consumedView e tv = tv := by
  funext r
  unfold Plane.consumedView
  rw [Plane.boundTo_nil h]; rfl

theorem State.consume_free {s : State} (h : ∀ k : Nat, (s.me.streams[k]?).join = none) (e : VEntry) (tv : TagView) : s.consume e tv = some s := by
  unfold State.consume
  generalize List.range 16 = L
  induction L with
  | nil => rfl
  | cons k L ih =>
    simp only [List.foldl_cons, Option.bind_some, h k]
    exact ih

theorem State.contribute_free {s : State} (h : ∀ k : Nat, (s.me.streams[k]?).join = none) (e : VEntry) (dst : List (Nat × Nat × Tag)) : s.contribute e dst = s := by
  unfold State.contribute
  generalize List.range 16 = L
  induction L with
  | nil => rfl
  | cons k L ih =>
    simp only [List.foldl_cons, h k]
    exact ih

theorem State.streamsOk_free {s : State} (h : ∀ k : Nat, (s.me.streams[k]?).join = none) (e : VEntry) (tv : TagView) (dst : List (Nat × Nat × Tag)) :
    s.streamsOk e tv dst = true := by
  unfold State.streamsOk
  apply List.all_eq_true.2
  intro k _
  simp [h k]

/-- The tags of a plane's registers. -/
def Plane.tagView (p : Plane) : TagView := fun r => (p.vreg r).tag

theorem State.frontTags_empty {s : State} (h : s.me.vq = []) : s.frontTags = s.me.tagView := by
  unfold State.frontTags; rw [h]; rfl

/-- A computation entry. -/
def VEntry.computes (e : VEntry) : Prop := e.major ∈ [0x21, 0x22, 0x23, 0x24, 0x25, 0x26]

/-- A plan whose checks hold is the plan as it was made. -/
theorem VPlan.settle_ok {pl : VPlan} {b : Bool} (h : (pl.settle b).chk = .ok) : pl.settle b = pl := by
  unfold VPlan.settle at *
  split
  · rename_i hc; rw [if_pos hc] at h; cases h
  · rfl

theorem State.vplan_compute {s : State} (hs : ∀ k : Nat, (s.me.streams[k]?).join = none) {e : VEntry} (he : e.computes) (fresh : Bool) (tv : TagView) :
    s.vplan fresh e tv = (planCompute e tv).settle false := by
  unfold State.vplan
  simp only [Plane.consumedView_free hs, Plane.boundTo_nil hs]
  unfold VEntry.computes at he
  simp only [List.mem_cons, List.not_mem_nil, or_false] at he
  rcases he with h | h | h | h | h | h <;> simp [h]

/-- The plane in which a vector instruction that has just been queued is executed. -/
def Plane.queued (p : Plane) (e : VEntry) (len : Nat) : Plane :=
  { p with vq := p.vq ++ [e], qnext := p.qnext + 1, pc := p.pc + BitVec.ofNat 64 len, wait := none, st := p.awake }

/-- The plane after a computation whose result and lowest flag indices are r. -/
def Plane.computed (e : VEntry) (r : Plane × First) : Plane :=
  { r.1.orFlags r.2.flags with
    fex0 := if e.writesFex then r.2.fex0 else r.1.fex0
    fex1 := if e.writesFex then r.2.fex1 else r.1.fex1
    held := r.1.heldBut e.qpos
    vq := [] }

/-- A state with another supply of free values. -/
def State.withFree (s : State) (n : Nat) : State := { s with free := n }
theorem State.me_withFree (s : State) (n : Nat) : (s.withFree n).me = s.me := rfl
theorem State.modMe_withFree (s : State) (n : Nat) (f : Plane → Plane) : (s.withFree n).modMe f = (s.modMe f).withFree n := rfl

/-- The plane before the entry leaves the queue. -/
def Plane.computing (e : VEntry) (r : Plane × First) : Plane :=
  { r.1.orFlags r.2.flags with
    fex0 := if e.writesFex then r.2.fex0 else r.1.fex0
    fex1 := if e.writesFex then r.2.fex1 else r.1.fex1 }

theorem popQueue_computing {s : State} {e : VEntry} {r : Plane × First} (h : s.me = Plane.computing e r) (hv : r.1.vq = [e])
    (hs : ∀ k : Nat, (r.1.streams[k]?).join = none) : s.popQueue = s.modMe fun _ => Plane.computed e r := by
  have hs0 : ∀ (b : Nat → Bool) (v : Vector (Option Stream) 16), v = r.1.streams →
      (v.mapIdx fun k => keptStream (b k)) = v := by
    rintro b v rfl
    ext k hk
    have := hs k
    simp only [Vector.getElem?_eq_getElem hk, Option.join_some] at this
    simp [this, keptStream]
  unfold State.popQueue State.modMe State.modPlane
  congr 1
  show _ = Plane.computed e r
  have h' : s.plane s.cur = Plane.computing e r := h
  rw [h']
  show ({ Plane.computing e r with
    vq := r.1.vq.tail, held := match r.1.vq with | e :: _ => _ | [] => _, streams := if r.1.vq.tail.isEmpty then _ else _ } : Plane) = _
  rw [hv]
  simp only [List.tail_cons, List.isEmpty_nil, if_true]
  rw [hs0 _ (Plane.computing e r).streams rfl]
  rfl

theorem en_orFlags (p : Plane) (fl : Flags) : (p.orFlags fl).en = p.en := by
  unfold Plane.en Plane.orFlags
  ext i hi
  simp only [BitVec.getElem_extractLsb', BitVec.getLsbD_or, BitVec.getLsbD_shiftLeft, BitVec.getLsbD_setWidth]
  have : fl.getLsbD (16 + i - 8) = false := BitVec.getLsbD_of_ge _ _ (by omega)
  simp [this]

/-- A computation that finds its queue empty and its checks passed runs at once. -/
theorem vissue_compute {s : State} (hs : s.vecReady) (w : IWord) (pfx : Option (BitVec 26)) (len : Nat)
    (hc : (s.entryOf w pfx).computes) (hok : ((planCompute (s.entryOf w pfx) s.me.tagView).settle false).chk = .ok)
    (hr : (planCompute (s.entryOf w pfx) s.me.tagView).rounds = true → (dynMode? s.me.rm).isSome) 
    (r : Plane × First)
    (hrun : r = (let e := s.entryOf w pfx
      let p1 := s.me.queued e len
      runCompute e (p1.vreg e.va).tag (p1.vreg e.vd).tag (e.whole false) s.free 0 (e.total p1) p1 First.empty))
    (hrest : r.1.vq = [s.entryOf w pfx] ∧ r.1.streams = s.me.streams ∧ r.1.fcsr = s.me.fcsr) :
    s.vissue w pfx len = (s.modMe fun _ => Plane.computed (s.entryOf w pfx) r).withFree (s.free + 1) := by
  obtain ⟨h1, h2, h3, h4⟩ := hs
  generalize he : s.entryOf w pfx = e at *
  have hset := VPlan.settle_ok hok
  rw [hset] at hok
  have hem : e.rm = s.me.rm := by rw [← he]; rfl
  have hst : e.stags = none := by rw [← he]; rfl
  have hprog : e.prog = 0 := by rw [← he]; rfl
  have hmaj : e.major ≠ 0x29 := by unfold VEntry.computes at hc; intro h; simp [h] at hc
  have hts : s.takeSeq e = (s, e) := by unfold State.takeSeq; rw [if_neg]; simp [hmaj]
  unfold State.vissue
  rw [he]
  simp only
  unfold State.vcheck
  simp only [State.frontTags_empty h2, State.vplan_compute h4 hc, hset, hok, State.streamsOk_free h4, Bool.not_true, if_false, Bool.false_eq_true]
  rw [if_neg (by
    rw [hem, Bool.and_eq_true]
    rintro ⟨a, b⟩
    have := hr a
    cases hd : dynMode? s.me.rm <;> simp_all)]
  rw [if_neg (by rw [h2]; decide), hts]
  simp only
  let s1 : State := s.modMe fun p => p.queued e len
  have e1 : (s.modMe fun p => { p with vq := p.vq ++ [e], qnext := p.qnext + 1 }).advance len = s1 := modMe_modMe s _ _
  rw [e1]
  have hme : s1.me = s.me.queued e len := State.me_modMe s _
  have hvq : s1.me.vq = [e] := by rw [hme]; simp [Plane.queued, h2]
  have hs1 : ∀ k : Nat, (s1.me.streams[k]?).join = none := by rw [hme]; exact h4
  have htv : s1.headView e = s.me.tagView := by
    unfold State.headView State.entryView; rw [hst]; simp only; rw [hme]; rfl
  have hrf : e.refresh s.me.tagView = e := by unfold VEntry.refresh; rw [hst]; rfl
  have hqd : e.queued = true := by
    unfold VEntry.computes at hc
    simp only [List.mem_cons, List.not_mem_nil, or_false] at hc
    unfold VEntry.queued
    rcases hc with h | h | h | h | h | h <;> simp [h]
  unfold State.keepUp
  rw [show s1.vlag = s.vlag from rfl, h1]
  simp only [Bool.false_eq_true, if_false]
  have hturn : s1.vturn 0 = .went ((s.modMe fun _ => Plane.computed e r).withFree (s.free + 1)) := by
    unfold State.vturn
    rw [hvq]
    simp only [htv, hrf, State.vplan_compute hs1 hc, hset, hok, hqd]
    rw [State.consume_free hs1]
    simp only [bne_self_eq_false, Bool.not_true, Bool.or_self, Bool.false_eq_true, if_false]
    have hne : e.major ≠ 39 ∧ e.major ≠ 40 ∧ e.major ≠ 41 ∧ e.major ≠ 42 := by
      unfold VEntry.computes at hc
      simp only [List.mem_cons, List.not_mem_nil, or_false] at hc
      omega
    split
    · rename_i h; exact absurd h hne.1
    · rename_i h; exact absurd h hne.2.1
    · rename_i h; exact absurd h hne.2.2.1
    · rename_i h; exact absurd h hne.2.2.2
    unfold State.runComputeHead
    simp only [beq_self_eq_true, Bool.true_or, if_true, hprog, Nat.zero_mul, Nat.le_refl, hst, Option.isNone_none]
    have htags : e.tags s1.me = ((s1.me.vreg e.va).tag, (e.tags s1.me).2.1, (s1.me.vreg e.vd).tag) := by
      unfold VEntry.tags; rw [hst]; rfl
    rw [htags]
    simp only [hme, Plane.boundTo_nil (hme ▸ hs1), List.isEmpty_nil, Bool.not_true]
    rw [show s1.free = s.free from rfl, ← hrun]
    show VTurn.went ((((s1.modMe fun _ => Plane.computing e r).withFree (s.free + 1)).contribute e _).vcomplete (e.raise _ _)) = _
    generalize hX : (s1.modMe fun _ => Plane.computing e r).withFree (s.free + 1) = X
    have hXme : X.me = Plane.computing e r := by rw [← hX, State.me_withFree, State.me_modMe]
    have hstr : ∀ k : Nat, (r.1.streams[k]?).join = none := by rw [hrest.2.1]; exact h4
    have hXs : ∀ k : Nat, (X.me.streams[k]?).join = none := by rw [hXme]; exact hstr
    rw [State.contribute_free hXs]
    unfold State.vcomplete
    have hpop : X.popQueue = (s.modMe fun _ => Plane.computed e r).withFree (s.free + 1) := by
      rw [popQueue_computing hXme hrest.1 hstr, ← hX, State.modMe_withFree, modMe_modMe]
      have e3 : s1.modMe (fun _ => Plane.computed e r) = s.modMe fun _ => Plane.computed e r := modMe_modMe s _ _
      rw [e3]
    rw [hpop]
    have hen : ((s.modMe fun _ => Plane.computed e r).withFree (s.free + 1)).me.en = 0 := by
      have : ((s.modMe fun _ => Plane.computed e r).withFree (s.free + 1)).me = Plane.computed e r := by rw [State.me_withFree, State.me_modMe]
      rw [this]
      have : (Plane.computed e r).en = (r.1.orFlags r.2.flags).en := rfl
      rw [this, en_orFlags]
      unfold Plane.en at *
      rw [hrest.2.2]; exact h3
    simp only [hen]
    have z : ∀ x : Flags, (0 : Flags) &&& x = 0 := fun x => BitVec.zero_and
    rw [if_pos (z _)]
  unfold drainFuel
  show s1.drain (191 + 1) = _
  unfold State.drain
  rw [hturn]
  simp only
  have hv : ((s.modMe fun _ => Plane.computed e r).withFree (s.free + 1)).me.vq = [] := by
    have : ((s.modMe fun _ => Plane.computed e r).withFree (s.free + 1)).me = Plane.computed e r := by rw [State.me_withFree, State.me_modMe]
    rw [this]; rfl
  rw [hv]; rfl

/-! ### Element-wise results -/

theorem foldActive_elems (m : MReg) (lo hi vd w : Nat) (val : Nat → Nat) (fl : Nat → Flags) (p : Plane) (fi : First) :
    foldActive m lo hi (fun q i => (q.setElem vd w i (val i), fl i)) p fi =
      ((indices lo hi).foldl (fun q i => if p.maskBit m i then q.setElem vd w i (val i) else q) p,
       (indices lo hi).foldl (fun f i => if p.maskBit m i then f.note (fl i) i else f) fi) := by
  unfold foldActive
  generalize indices lo hi = L
  suffices h : ∀ (q : Plane), L.foldl (fun (a : Plane × First) i => if p.maskBit m i then (a.1.setElem vd w i (val i), a.2.note (fl i) i) else a) (q, fi) =
      (L.foldl (fun q i => if p.maskBit m i then q.setElem vd w i (val i) else q) q, L.foldl (fun f i => if p.maskBit m i then f.note (fl i) i else f) fi) from h p
  induction L generalizing fi with
  | nil => intro q; rfl
  | cons i L ih =>
    intro q
    simp only [List.foldl_cons]
    split
    · exact ih _ _
    · exact ih _ _

theorem indices_zero (n : Nat) : indices 0 n = List.range n := by unfold indices; simp

/-- The flags of lowest indices. -/
theorem First.flags_get (f : First) (k : Nat) (hk : k < 8) : f.flags.getLsbD k = f[k].isSome := by
  have key : ∀ b0 b1 b2 b3 b4 b5 b6 b7 : Bool, ∀ k : Fin 8,
      (BitVec.ofNat 8 (0 + (if b0 then 1 else 0) + (if b1 then 2 else 0) + (if b2 then 4 else 0) + (if b3 then 8 else 0) + (if b4 then 16 else 0) +
        (if b5 then 32 else 0) + (if b6 then 64 else 0) + (if b7 then 128 else 0))).getLsbD k.val = [b0, b1, b2, b3, b4, b5, b6, b7].getD k.val false := by decide
  have e : f.flags = BitVec.ofNat 8 (0 + (if f[0].isSome then 1 else 0) + (if f[1].isSome then 2 else 0) + (if f[2].isSome then 4 else 0) +
      (if f[3].isSome then 8 else 0) + (if f[4].isSome then 16 else 0) + (if f[5].isSome then 32 else 0) + (if f[6].isSome then 64 else 0) +
      (if f[7].isSome then 128 else 0)) := rfl
  rw [e, key _ _ _ _ _ _ _ _ ⟨k, hk⟩]
  have hk' : k = 0 ∨ k = 1 ∨ k = 2 ∨ k = 3 ∨ k = 4 ∨ k = 5 ∨ k = 6 ∨ k = 7 := by omega
  rcases hk' with rfl | rfl | rfl | rfl | rfl | rfl | rfl | rfl <;> rfl

theorem fexOf_fields (p : Plane) (f : First) (h0 : p.fex0 = f.fex0) (h1 : p.fex1 = f.fex1) (k : Nat) (hk : k < 8) : p.fexOf k = fexField f[k] := by
  have lt : ∀ o, fexField o < 65536 := by intro o; unfold fexField; split <;> omega
  have h : ∀ j (hj : j < 8), fexField f[j] < 65536 := fun j _ => lt _
  have a0 := h 0 (by omega); have a1 := h 1 (by omega); have a2 := h 2 (by omega); have a3 := h 3 (by omega)
  have a4 := h 4 (by omega); have a5 := h 5 (by omega); have a6 := h 6 (by omega); have a7 := h 7 (by omega)
  unfold Plane.fexOf
  rw [h0, h1]
  unfold First.fex0 First.fex1
  have hk' : k = 0 ∨ k = 1 ∨ k = 2 ∨ k = 3 ∨ k = 4 ∨ k = 5 ∨ k = 6 ∨ k = 7 := by omega
  rcases hk' with rfl | rfl | rfl | rfl | rfl | rfl | rfl | rfl <;>
    simp only [Nat.reduceLT, Nat.reduceMod, Nat.reduceMul, Nat.reducePow, reduceIte, Nat.div_one, BitVec.toNat_ofNat] <;> omega

/-- The flags of a computation that notes fl at the active indices below vl. -/
theorem vecFlags_of {s t : State} {act : Nat → Bool} {fl : Nat → Flags} {vl : Nat} (hvl : vl ≤ 0x8000) (F : First)
    (hF : F = (indices 0 vl).foldl (fun f i => if act i then f.note (fl i) i else f) First.empty)
    (h0 : t.me.fex0 = F.fex0) (h1 : t.me.fex1 = F.fex1) (hc : t.me.fcsr = (s.me.orFlags F.flags).fcsr) :
    VecFlags s (fun k i => i < vl ∧ act i = true ∧ (fl i).getLsbD k = true) t := by
  have hg : ∀ k (hk : k < 8), F[k] = lowest fl k ((List.range vl).filter act) none := by
    intro k hk
    rw [hF, indices_zero, First.fold_get fl act _ _ k hk]
    congr 1
    unfold First.empty; simp
  have hmem : ∀ i, i ∈ (List.range vl).filter act ↔ i < vl ∧ act i = true := by intro i; simp
  refine ⟨fun k hk => ?_, ?_, fun k hk => ?_⟩
  · have hraised : t.me.raised.getLsbD k = (s.me.raised.getLsbD k || F.flags.getLsbD k) := by
      unfold Plane.raised; rw [hc]; unfold Plane.orFlags
      simp only [BitVec.getLsbD_extractLsb', BitVec.getLsbD_or, BitVec.getLsbD_shiftLeft, BitVec.getLsbD_setWidth, hk, decide_true, Bool.true_and]
      have e : 8 + k - 8 = k := by omega
      have l1 : 8 + k < 64 := by omega
      have l2 : ¬ 8 + k < 8 := by omega
      simp [e, l1, l2, show k < 64 by omega]
    rw [hraised, First.flags_get F k hk, hg k hk]
    have := lowest_spec fl k ((List.range vl).filter act) none
    revert this
    cases lowest fl k ((List.range vl).filter act) none with
    | none =>
      intro h
      simp only [Option.isSome_none, Bool.or_false]
      refine ⟨fun h => .inl h, fun h' => h'.resolve_right ?_⟩
      rintro ⟨i, hi, ha, hb⟩
      have := h.2 i ((hmem i).2 ⟨hi, ha⟩); rw [this] at hb; exact absurd hb (by simp)
    | some j =>
      intro h
      simp only [Option.isSome_some, Bool.or_true, true_iff]
      rcases h.1 with h | h
      · simp at h
      · exact .inr ⟨j, ((hmem j).1 h.1).1, ((hmem j).1 h.1).2, h.2⟩
  · rw [hc]; unfold Plane.orFlags
    apply BitVec.eq_of_getLsbD_eq
    intro i hi
    simp only [BitVec.getLsbD_and, BitVec.getLsbD_or, BitVec.getLsbD_not, BitVec.getLsbD_shiftLeft, BitVec.getLsbD_setWidth]
    by_cases h : 8 ≤ i ∧ i < 16
    · have : BitVec.getLsbD (0xFF00 : Word) i = true := by
        have : i = 8 ∨ i = 9 ∨ i = 10 ∨ i = 11 ∨ i = 12 ∨ i = 13 ∨ i = 14 ∨ i = 15 := by omega
        rcases this with rfl | rfl | rfl | rfl | rfl | rfl | rfl | rfl <;> rfl
      rw [this]; simp
    · by_cases h2 : i < 8
      · simp [h2]
      · have : F.flags.getLsbD (i - 8) = false := BitVec.getLsbD_of_ge _ _ (by omega)
        simp [this]
  · have := lowest_spec fl k ((List.range vl).filter act) none
    rw [fexOf_fields _ F h0 h1 k hk, hg k hk]
    revert this
    cases lowest fl k ((List.range vl).filter act) none with
    | none =>
      intro h
      refine ⟨?_, fun _ => rfl⟩
      rintro i ⟨hi, ha, hb⟩
      have := h.2 i ((hmem i).2 ⟨hi, ha⟩); rw [this] at hb; exact absurd hb (by simp)
    | some j =>
      intro h
      have hj : j ∈ (List.range vl).filter act ∧ (fl j).getLsbD k = true := by
        rcases h.1 with h | h
        · simp at h
        · exact h
      have hj' := (hmem j).1 hj.1
      refine ⟨fun i hi hmin => ?_, fun hno => absurd ⟨hj'.1, hj'.2, hj.2⟩ (hno j)⟩
      have e1 := h.2.2 i ((hmem i).2 ⟨hi.1, hi.2.1⟩) hi.2.2
      have e2 := hmin j ⟨hj'.1, hj'.2, hj.2⟩
      have : j = i := by omega
      subst this
      unfold fexField
      simp only
      rw [Nat.mod_eq_of_lt (by omega)]
theorem Plane.setTags_rest (p : Plane) (r : Nat) (t : Tag) (n : Nat) : { p.setTags r t n with v := p.v } = p := by
  induction n with
  | zero => rfl
  | succ n ih =>
    rw [Plane.setTags]
    have : ({ (p.setTags r t n).setVreg (r + n) { (p.setTags r t n).vreg (r + n) with tag := t, side := sideOf t ((p.setTags r t n).vreg (r + n)).side } with v := p.v } : Plane) = { p.setTags r t n with v := p.v } := rfl
    rw [this, ih]

theorem Plane.elem_setTags (p : Plane) (r : Nat) (t : Tag) (n w i : Nat) (hn : r + n ≤ 64) (hi : r + i / elemsOf w < 64) :
    (p.setTags r t n).elem r w i = p.elem r w i := by
  apply Plane.elem_of_data
  rw [Plane.setTags_vreg p r t n _ hn hi]
  split <;> rfl

/-- The plane after elements of a group were written and the group tagged. -/
theorem VecPuts.of {s t : State} {d : VReg} {g : Nat} {rt : Tag} {el : Nat → Option Nat} {p1 q : Plane} (hv1 : p1.v = s.me.v)
    (hq : ElemsOnly p1 q d.toNat g (tagWidth rt) el) (hg : d.toNat + g ≤ 64) (hw : tagWidth rt ∈ [4, 8, 16, 32, 64]) (ht : t.me.v = (q.setTags d.toNat rt g).v) : VecPuts s d g rt el t := by
  have hvr : ∀ k, t.me.vreg k = (q.setTags d.toNat rt g).vreg k := fun k => by unfold Plane.vreg; rw [ht]
  have hvr1 : ∀ k, p1.vreg k = s.me.vreg k := fun k => by unfold Plane.vreg; rw [hv1]
  have hp := (elemsOf_mul hw).2.2
  have hpe : 4096 / tagWidth rt = elemsOf (tagWidth rt) := by
    unfold elemsOf; rw [if_neg]; simp only [beq_iff_eq]; intro h; rw [h] at hw; simp at hw
  refine ⟨fun i hi => ?_, fun j hj => ?_, fun k hk ho => ?_⟩
  · rw [hpe] at hi
    have hlt : d.toNat + i / elemsOf (tagWidth rt) < 64 := by
      have := (Nat.div_lt_iff_lt_mul hp).2 hi; omega
    have e : t.me.elem d.toNat (tagWidth rt) i = (q.setTags d.toNat rt g).elem d.toNat (tagWidth rt) i := by unfold Plane.elem; rw [hvr]
    rw [e, Plane.elem_setTags q _ _ _ _ _ hg hlt, hq.elem i hi]
    congr 1
    unfold Plane.elem; rw [hvr1]
  · rw [hvr, Plane.setTags_vreg q _ _ _ _ hg (by omega), if_pos (by omega)]
    refine ⟨rfl, fun h => ?_⟩
    show sideOf rt _ = 0
    unfold sideOf
    cases rt <;> first | rfl | simp [tagIsQB] at h
  · rw [hvr, Plane.setTags_vreg q _ _ _ _ hg hk, if_neg (by omega), hq.out k hk ho, hvr1]

theorem VecFrame.of {s t : State} {e : VEntry} {len : Nat} {r : Plane × First} (hl : len = 4) (h2 : s.me.vq = [])
    (hq : e.qpos = s.me.qnext) (hrest : { r.1 with v := s.me.v } = s.me.queued e len)
    (ht : t = (s.modMe fun _ => Plane.computed e r).withFree (s.free + 1)) : VecFrame s t := by
  subst hl
  have hme : t.me = Plane.computed e r := by rw [ht, State.me_withFree, State.me_modMe]
  have hr : ∀ {α : Type} (f : Plane → α), (∀ p v, f { p with v := v } = f p) → f r.1 = f (s.me.queued e 4) := by
    intro α f hf; rw [← hrest]; exact (hf r.1 _).symm
  refine ⟨⟨?_, ?_, ?_⟩, ?_, ?_, ?_, ?_⟩
  · rw [hme]; exact hr Plane.pc (fun _ _ => rfl)
  · rw [hme]
    have h1 : r.1.st = (s.me.queued e 4).st := hr Plane.st fun _ _ => rfl
    have h2 : r.1.gcs = (s.me.queued e 4).gcs := hr Plane.gcs fun _ _ => rfl
    show r.1.st = if r.1.gcs then .asleep else .runnable
    rw [h1, h2]; rfl
  · rw [hme]; exact hr Plane.wait (fun _ _ => rfl)
  · rw [hme]; exact hr Plane.qnext (fun _ _ => rfl)
  · have : ({ t with free := s.free } : State) = s.modMe fun _ => Plane.computed e r := by rw [ht]; rfl
    rw [this]; exact onlyMe_modMe s _
  · rw [hme]
    show r.1.heldBut e.qpos = _
    unfold Plane.heldBut
    rw [hq, hr Plane.held fun _ _ => rfl]
    rfl
  · rw [hme]
    unfold SameButPc
    refine Eq.trans (b := { ({ r.1 with v := s.me.v } : Plane) with fcsr := s.me.fcsr, fex0 := s.me.fex0, fex1 := s.me.fex1, qnext := s.me.qnext, held := s.me.held, pc := s.me.pc, st := s.me.st, wait := s.me.wait, vq := [] }) rfl ?_
    rw [hrest, ← h2]; rfl

/-- Major 0x21 or 0x22 on a plain tag: what it leaves. -/
theorem vecDone_arith {s : State} (hs : s.vecReady) (w : IWord) (pfx : Option (BitVec 26)) (d : VReg) (m : MReg) (g : Nat) (rt ta td : Tag) (e : VEntry)
    (he : s.entryOf w pfx = e) (hmaj : e.major = 0x21 ∨ e.major = 0x22) (hfn : e.fn5 ≠ 31) (hfn' : e.fn5 ≠ 25) (hvd : e.vd = d.toNat) (hm : (if e.major == 0x22 then e.mm else e.m3) = m)
    (hta : (s.me.vreg e.va).tag = ta) (htd : (s.me.vreg e.vd).tag = td) (hqb : tagIsQB ta = false) (hg : e.g = g)
    (hrt : rt = if e.fn5 == 27 then zOfWidth (tagWidth ta) else if (arithFma e.fn5 && ta != td) then td else ta)
    (hw : tagWidth rt ∈ [4, 8, 16, 32, 64]) (hgr : d.toNat + g ≤ 64) (hvl : s.me.vl ≤ g * elemsOf (tagWidth rt)) (hvl' : s.me.vl ≤ 0x8000)
    (hok : ((planArith e s.me.tagView).settle false).chk = .ok) (hr : (planArith e s.me.tagView).rounds = true → (dynMode? s.me.rm).isSome) :
    VecDone s m d g rt (fun i =>
      let vs := e.major == 0x22
      let env : EEnv := ⟨ta, e.mode, e.sat, s.me.modulus⟩
      let sc := vsOperand e ta e.fn5 s.me.modulus
      let fy (y : Nat) : FVal := if vs then sc.value else match tagFp? ta with | some f => f.value y | none => .fin false 0 0
      let x := s.me.elem e.va (tagWidth ta) i
      let y := if vs then sc.pattern else if arithUnary e.fn5 then 0 else s.me.elem e.vb (tagWidth ta) i
      let dd := s.me.elem e.vd (tagWidth rt) i
      let r := elArith env td e.fn5 (vs && sc.isImm) x y dd (fy y)
      (r.1, r.2 ||| (if vs && sc.mov then flMOV else flNone))) (s.vissue w pfx 4) := by
  have hc : e.computes := by unfold VEntry.computes; rcases hmaj with h | h <;> simp [h]
  have hplan : planCompute e s.me.tagView = planArith e s.me.tagView := by unfold planCompute; rcases hmaj with h | h <;> simp [h]
  have hevl : e.vl = s.me.vl := by rw [← he]; rfl
  let val : Nat → Nat × Flags := fun i =>
      let vs := e.major == 0x22
      let env : EEnv := ⟨ta, e.mode, e.sat, s.me.modulus⟩
      let sc := vsOperand e ta e.fn5 s.me.modulus
      let fy (y : Nat) : FVal := if vs then sc.value else match tagFp? ta with | some f => f.value y | none => .fin false 0 0
      let x := s.me.elem e.va (tagWidth ta) i
      let y := if vs then sc.pattern else if arithUnary e.fn5 then 0 else s.me.elem e.vb (tagWidth ta) i
      let dd := s.me.elem e.vd (tagWidth rt) i
      let r := elArith env td e.fn5 (vs && sc.isImm) x y dd (fy y)
      (r.1, r.2 ||| (if vs && sc.mov then flMOV else flNone))
  rw [← hvd] at hgr
  let p1 := s.me.queued e 4
  let q := (indices 0 e.vl).foldl (fun q i => if p1.maskBit m i then q.setElem e.vd (tagWidth rt) i (val i).1 else q) p1
  let F := (indices 0 e.vl).foldl (fun f i => if p1.maskBit m i then f.note (val i).2 i else f) First.empty
  have hrun : (q.setTags e.vd rt g, F) = (let e := s.entryOf w pfx
      let p1 := s.me.queued e 4
      runCompute e (p1.vreg e.va).tag (p1.vreg e.vd).tag (e.whole false) s.free 0 (e.total p1) p1 First.empty) := by
    simp only [he]
    have htot : e.total (s.me.queued e 4) = e.vl := by
      unfold VEntry.total
      rw [if_neg (by rcases hmaj with h | h <;> simp [h, hfn]), if_neg (by rcases hmaj with h | h <;> simp [h])]
    rw [htot]
    have e1 : ((s.me.queued e 4).vreg e.va).tag = ta := hta
    have e2 : ((s.me.queued e 4).vreg e.vd).tag = td := htd
    rw [e1, e2]
    have : runCompute e ta td (e.whole false) s.free 0 e.vl (s.me.queued e 4) First.empty = runArith e ta td 0 e.vl (s.me.queued e 4) First.empty := by
      unfold runCompute; rcases hmaj with h | h <;> simp [h]
    rw [this]
    unfold runArith
    simp only [hqb, Bool.false_eq_true, if_false]
    rw [if_neg (by simpa using hfn)]
    have h25 : (e.fn5 == 25) = false := by simpa using hfn'
    simp only [h25, Bool.false_and, Bool.false_eq_true, if_false, hm, ← hrt, hg]
    have := foldActive_elems m 0 e.vl e.vd (tagWidth rt) (fun i => (val i).1) (fun i => (val i).2) p1 First.empty
    exact congrArg (fun x : Plane × First => (x.1.setTags e.vd rt g, x.2)) (show (q, F) = _ from this.symm)
  have hq : ElemsOnly p1 q e.vd g (tagWidth rt) (fun j => if j < s.me.vl ∧ s.me.maskBit m j = true then some ((val j).1 % 2 ^ tagWidth rt) else none) := by
    refine (ElemsOnly.fold hw hgr (fun i => (val i).1) (fun i => p1.maskBit m i) _ (fun i hi => ?_) p1 p1 _ (ElemsOnly.refl p1 _ _ _)).congr fun j _ => ?_
    · rw [indices_zero, List.mem_range] at hi; omega
    · rw [indices_zero, hevl]
      simp only [List.mem_range]
      rfl
  have hrest : ({ q.setTags e.vd rt g with v := s.me.v } : Plane) = s.me.queued e 4 := by
    have := q.setTags_rest e.vd rt g
    have h1 : ({ q.setTags e.vd rt g with v := s.me.v } : Plane) = { ({ q.setTags e.vd rt g with v := q.v } : Plane) with v := s.me.v } := rfl
    rw [h1, this]
    exact hq.rest
  have hfield : ∀ {α : Type} (f : Plane → α), (∀ p v, f { p with v := v } = f p) → f (q.setTags e.vd rt g) = f (s.me.queued e 4) := by
    intro α f hf; rw [← hrest]; exact (hf _ _).symm
  have ht := vissue_compute hs w pfx 4 (by rw [he]; exact hc) (by rw [he, hplan]; exact hok) (by rw [he, hplan]; exact hr) (q.setTags e.vd rt g, F) hrun
    ⟨by rw [hfield Plane.vq (fun _ _ => rfl), he]; show s.me.vq ++ [e] = [e]; rw [hs.2.1]; rfl, hfield Plane.streams (fun _ _ => rfl), hfield Plane.fcsr (fun _ _ => rfl)⟩
  rw [he] at ht
  have hme : (s.vissue w pfx 4).me = Plane.computed e (q.setTags e.vd rt g, F) := by rw [ht, State.me_withFree, State.me_modMe]
  have hwf : e.writesFex = true := by unfold VEntry.writesFex; rcases hmaj with h | h <;> simp [h]
  refine ⟨VecFrame.of rfl hs.2.1 (by rw [← he]; rfl) hrest ht, VecPuts.of (p1 := p1) rfl (hvd ▸ hq) (hvd ▸ hgr) hw (by rw [hme, ← hvd]; rfl), ?_⟩
  rw [← hevl]
  refine vecFlags_of (by omega) F rfl ?_ ?_ ?_
  · rw [hme]; show (if e.writesFex then F.fex0 else _) = _; rw [hwf]; rfl
  · rw [hme]; show (if e.writesFex then F.fex1 else _) = _; rw [hwf]; rfl
  · rw [hme]
    show ((q.setTags e.vd rt g).orFlags F.flags).fcsr = _
    unfold Plane.orFlags
    show (q.setTags e.vd rt g).fcsr ||| _ = _
    rw [hfield Plane.fcsr (fun _ _ => rfl)]; rfl
end Sys2Proof.Machine
end

