-- ==== Sys2Proof/Tests/Slice0.lean ====
section
/-! SUPPORT. Tests: ill-formed terms, words of the spec, single steps with results worked out from the spec's examples, and for each statement
a state and operands that meet its hypotheses. -/
namespace Sys2Proof.Tests
open Sys2Proof.Machine
set_option Elab.async false

/-! ### Well-formedness: an ill-formed term for each check of `Instr.wf`, and words of those terms that decode to nothing -/

theorem test_wf_bit_field : (Instr.bfx 1 2 31 33).wf = false ∧ (Instr.bfi 1 2 0 63).wf = true ∧ (Instr.bfi 1 2 1 63).wf = false := by decide
theorem test_wf_queue : (Instr.qdrain 0).wf = false := by decide
theorem test_wf_tag : (Instr.setvl 1 2 .none 0).wf = false ∧ (Instr.vtag 1 2 .none).wf = false := by decide
theorem test_wf_compare_mask : ∀ i ∈ [Instr.vcmpeq 0 1 2 0, .vcmpne 0 1 2 0, .vcmplt 0 1 2 0, .vcmple 0 1 2 0, .vcmpun 0 1 2 0], i.wf = false := by decide
theorem test_wf_mask_destination : ∀ i ∈ [Instr.mand 0 1 2, .mor 0 1 2, .mxor 0 1 2, .mandn 0 1 2, .mnot 0 1, .mset 0 1, .mfromv 0 1 0, .vconfd 0 1 0,
    .gcsleep 0 1 2 0], i.wf = false := by decide
theorem test_wf_segments : (Instr.vldseg 0 1 0 0).wf = false ∧ (Instr.vstseg 0 1 0 0).wf = false := by decide
theorem test_wf_first_fault_mask : (Instr.vldff 0 1 0).wf = false := by decide
theorem test_wf_register_pair : ∀ i ∈ [Instr.vldw 0 31 0 0, .vgwin 0 31 0 0 false, .vstwm 0 31 0 0], i.wf = false := by decide
theorem test_no_word_of_an_event : (Instr.thermalThrottle).encoded = false ∧ encode .thermalThrottle = [] := by decide

/-! ### Words of the spec's examples and tables -/

/-- The decoder reads the word as i. -/
def Reads (w : Nat) (i : Instr) : Prop := decodeTableWord 32 w = some i

/-- The decoder reads no instruction in the word. -/
def ReadsNone (w : Nat) : Prop := decodeTableWord 32 w = none

/-- 09 Example 9-1, 11 Example 11-1. -/
theorem test_words_integer : Reads 0x04642800 (.add 3 4 5) ∧ Reads 0x04641F88 (.bfx 3 4 3 8) ∧ Reads 0x08000000 (.addi 0 0 0) := by
  unfold Reads; decide +kernel
/-- 09 Example 9-1: BNE three words back. -/
theorem test_words_branch : Reads 0x3860FFFD (.bne 3 0 0xFFFD) := by unfold Reads; decide +kernel
/-- 09 Example 9-1: the pair of a PFX and an ADDI. -/
theorem test_words_prefix : decodeTableWord 64 0x08E03456FC000012 = some (.pfx 0x12 0x08E03456) := by decide +kernel
/-- 11 Example 11-1. -/
theorem test_words_memory : Reads 0x24A6BFFC (.ld 5 6 .w 0x3FFC) ∧ Reads 0x2C060003 (.st 0 6 .b 3) := by unfold Reads; decide +kernel
/-- FADD.F32 F1, F2, F3 in RNE: 0x15; d 1, a 2, b 3, fn 0, mod 01 0 000 (09 R113, R117, 11 Table 11-2). -/
theorem test_words_float : Reads 0b010101_00001_00010_00011_00000_010000 (.fadd 1 2 3 .f32 .rne) := by unfold Reads; decide +kernel
/-- AMOADD.ACQ.PKG.D X3, X4, X5: 0x16; fn 2, mod order 01, scope 011, size 1 (09 R117, 11 Table 11-4). -/
theorem test_words_atomic : Reads 0b010110_00011_00100_00101_00010_010111 (.amoadd 3 4 5 .acq .pkg true) := by unfold Reads; decide +kernel
/-- 11 Example 11-2. -/
theorem test_words_sync : Reads 0x5C000006 (.fence .pkg) ∧ Reads 0x5C001061 (.waittlImm 1 2) ∧ Reads 0x5C000940 (.gbar 1) := by
  unfold Reads; decide +kernel
/-- CRGET X3, CYCLE: 0x18; d 3, a 0, fn 0, cr 0x007 in b and mod; RTE: fn 5 (09 Table 9-2, 11 Table 11-7). -/
theorem test_words_system : Reads 0b011000_00011_00000_00000_00000_000111 (.crget 3 .cycle) ∧
    Reads 0b011000_00000_00000_00000_00101_000000 .rte := by unfold Reads; decide +kernel
/-- TSET X4, X5: 0x19; d 0, a 4, b 5, fn 1 (11 Table 11-9). -/
theorem test_words_tag_table : Reads 0b011001_00000_00100_00101_00001_000000 (.tset 4 5) := by unfold Reads; decide +kernel
/-- 13 Example 13-1. -/
theorem test_words_configuration : Reads 0x80A65002 (.setvl 5 6 .fp32 2) ∧ Reads 0x80A07800 (.setvl 5 0 .q4 0) ∧ Reads 0x80E00040 (.cfgget 7) := by
  unfold Reads; decide +kernel
/-- 13 Example 13-3, 09 Example 9-1. -/
theorem test_words_vector : Reads 0x84841809 (.vfma 8 16 24 0) ∧ Reads 0x88210630 (.vsllVs 2 4 3 0 true) ∧ Reads 0x8461861F (.vtag 6 6 .z32) ∧
    Reads 0x88210020 (.vaddVs 2 4 0 0 true) := by unfold Reads; decide +kernel
/-- VCMPLT M1, V2, V3, M4: 0x23; vd 1, va 2, vb 3, m 4, fn 2 (13 Table 13-5). -/
theorem test_words_compare : Reads 0b100011_000001_000010_000011_100_00010 (.vcmplt 1 2 3 4) := by unfold Reads; decide +kernel
/-- 13 Examples 13-4, 13-5 and 13-7. -/
theorem test_words_reduce_convert_permute : Reads 0x90200109 (.vxrndClr 2) ∧ Reads 0x94800102 (.vcvtf4 8 0 1) ∧ Reads 0x9811004E (.vconfd 1 4 2) := by
  unfold Reads; decide +kernel
/-- 15 Example 15-2. -/
theorem test_words_vector_memory : Reads 0x9C828000 (.vld 8 5 0) ∧ Reads 0x9C038012 (.vldseg 0 7 0 2) ∧ Reads 0x9C24800F (.vldfe 2 9 0 true) ∧
    Reads 0xA1022883 (.vstx 16 4 20 2 false) ∧ Reads 0xA0450A06 (.vstwm 4 10 5 0) ∧ Reads 0xA8120C00 (.gcsleep 1 8 12 0) ∧ Reads 0xA8000001 .vdrain := by
  unfold Reads; decide +kernel
/-- 23 Example 23-3: major 0x29. -/
theorem test_words_press : Reads 0xA4621020 (.upd 6 8 16 1) ∧ Reads 0xA4621001 (.upda 6 8 16 0) ∧ Reads 0xA4010C03 (.uacc 4 12 0) ∧ Reads 0xA4000004 .umerge ∧
    Reads 0xA4600005 (.uflush 6) ∧ Reads 0xA451C006 (.uregion 5 7) ∧ Reads 0xA451C106 (.uregionRel 5 7) := by unfold Reads; decide +kernel
/-- 19 Example 19-3. -/
theorem test_words_trellis : Reads 0xC00A0001 (.sload 10 1) ∧ Reads 0xC0A63843 (.sarm 5 6 7 3) ∧ Reads 0xC00848C2 (.twload 8 9 2) ∧
    Reads 0xC0060110 (.sgrow 6 .always) ∧ Reads 0xC0860190 (.modchk 4 6 false true) ∧ Reads 0xC0000240 .sfree := by unfold Reads; decide +kernel
/-- 21 Examples 21-1 and 21-2. -/
theorem test_words_matrix : Reads 0xC4A60000 (.mgrp 5 6) ∧ Reads 0xC4000010 .mgrpRel ∧ Reads 0xC4070041 (.mwload 7 1) ∧ Reads 0xC4084892 (.mma 8 9 true 2) ∧
    Reads 0xC40A5913 (.maccst 10 11 true 3) ∧ Reads 0xC4A63994 (.maload 5 6 7 false true 4) ∧ Reads 0xC4A001C0 (.mstat 5) := by unfold Reads; decide +kernel
/-- 21, after Table 21-8, and 22. -/
theorem test_words_graph : Reads 0xC80A0001 (.gload 10 1) ∧ Reads 0xC8853042 (.grun 4 5 6 2) ∧ Reads 0xC80000C0 .gfree := by unfold Reads; decide +kernel
/-- 23 Example 23-3: major 0x33. -/
theorem test_words_route : Reads 0xCCA63883 (.route 5 6 7 3) ∧ Reads 0xCD0000C0 (.recv 8) ∧ Reads 0xCC094104 (.rret 9 8 4) ∧ Reads 0xCC004114 (.rretErr 8 4) ∧
    Reads 0xCC0639D0 (.rscfgInbox 6 7) := by unfold Reads; decide +kernel
/-- 25 Table 25-5. -/
theorem test_words_collective : Reads 0xD0A60000 (.ccomm 5 6) ∧ Reads 0xD0E54080 (.cbind 7 5 8) ∧ Reads 0xD1255102 (.cstart 9 5 10 2) ∧
    Reads 0xD0075943 (.csend 7 11 3) ∧ Reads 0xD0850200 (.ccancel 4 5) := by unfold Reads; decide +kernel
/-- 15 Example 15-5. -/
theorem test_words_copy : Reads 0xD4803101 (.xfill 4 0 6 1) ∧ Reads 0xD4853153 (.xhostToh 4 5 6 3) ∧
    Reads 0xD5095060 (.xcopyt 8 9 10 .w 0) := by unfold Reads; decide +kernel

/-- The zero word, a reserved major, a VCMPEQ to M0, a QDRAIN of no queue and an ADD with a non-zero mod are no instructions (09 R114, R119). -/
theorem test_words_refused : ReadsNone 0x00000000 ∧ ReadsNone 0x68000000 ∧ ReadsNone 0b100011_000000_000010_000011_000_00000 ∧
    ReadsNone 0x5C000100 ∧ ReadsNone 0x04642801 := by unfold ReadsNone; decide +kernel

/-! ### States that the hypotheses of statements are met in -/

/-- A strand at U level on plane 0, in its slot, with a handler, an identity map of the first 1 GiB and a partition of one unit. -/
def user : State := (State.reset.withFetchWord 32 0).modMe fun p => { p with tvec := 0x4000, quota := 1 }
/-- The same with its plane changed. -/
def userWith (f : Plane → Plane) : State := user.modMe f
/-- The same at S level. -/
def super : State := userWith fun p => { p with level := .s }
/-- The same with X1, X2 and X3. -/
def userX (a b c : Word) : State := userWith fun p => ((p.setX 1 a).setX 2 b).setX 3 c
/-- A vector instruction in the queue: a VDRAIN, or a word of the caller's. -/
def queued (w : IWord) : VEntry := ⟨w, none, 0, 0, .none, 0, 0, false, 0, 0, 0, none, 0, 0, .u, 0x200000⟩
/-- The same with the second 1 GiB of the map in package 1, of the domain, which no message reaches. -/
def far (s : State) : State := { s.physWrite 0x202008 (leBytes 8 (pkgSpan + 0x3F)) with domain := [0, 1], failing := [1] }
/-- The same with the last line of the map poisoned. -/
def spoilt (s : State) : State := { s with poison := [0x3FFFFFC0] }

/-- Whether an access succeeds; whether its result is as p asks, or its value is n; whether it ends in a translation fault, in an uncorrectable error, or in a
failed remote write. -/
def oks {ε α : Type} : Except ε α → Bool
  | .ok _ => true
  | .error _ => false
def oksWith {ε α : Type} (p : α → Bool) : Except ε α → Bool
  | .ok x => p x
  | .error _ => false
def gives {ε β : Type} (n : Nat) : Except ε (Nat × β) → Bool := oksWith fun x => x.1 == n
def faults {α : Type} : Except MemErr α → Bool
  | .error (.xlate _ _) => true
  | _ => false
def poisons {α : Type} : Except MemErr α → Bool
  | .error (.memerr _) => true
  | _ => false
def unsent {α : Type} : Except MemErr α → Bool
  | .error .remoteWrite => true
  | _ => false
theorem oks_ok {ε α : Type} {r : Except ε α} (h : oks r = true) : ∃ x, r = .ok x := by
  match r, h with
  | .ok x, _ => exact ⟨x, rfl⟩
theorem oksWith_ok {ε α : Type} {p : α → Bool} {r : Except ε α} (h : oksWith p r = true) : ∃ x, r = .ok x ∧ p x = true := by
  match r, h with
  | .ok x, h => exact ⟨x, rfl, h⟩
theorem gives_ok {ε β : Type} {n : Nat} {r : Except ε (Nat × β)} (h : gives n r = true) : ∃ t, r = .ok (n, t) := by
  obtain ⟨⟨v, t⟩, hr, hv⟩ := oksWith_ok h
  exact ⟨t, by rw [hr, ← beq_iff_eq.mp hv]⟩
theorem faults_error {α : Type} {r : Except MemErr α} (h : faults r = true) : ∃ k va, r = .error (.xlate k va) := by
  match r, h with
  | .error (.xlate k va), _ => exact ⟨k, va, rfl⟩
theorem poisons_error {α : Type} {r : Except MemErr α} (h : poisons r = true) : ∃ va, r = .error (.memerr va) := by
  match r, h with
  | .error (.memerr va), _ => exact ⟨va, rfl⟩
theorem unsent_error {α : Type} {r : Except MemErr α} (h : unsent r = true) : r = .error .remoteWrite := by
  match r, h with
  | .error .remoteWrite, _ => rfl

/-- The strand can be aborted with nothing else to end. -/
def abortable (s : State) : Prop := s.me.vq = [] ∧ s.me.st ≠ .free ∧ s.aloneInCohort

theorem user_trapReady : user.trapReady := by unfold State.trapReady State.mayTrap; decide +kernel

/-! ### Witnesses: scalar instructions -/

/-- The last eight bytes of the map, an access that passes its end, and one to a poisoned line. -/
theorem meets_ScalarLoads :
    (let s := userX 0x3FFFFFF8 0 0
     s.getX 1 + (0 : BitVec 14).signExtend 64 = 0x3FFFFFF8 ∧ s.noConflict 0x3FFFFFF8 8 .read ∧ oks (s.read s.myAgent 0x3FFFFFF8 8 .read)) ∧
    (let s := userX 0x3FFFFFF9 0 0
     s.getX 1 + (0 : BitVec 14).signExtend 64 = 0x3FFFFFF9 ∧ s.trapReady ∧ faults (s.read s.myAgent 0x3FFFFFF9 8 .read)) ∧
    (let s := spoilt (userX 0x3FFFFFF8 0 0)
     s.trapReady ∧ poisons (s.read s.myAgent 0x3FFFFFF8 8 .read)) := by
  unfold State.noConflict State.trapReady State.mayTrap; decide +kernel

/-- The same for stores, and a store to a package that no message reaches. -/
theorem meets_ScalarStores :
    (let s := userX 0x3FFFFFF8 0x1234 0
     s.noConflict 0x3FFFFFF8 8 .write ∧ oks (s.write s.myAgent 0x3FFFFFF8 8 (s.getX 2).toNat .write) ∧
       oks (s.write s.myAgent 0x3FFFFFF8 4 (s.getF 2).bits.toNat .write)) ∧
    (let s := userX 0x3FFFFFF9 0 0
     s.trapReady ∧ faults (s.write s.myAgent 0x3FFFFFF9 8 (s.getX 2).toNat .write)) ∧
    (let s := far (userX 0x40000000 0 0)
     abortable s ∧ unsent (s.write s.myAgent 0x40000000 8 (s.getX 2).toNat .write)) := by
  unfold State.noConflict State.trapReady State.mayTrap abortable State.aloneInCohort State.loneCohort; decide +kernel

/-- An AMO at the last dword of the map; AMOCAS with an equal and with another old value. -/
theorem meets_Atomics :
    let s := userX 0x3FFFFFF8 5 7
    (s.getX 1).toNat % 8 = 0 ∧ s.releaseReady = true ∧ s.noConflict 0x3FFFFFF8 8 .rmw ∧ gives 0 (s.read s.myAgent 0x3FFFFFF8 8 .rmw) ∧
      oks (s.write s.myAgent 0x3FFFFFF8 8 5 .rmw) ∧ (0 : Word) = BitVec.ofNat 64 (s.getX 4).toNat ∧ (0 : Word) ≠ BitVec.ofNat 64 (s.getX 3).toNat := by
  unfold State.noConflict; decide +kernel

theorem meets_AcquireLoadReleaseStore :
    (let s := userX 0x3FFFFFF8 5 7
     (s.getX 1).toNat % 8 = 0 ∧ s.releaseReady = true ∧ s.noConflict 0x3FFFFFF8 8 .read ∧ s.noConflict 0x3FFFFFF8 8 .write ∧
       oks (s.read s.myAgent 0x3FFFFFF8 8 .read) ∧ oks (s.write s.myAgent 0x3FFFFFF8 8 5 .write)) ∧
    (let s := userX 0x1004 0 0
     (s.getX 1).toNat % 8 ≠ 0 ∧ s.me.vq = [] ∧ s.mayTrap ∧ s.me.wait = none) := by
  unfold State.noConflict State.mayTrap; decide +kernel

/-- Accesses with nothing pending, and with pairs pending in the line. -/
theorem meets_MemoryAccesses :
    (Memory.wf user.mem = true ∧ user.pend = [] ∧ oks (user.read user.myAgent 0x3FFFFFF8 8 .read) ∧ oks (user.write user.myAgent 0x3FFFFFF8 8 5 .write)) ∧
    oksWith (fun ps => decide ((ps.map (·.pa)).Nodup ∧ summaryBytes ps = [])) (user.places user.myAgent .write false 2 0x3FFFFFFE none) ∧
    (let s : State := { user with
       regions := user.regions.set 5 (some ⟨0, 0x200000, 0x10000, 0x1000, .s32, 0, false, [0x10000]⟩)
       pend := [⟨5, 0x10010, [⟨7, 0, 2, 0, []⟩]⟩] }
     Memory.wf s.mem = true ∧ s.pendingBytes [⟨0x10000, 0, .plain, 0⟩] = [0x10010, 0x10011, 0x10012, 0x10013] ∧ oks (s.read s.myAgent 0x10000 8 .read) ∧
       oks (s.write s.myAgent 0x10000 8 5 .write)) := by
  decide +kernel

/-- Every F register carries FP64 after reset; an enabled flag with a handler, and none enabled. -/
theorem meets_FloatRounding :
    user.roundMode? .rne = some .rne ∧ user.fTagged 1 .f64 = true ∧ user.fTagged 2 .f64 = true ∧ user.canEnd 1 ∧
      (userWith fun p => { p with fcsr := 0x010000FF }).canEnd 0xFF := by
  unfold State.canEnd State.mayTrap; decide +kernel

theorem meets_FloatWithoutRounding : user.fTagged 1 .f64 = true ∧ user.fTagged 2 .f64 = true ∧ user.canEnd 0 := by
  unfold State.canEnd State.mayTrap; decide +kernel

/-- No operand carries FP32; a reserved RM with operands that carry FP64. -/
theorem meets_OperandChecks_scalar :
    (user.trapReady ∧ user.fTagged 1 .f32 = false ∧ user.fTagged 2 .f32 = false) ∧
    (let s := userWith fun p => { p with fcsr := 0x01000005 }
     s.trapReady ∧ 5 ≤ s.me.rm.toNat ∧ s.fTagged 1 .f64 = true ∧ s.fTagged 2 .f64 = true ∧ s.fTagged 3 .f64 = true) := by
  unfold State.trapReady State.mayTrap; decide +kernel

theorem meets_ExactBeforeRounding : (0x7FF0000000000000 : Nat) < 2 ^ (fpOf .f64).width ∧ ((fpOf .f64).value 0x7FF0000000000000).isNan = false := by decide

/-- A counter at 1 of 2: waits for 1, for 2 and for 3. -/
def counted : State := userWith fun p => { p with t := p.t.set 3 ⟨1, 2, []⟩ }
theorem meets_TimelineWaits :
    (let t0 := counted.timeline 0 3
     1 ≤ t0.issue ∧ 1 ≤ t0.value ∧ 2 ≤ t0.issue ∧ t0.value < 2 ∧ t0.issue < 3 ∧ counted.trapReady) ∧
    ((counted.modMe fun p => { p with wait := some (.waittl 3 1) }).waitOf 0 = some (.waittl 3 1)) ∧
    ((counted.modMe fun p => { p with wait := some (.waittl 3 2) }).waitOf 0 = some (.waittl 3 2)) := by
  unfold State.trapReady State.mayTrap; decide +kernel

theorem meets_TimelineReadsAndBumps :
    ([2, 0, 1] : List Nat).Nodup ∧ ([2, 0, 1] : List Nat).Perm (List.range 3) ∧
    (let s := userX 0xFFFFFFFFFFFFFFFF 0 0
     (s.timeline 0 3).issue + (s.getX 1).toNat < 2 ^ 64 ∧ 0 < (s.getX 1).toNat ∧ s.releaseReady = true) ∧
    (let s := (userX 0xFFFFFFFFFFFFFFFF 0 0).modMe fun p => { p with t := p.t.set 3 ⟨1, 1, []⟩ }
     (s.timeline 0 3).value = (s.timeline 0 3).issue ∧ (s.timeline 0 3).early = [] ∧ 2 ^ 64 ≤ (s.timeline 0 3).issue + (s.getX 1).toNat ∧ s.trapReady ∧ (s.getX 2).toNat = 0 ∧ (s.timeline 0 3).issue < 2 ^ 64) := by
  unfold State.trapReady State.mayTrap; decide +kernel

/-- A stream bound to S32 pieces of four elements, and a queued VADD that takes one. -/
def takes (s : State) : State := s.modMe fun p => { p with
  streams := p.streams.set 0 (some ⟨0, 1, some 0, 0, true, true, 0, 0, 4, 1, .s32, 0, 0, [], 0, [], 0, false, false⟩)
  vq := [{ queued 0x88410000 with tag := .s32, vl := 4 }] }
/-- Queues empty, a vector queue that is not, one with an older store and one with an acquire, and an LDQ and an EQ in use. -/
theorem meets_FencesAndDrains :
    (user.releaseReady = true ∧ (∀ e ∈ user.me.vq, e.acquires user.me = false) ∧ ∀ k, k < 5 → user.queued k = 0) ∧
    (userWith fun p => { p with vq := [{ queued 0x9D028000 with tag := .s64, vl := 1 }] }).releaseReady = false ∧
    (let s := takes user
     s.releaseReady = true ∧ ∃ e ∈ s.me.vq, e.acquires s.me = true) ∧
    (let s := userWith fun p => { p with vq := [queued 0xA8000001], dq := [2, 0, 0, 0] }
     (8 : BitVec 5).getLsbD 3 = true ∧ s.queued 3 ≠ 0 ∧ (1 : BitVec 5).getLsbD 0 = true ∧ s.queued 0 ≠ 0) ∧
    (let s := { userWith fun p => { p with dq := [0, 0, 0, 3] } with ops := [⟨0, 2, 1, .route⟩] }
     (16 : BitVec 5).getLsbD 4 = true ∧ s.queued 4 ≠ 0) ∧
    (let s := userWith fun p => { p with wait := some (.qdrain 8) }
     s.waitOf 0 = some (.qdrain 8) ∧ ∀ k, k < 5 → ({ s with cur := 0 } : State).queued k = 0) := by decide +kernel

/-- Slot 1 of GRPS names entry 5, of two members. -/
def grouped (arr : List PlaneId) (gen : Bool) (w : Option Wait) : State :=
  let s := (userX 1 0 0).modMe fun p => { p with grps := 0x0000000200000500, wait := w }
  { s with groups := s.groups.set 5 ⟨some 0, [0, 1], arr.length, arr, gen⟩ }
theorem meets_GroupBarriers :
    ((user.me.grps.getLsbD (32 + (1 : BitVec 2).toNat)) = false ∧ user.trapReady) ∧
    (let s := grouped [] false none
     s.me.groupSlot 1 = some 5 ∧ s.cur ∉ (s.group 5).arrived ∧ s.releaseReady = true ∧ s.me.wait = none ∧ (s.group 5).gen ≠ (s.getX 1).getLsbD 0 ∧
       (s.group 5).gen = (s.getX 0).getLsbD 0) ∧
    (let s := grouped [1] false none
     s.cur ∉ (s.group 5).arrived ∧ (s.group 5).count + 1 = (s.group 5).members.length) ∧
    (let s := grouped [0] false none
     s.cur ∈ (s.group 5).arrived ∧ s.trapReady) ∧
    ((grouped [] true (some (.gbar none false))).me.wait = some (.gbar none false) ∧ ((grouped [] true none).group 5).gen ≠ false) ∧
    ((grouped [] true (some (.gwait 5 false))).waitOf 0 = some (.gwait 5 false)) ∧
    ((grouped [] true (some (.gbar (some 5) false))).waitOf 0 = some (.gbar (some 5) false)) := by
  unfold State.trapReady State.mayTrap; decide +kernel

/-- A counter of value 0 in the partition: thresholds 0 and 1, an address that is no multiple of 8, and a wait that has been reached. -/
theorem meets_ArrivalCounterWaits :
    (let s := userX 0x800000000000FFF8 0 1
     (s.getX 1).toNat % 8 = 0 ∧ s.noConflict 0x800000000000FFF8 8 .read ∧ gives 0 (s.readSpad s.myAgent (s.getX 1) 8) ∧ (s.getX 2).toNat ≤ 0 ∧
       0 < (s.getX 3).toNat) ∧
    (let s := userX 0x8000000000000004 0 0
     (s.getX 1).toNat % 8 ≠ 0 ∧ s.trapReady) ∧
    (let s := userWith fun p => { p with wait := some (.acwait 1 0x8000000000000000 0) }
     s.waitOf 0 = some (.acwait 1 0x8000000000000000 0) ∧ gives 0 (State.readSpad { s with cur := 0 } (s.agent 0) 0x8000000000000000 8)) := by
  unfold State.noConflict State.trapReady State.mayTrap; decide +kernel

theorem meets_WatermarkPublications :
    (super.mayPublish super.cur 63 = true ∧ super.releaseReady = true ∧ (super.wm 63).mark < 2 ^ 48 ∧ (super.wm 63).ranges = []) ∧
    (let s := { super with wms := super.wms.set 63 ⟨0, 5, [(8, 12), (10, 11), (20, 24)]⟩ }
     (s.wm 63).mark < 2 ^ 48 ∧
       let reach (j : Nat) : Nat := ((s.wm 63).ranges.take j).foldl (fun x r => max x r.2) (max (s.wm 63).mark (min 8 (2 ^ 48 - 1)))
       (∀ x ∈ [(0, (8, 12)), (1, (10, 11))], (s.wm 63).ranges[x.1]? = some x.2 ∧ x.2.1 ≤ reach x.1) ∧ (s.wm 63).ranges[2]? = some (20, 24) ∧ reach 2 < 20) ∧
    (user.mayPublish user.cur 63 = false ∧ user.trapReady) := by
  unfold State.trapReady State.mayTrap; decide +kernel

/-- Events 0 pending or not, a timeout, EVPOST of ranks 0 and 1 of one strand, of another cohort, and with a bit above 31. -/
theorem meets_SleepAndEvents :
    (let s := (userX 1 0 2).modMe fun p => { p with events := 1 }
     s.me.wait = none ∧ s.me.events &&& s.getX 1 ≠ 0 ∧ s.me.events &&& s.getX 3 = 0 ∧ s.getX 3 ≠ 0 ∧ s.getX 2 = 0 ∧ s.trapReady) ∧
    (let s := userWith fun p => { p with events := 1, wait := some (.sleep 1 1 none) }
     s.waitOf 0 = some (.sleep 1 1 none) ∧ (s.plane 0).events &&& 1 ≠ 0) ∧
    (let s := userWith fun p => { p with wait := some (.sleep 1 1 (some 0)) }
     s.waitOf 0 = some (.sleep 1 1 (some 0)) ∧ (s.plane 0).events &&& 1 = 0 ∧ 0 ≤ s.cycle) ∧
    (let s := userX 0 0 7
     s.getX 1 = 0 ∧ s.getX 2 = 0 ∧ s.trapReady) ∧
    (let s := userX 0xFFFF0000 0xFFFF0001 0x00010000
     s.me.level = .u ∧ (s.getX 3).toNat / 65536 = 1 ∧ 1 ≠ s.me.coh ∧ (s.getX 1).toNat / 65536 = 0xFFFF ∧
       s.cohort? s.me.coh = some (fetchCohort 0) ∧ (fetchCohort 0).rcd.nstrand ≤ (s.getX 2).toNat % 65536 ∧ (s.getX 1).toNat % 65536 < (fetchCohort 0).rcd.nstrand ∧
       (fetchCohort 0).st = .resident ∧ (fetchCohort 0).planes[(s.getX 1).toNat % 65536]? = some 0) ∧
    ({ userX 0xFFFF0000 0 0 with cohorts := [] }.cohort? 0 = none) ∧
    (65536 ≤ ((userX 0x100000000 0 0).getX 1).toNat / 65536 ∧ (userX 0x100000000 0 0).trapReady) := by
  unfold State.trapReady State.mayTrap; decide +kernel

theorem meets_ControlRegisters :
    (super.me.level = .s ∧ super.me.vq = []) ∧ (user.me.level = .u ∧ user.trapReady) ∧
    (userWith fun p => { p with vq := [queued 0xA8000001] }).me.vq ≠ [] ∧
    (let s := userWith fun p => { p with wait := some (.fcsr (some 1) .fcsr (some 5)) }
     s.waitOf 0 = some (.fcsr (some 1) .fcsr (some 5)) ∧ (s.plane 0).vq = []) := by
  unfold State.trapReady State.mayTrap; decide +kernel

/-- A handler that no trap holds, a privileged instruction at U level, and a strand without a handler. -/
theorem meets_TrapsTaken :
    (user.trapReady ∧ user.me.level = .u) ∧
    (let s := userWith fun p => { p with tvec := 0 }
     abortable s ∧ ¬ s.mayTrap) := by
  unfold abortable State.trapReady State.mayTrap State.aloneInCohort State.loneCohort; decide +kernel

/-- Resume entries with room for them, and with none; queues empty and not; a slot that ends and one that does not. -/
theorem meets_ReturnAndHalt :
    (let s := super.modMe fun p => { p with resume := [queued 0xA8000001] }
     s.me.level = .s ∧ s.me.vq.length + s.me.resume.length ≤ 64) ∧
    (let s := super.modMe fun p => { p with resume := [queued 0xA8000001], vq := List.replicate 64 (queued 0xA8000001) }
     s.me.level = .s ∧ 64 < s.me.vq.length + s.me.resume.length) ∧
    user.me.vq = [] ∧ (userWith fun p => { p with vq := [queued 0xA8000001] }).me.vq ≠ [] ∧
    ({ user with cycle := 512 }).slotEnds 0 = true ∧ user.slotEnds 0 = false := by decide +kernel

/-- One word for each form: ADDI, LD.B, ST.D, FLDW, FSTD, VADD with an immediate, VADD with X1, FLDW to F16, SHI. -/
theorem meets_PrefixedForms :
    fldOp 0x08200001 = 0x02 ∧ (fldOp 0x24410000 = 0x09 ∧ Size.ofCode? ((fldImm 0x24410000).extractLsb' 14 2) = some .b) ∧
    (fldOp 0x2C41C000 = 0x0B ∧ Size.ofCode? ((fldImm 0x2C41C000).extractLsb' 14 2) = some .d) ∧
    (fldOp 0x30410000 = 0x0C ∧ (fldD 0x30410000).getLsbD 4 = false ∧ Size.ofCode? ((fldImm 0x30410000).extractLsb' 14 2) = some .b) ∧
    (fldOp 0x3041C000 = 0x0C ∧ Size.ofCode? ((fldImm 0x3041C000).extractLsb' 14 2) = some .d) ∧
    (decodeWord 0x88210020 = some (.vaddVs 2 4 0 0 true) ∧ fldOp 0x88210020 = 0x22 ∧ fldSi 0x88210020 = 1) ∧
    (fldOp 0x88210200 = 0x22 ∧ fldSi 0x88210200 = 0) ∧ (fldOp 0x32010000 = 0x0C ∧ (fldD 0x32010000).getLsbD 4 = true) ∧
    fldOp 0x20210001 ∉ [(0x02 : BitVec 6), 0x03, 0x04, 0x05, 0x06, 0x07, 0x09, 0x0A, 0x0B, 0x0C, 0x14, 0x22] ∧
    (let s := userX 0x3FFFFFF8 0 0
     s.noConflict 0x3FFFFFF8 8 .read ∧ s.noConflict 0x3FFFFFF8 8 .write ∧ oks (s.read s.myAgent 0x3FFFFFF8 8 .read) ∧
       oks (s.write s.myAgent 0x3FFFFFF8 8 5 .write)) := by
  unfold State.noConflict; decide +kernel

/-- A translation of the first page of the map that a stream of this plane holds, and one that an operation holds. -/
def heldOne : Held := ⟨.scalar, 0, 0x40000000, 0, false, true, true, true, true, 0x200000⟩
def frameOne : XFrame := ⟨0, 0, false, 0x40000000, 0x200000, false⟩
/-- No operation holds a translation; one does; one of an evicted strand does, and one of a context that CTXSV saved; the page of the map is
translated, for the scalar port and for the vector instruction at the head of the queue. -/
theorem meets_TranslationMaintenance :
    (let s := super.modMe fun p => { p with held := [heldOne] }
     s.me.level = .s ∧ (∀ o ∈ s.ops, OpKind.holds o.kind = []) ∧ (∀ r ∈ s.routes, r.xl = []) ∧ s.suspended = []) ∧
    (let s := { super with ops := [⟨0, 2, 1, .copy (.fill 0 0 64) [frameOne]⟩] }
     ∃ o ∈ s.ops, ∃ x ∈ o.kind.holds, x.root = rootOf s.me.xroot ∧ x.span ≠ 0) ∧
    (let e : EngCtx := ⟨super.plane 4, [⟨4, 2, 1, .copy (.fill 0 0 64) [frameOne]⟩], []⟩
     let s := { super with parked := [e, e], cohorts := [{ fetchCohort 0 with num := 3, st := .evicted, planes := [4], bases := [0], saved := [0] }] }
     (∃ y ∈ s.suspended, y.1 = 4 ∧ ∃ o ∈ y.2.ops, ∃ x ∈ o.kind.holds, x.span ≠ 0) ∧
       1 ∉ (s.cohorts.filter fun k => k.st == .evicted).flatMap (·.saved)) ∧
    (super.refillAsks 0 0x3FFFFFFF = (.scalar, 0x200000) ∧ (super.plane 0).st ≠ .free ∧
       oksWith (fun l => super.formOf l.frame == l.form) (super.walk 0x3FFFFFFF 5 4 0x200000)) ∧
    (let s := super.modMe fun p => { p with vq := [{ queued 0x9C828000 with tag := .s64, vl := 1, qpos := 9, xa := 0x3FFFFFF8 }] }
     s.refillAsks 0 0x3FFFFFF8 = (.vector 9, 0x200000)) := by
  decide +kernel

theorem meets_TagTable :
    (let s := (userX 0x5 0 0xFF).modMe fun p => { p with tags := p.tags.set 3 0x8001000000000005 }
     (s.me.tags.get 3).getLsbD 63 = true ∧ (s.me.tags.get 3).extractLsb' 0 48 = (s.getX 1).extractLsb' 0 48 ∧ s.me.tags.get 2 = 0 ∧ (s.getX 3).toNat < 256) ∧
    (∀ j : Fin 256, (user.me.tags.get j).getLsbD 63 = false) ∧
    (256 ≤ ((userX 0x100 0 0).getX 1).toNat ∧ (userX 0x100 0 0).trapReady) := by
  unfold State.trapReady State.mayTrap; decide +kernel

/-! ### Witnesses: vector instructions -/

/-- The vector unit is ready, no stream being bound. -/
def ready (s : State) : Bool := decide (s.vlag = false ∧ s.me.vq = [] ∧ s.me.en = 0 ∧ s.me.streams = Vector.replicate 16 none)
theorem ready_vecReady {s : State} (h : ready s = true) : s.vecReady := by
  obtain ⟨h1, h2, h3, k⟩ := of_decide_eq_true h
  refine ⟨h1, h2, h3, fun i => ?_⟩
  rw [k]
  by_cases hi : i < 16 <;> simp [hi]

/-- A read with nothing pending, by a plane that holds no translation, leaves the state. -/
theorem read_same {s : State} (h : s.pend = []) {ag : Agent} (g : (s.plane ag.plane).held = []) {va : Word} {n v : Nat} {acc : Acc}
    (k : gives v (s.read ag va n acc) = true) : s.read ag va n acc = .ok (v, s) := by
  obtain ⟨t, ht⟩ := gives_ok k
  have l : s.leavePage ag va.toNat n = s := by unfold State.leavePage; split <;> simp [g]
  rw [ht]
  unfold State.read at ht
  split at ht
  · cases ht
  · simp only [l, State.pressTouch, State.applyKeys, h, List.any_nil, Bool.false_eq_true, if_false] at ht
    split at ht
    · cases ht
    · cases ht; rfl

/-- Whether a value is finite. -/
def isFin : FVal → Bool
  | .fin _ _ _ => true
  | _ => false
theorem isFin_fin {v : FVal} (h : isFin v = true) : ∃ n q e, v = .fin n q e := by
  match v, h with
  | .fin n q e, _ => exact ⟨n, q, e, rfl⟩

/-- A strand whose current tag is t, with VL and log2 G, every vector register zero and tagged u. -/
def vec (t u : Tag) (lg : BitVec 2) (vl : Nat) : State :=
  userWith fun p => { p with tag := t, lg := lg, vl := vl, v := Vector.replicate 64 ⟨0, 0, u⟩, x := (p.x.set 1 0x3FFFFFF8).set 2 8 }
/-- The same with registers from r retagged. -/
def retag (s : State) (r n : Nat) (t : Tag) : State :=
  s.modMe fun p => { p with v := Vector.ofFn fun i => if r ≤ i.val ∧ i.val < r + n then ⟨0, 0, t⟩ else p.v[i] }

/-- The premises of the vector clauses of OperandChecks. -/
def checks (s : State) : Bool := decide (s.me.vq = [] ∧ s.me.tvec ≠ 0 ∧ tstatInh s.me.tstat = false ∧ s.me.wait = none ∧ s.me.streams = Vector.replicate 16 none)
/-- Groups misaligned, of unequal tags, of NONE, of a tag not of the function, under a VL above VLMAX; a block tag for a VS form; an addend of
another tag; a reserved RM; conversions that widen and narrow over their source; a load and a store. -/
theorem meets_OperandChecks_vector :
    (let s := vec .s32 .s32 1 257
     checks s ∧ (1 : VReg).toNat % s.vgroup ≠ 0 ∧ (2 : VReg).toNat % s.vgroup = 0 ∧ s.me.holds 2 s.vgroup .s32 ∧ ¬ s.me.vl ≤ s.vgroup * (4096 / 32) ∧
       tagIsF .s32 = false ∧ (Tag.s32 == .m32) = false) ∧
    (let s := retag (vec .s32 .s32 1 256) 4 2 .z32
     checks s ∧ s.me.holds 2 s.vgroup .s32 ∧ ¬ s.me.holds 4 s.vgroup .s32 ∧ (s.me.vreg 6).tag = .s32 ∧ (s.me.vreg 4).tag ≠ .s32 ∧
       ¬ (Tag.s32 ∈ [Tag.bf16, .fp16] ∧ (s.me.vreg 4).tag = .fp32)) ∧
    (checks (vec .s32 .none 1 256) ∧ ((vec .s32 .none 1 256).me.vreg 2).tag = .none) ∧ (checks (vec .q4 .q4 0 1024) ∧ tagIsQB .q4 = true) ∧
    (let s := (vec .fp32 .fp32 1 128).modMe fun p => { p with fcsr := 7 }
     checks s ∧ 5 ≤ s.me.rm.toNat ∧ tagIsF .fp32 = true ∧ s.me.holds 2 s.vgroup .fp32 ∧ s.me.vl ≤ s.vgroup * (4096 / max 32 64) ∧ 1 < s.vgroup ∧
       tagWidth .fp64 = 2 * 32 ∧ s.me.holds 2 (s.vgroup / 2) .fp32 ∧ groupsMeet 2 s.vgroup 2 (s.vgroup / 2) = true ∧
       tagWidth .fp16 * 2 = 32 ∧ (3 : VReg).toNat % (s.vgroup / 2) = 0 ∧ groupsMeet 3 (s.vgroup / 2) 2 s.vgroup = true ∧ (3 : VReg) ≠ 2) ∧
    (let s := vec .s32 .z32 1 257
     checks s ∧ (1 : VReg).toNat % s.vgroup ≠ 0 ∧ s.vgroup * (4096 / tagWidth s.me.tag) < s.me.vl ∧ ¬ s.me.holds 2 s.vgroup s.me.tag) ∧
    (checks (vec .none .s32 1 0) ∧ (vec .none .s32 1 0).me.tag = .none) := by
  unfold Plane.holds
  and_intros <;> decide +kernel

/-- Whether exec answers a next state of which p holds. -/
def answers (p : State → Bool) (i : Instr) (s : State) : Bool := match exec i s with
  | .next t => p t
  | _ => false
theorem answers_next {p : State → Bool} {i : Instr} {s : State} (h : answers p i s = true) : ∃ t, exec i s = .next t ∧ p t = true := by
  unfold answers at h
  split at h
  · exact ⟨_, by assumption, h⟩
  · cases h
/-- 1 / 0 in FP32, with a flag enabled. -/
def dividing (en : Word) : State := (retag (vec .fp32 .fp32 0 1) 2 1 .fp32).modMe fun p => { p with v := p.v.set 2 ⟨0x3F800000, 0, .fp32⟩, fcsr := 0x01000000 ||| en }
/-- A VDIV by zero that newly raises DZ, enabled, and one of which only NV is enabled. -/
theorem meets_TrapsTaken_vector :
    ([((0x20000 : Word), (2 : Flags), true), (0x10000, 0, false)].all fun x => let s := dividing x.1
      decide (encode (.vdiv 4 2 6 0) = [encodeLast (.vdiv 4 2 6 0)] ∧ 0x21 ≤ (fldOp (encodeLast (.vdiv 4 2 6 0))).toNat ∧ (fldOp (encodeLast (.vdiv 4 2 6 0))).toNat ≤ 0x25 ∧ s.vlag = false ∧
        s.me.tvec ≠ 0 ∧ tstatInh s.me.tstat = false ∧ s.me.vq = [] ∧ s.me.streams = Vector.replicate 16 none ∧
        answers (fun t => t.me.pc == s.pc4 && t.me.st == t.me.awake && t.me.wait == none &&
          (List.range 8).all (fun k => x.2.1.getLsbD k == (s.me.en.getLsbD k && t.me.fexOf k != 0)) &&
          (s.me.en &&& t.me.raised &&& ~~~s.me.raised != 0) == x.2.2) (.vdiv 4 2 6 0) (s.modMe fun p => { p with fcsr := p.fcsr &&& ~~~0xFF0000 }) = true)) = true := by
  decide +kernel

/-- A VADD on an immediate of floating-point elements whose imm5 is not zero, and one of integer elements. -/
theorem meets_PrefixedForms_vector :
    decodeWord 0x88210020 = some (.vaddVs 2 4 0 0 true) ∧ decodeWord 0x88210220 = some (.vaddVs 2 4 1 0 true) ∧ fldOp 0x88210220 = 0x22 ∧ fldSi 0x88210220 = 1 ∧
    (fldVfn 0x88210220).toNat ≠ 31 ∧ fldXb 0x88210220 ≠ 0 ∧
    (∀ t ∈ [Tag.fp32, .fp16], checks (vec t t 0 1) ∧ (tagFp? ((vec t t 0 1).me.vreg (fldVa 0x88210220).toNat).tag).isSome = true) := by decide +kernel

/-- An address of a granule of the partition, and blocks that can be scanned; an address outside scratchpad; blocks past the partition's end; a
poisoned granule in the second of two blocks; more than 8,192 blocks. -/
theorem meets_GranulesAndScans :
    (let s := userX 0x800000000000FF00 1 8193
     Memory.wf s.mem = true ∧ oksWith (fun ps => ps.length == 1) (s.places s.myAgent .read true 1 (s.getX 1).toNat none) ∧
       oksWith (fun ps => ps.map (·.kind) == [.spad]) (s.places s.myAgent .write true 1 (s.getX 1).toNat none) ∧
       s.noConflict (s.getX 1 &&& ~~~15) 16 .read ∧ s.noConflict (s.getX 1 &&& ~~~15) 16 .write ∧ s.releaseReady = true ∧ 8192 < (s.getX 3).toNat ∧
       s.trapReady ∧ (s.getX 2).toNat ≤ 8192 ∧
       oksWith (fun bs => bs.all fun ps => oks (s.readPlaces 0 ps)) (s.scanBlocks ((s.getX 1).toNat / 256 * 256) (s.getX 2).toNat none) ∧
       s.noConflict (BitVec.ofNat 64 ((s.getX 1).toNat / 256 * 256)) 256 .read) ∧
    (let s := userX 0x1000 1 0
     s.trapReady ∧ faults (s.places s.myAgent .read true 1 (s.getX 1).toNat none) ∧ faults (s.places s.myAgent .write true 1 (s.getX 1).toNat none)) ∧
    (let s := userX 0x800000000000FF00 2 0
     s.trapReady ∧ (s.getX 2).toNat ≤ 8192 ∧ faults (s.scanBlocks ((s.getX 1).toNat / 256 * 256) (s.getX 2).toNat none)) ∧
    (let s := { userX 0x800000000000FE00 2 0 with poison := [coreSpad 0 + 0xFF10] }
     s.trapReady ∧ oksWith (fun bs => bs.map (fun ps => oks (s.readPlaces 0 ps)) == [true, false])
       (s.scanBlocks ((s.getX 1).toNat / 256 * 256) (s.getX 2).toNat none)) := by
  unfold State.noConflict State.trapReady State.mayTrap; decide +kernel

theorem meets_VectorIntegerElements :
    let s := vec .s32 .s32 1 256
    ready s ∧ tagIsInt .s32 = true ∧ s.me.holds 62 s.vgroup .s32 ∧ s.me.holds 0 s.vgroup .s32 ∧ (2 : VReg).toNat % s.vgroup = 0 ∧
      s.me.vl ≤ s.vgroup * (4096 / tagWidth .s32) := by
  unfold Plane.holds; decide +kernel

theorem meets_VectorFloatElements :
    let s := vec .fp32 .fp32 1 256
    ready s ∧ tagIsF .fp32 = true ∧ (tagFp? .fp32).map (·.width) = some 32 ∧ dynMode? s.me.rm = some .rne ∧ s.me.holds 62 s.vgroup .fp32 ∧
      s.me.holds 0 s.vgroup .fp32 ∧ (2 : VReg).toNat % s.vgroup = 0 ∧ s.me.vl ≤ s.vgroup * (4096 / tagWidth .fp32) ∧ tagIsZ .z32 = true ∧
      tagWidth .z32 = tagWidth .fp32 := by
  unfold Plane.holds; decide +kernel

theorem meets_VectorMovesAndModular :
    (let s := vec .m32 .m32 0 128
     ready s ∧ Tag.m32 ≠ .none ∧ tagIsQB .m32 = false ∧ (63 : VReg).toNat % s.vgroup = 0 ∧ s.me.vl ≤ s.vgroup * (4096 / tagWidth .m32) ∧
       s.me.holds 63 s.vgroup .m32 ∧ 0 < s.me.modulus) ∧
    (∀ t ∈ [Tag.z32, .fp32], let s := vec t t 0 128
     ready s ∧ t ≠ .none ∧ tagIsQB t = false ∧ s.me.vl ≤ s.vgroup * (4096 / tagWidth t) ∧ s.me.holds 63 s.vgroup t ∧ s.me.holds 1 s.vgroup t ∧
       (tagIsInt t = true ∨ (tagFp? t).isSome = true ∧ dynMode? s.me.rm = some .rne)) ∧
    (let s := retag (vec .fp32 .fp32 1 256) 4 2 .bf16
     ready s ∧ s.me.holds 4 1 .bf16 ∧ s.me.holds 5 1 .bf16 ∧ s.me.holds 0 2 .fp32 ∧ groupsMeet 0 2 4 1 = false ∧ 1 < s.vgroup ∧
       (tagFp? .bf16).map (·.width) = some 16 ∧ dynMode? s.me.rm = some .rne) := by
  unfold Plane.holds; decide +kernel

/-- VL at its greatest; M1 with its last bit below VL only, and with none. -/
theorem meets_VectorMasks :
    (let s := vec .z8 .z8 3 4096
     ready s ∧ s.me.vl ≤ 8192 ∧ s.me.holds 56 s.vgroup .z8 ∧ s.me.vl ≤ s.vgroup * (4096 / tagWidth .z8)) ∧
    (let s := vec .fp32 .fp32 0 128
     ready s ∧ s.me.holds 63 s.vgroup .fp32 ∧ tagIsF .fp32 = true) ∧
    (let s := vec .m32 .m32 0 128
     ready s ∧ s.me.holds 63 s.vgroup .m32 ∧ s.me.holds 0 s.vgroup .m32 ∧ s.me.vl ≤ s.vgroup * (4096 / tagWidth .m32)) ∧
    (let s := (vec .z8 .z8 0 4).modMe fun p => { p with m := p.m.set 1 8 }
     (3 < s.me.vl ∧ (s.me.maskBit 0 3 && s.me.maskBit 1 3) = true ∧ ∀ j, j < 3 → (s.me.maskBit 0 j && s.me.maskBit 1 j) = false)) ∧
    (let s := vec .z8 .z8 0 4
     ∀ j, j < s.me.vl → (s.me.maskBit 0 j && s.me.maskBit 1 j) = false) := by
  unfold Plane.holds; decide +kernel

/-- The premises of the floating-point reductions of VectorReductions: element 0 tagged u, groups of ga registers of terms tagged t. -/
def reduces (s : State) (t u : Tag) (ga : Nat) : Prop :=
  ready s ∧ (8 : VReg).toNat % s.vgroup = 0 ∧ (s.me.vreg 8).tag = u ∧ s.me.holds 16 (max 1 ga) t ∧ s.me.holds 24 (max 1 ga) t ∧
    s.me.vl ≤ s.vgroup * (4096 / tagWidth u) ∧ (s.activeOn 0).length = s.me.vl
/-- Integers, VDOT of integers and of every floating-point form, VREDSUM of FP64, FP32 and FP16, and VXACC of one product of zeros. -/
theorem meets_VectorReductions :
    (let s := vec .z32 .z32 1 256
     ready s ∧ (62 : VReg).toNat % s.vgroup = 0 ∧ s.me.holds 62 s.vgroup .z32 ∧ s.me.vl ≤ s.vgroup * (4096 / tagWidth .z32)) ∧
    (let s := vec .fp32 .fp32 1 256
     ready s ∧ (tagFp? .fp32).map (·.width) = some 32 ∧ s.me.holds 62 s.vgroup .fp32 ∧ (s.me.vreg 8).tag = .fp32) ∧
    reduces (retag (vec .s8 .s8 2 512) 8 4 .s32) .s8 .s32 1 ∧ reduces (vec .z64 .z64 1 128) .z64 .z64 2 ∧
    reduces (vec .fp64 .fp64 0 64) .fp64 .fp64 1 ∧ reduces (vec .fp32 .fp32 0 0) .fp32 .fp32 1 ∧
    reduces (retag (vec .fp16 .fp16 1 256) 8 2 .fp32) .fp16 .fp32 1 ∧ reduces (retag (vec .bf16 .bf16 0 128) 8 1 .fp32) .bf16 .fp32 0 ∧
    reduces (retag (vec .e4m3 .e4m3 2 512) 8 4 .fp32) .e4m3 .fp32 1 ∧ reduces (retag (vec .q4 .q4 3 1024) 8 8 .fp32) .q4 .fp32 1 ∧
    (let s := vec .fp64 .fp64 0 1
     dynMode? s.me.rm = some .rne ∧ s.me.xacSt = .fin ∧ s.activeOn 0 = [0] ∧ isFin (Fp.fp64.value (s.me.lane 0 64 0).toNat) = true ∧
       (s.me.xac.toInt : Rat) + 0 > -(2 ^ 4351) ∧ (s.me.xac.toInt : Rat) + 0 < 2 ^ 4351) := by
  unfold reduces Plane.holds
  and_intros <;> decide +kernel

/-- The premises of VectorConversions, for a destination at d and a source at 16. -/
def converts (s : State) (t u : Tag) (d : VReg) : Prop :=
  let g := s.vgroup
  let w := tagWidth t
  let v := tagWidth u
  let ga := max 1 (g * w / max w v)
  let gd := max 1 (g * v / max w v)
  ready s ∧ dynMode? s.me.rm = some .rne ∧ s.me.holds 16 ga t ∧ d.toNat % gd = 0 ∧ s.me.vl ≤ g * (4096 / max w v) ∧
    (groupsMeet d.toNat gd 16 ga = false ∨ gd = ga ∨ (v < w ∧ d = 16))
/-- Sources and destinations apart; a destination of the same number of registers over the source, and a narrower one at its first register;
second operands for VSCALE, VPACKS and VQUANT. -/
theorem meets_VectorConversions :
    (let s := vec .fp32 .fp32 1 256
     converts s .fp32 .fp16 8 ∧ converts s .fp32 .s16 8 ∧ converts s .fp32 .s32 8 ∧ converts s .fp32 .b16 8 ∧ converts s .fp32 .q4 8 ∧
       converts s .fp32 .fp16 16) ∧
    (let s := vec .s32 .s32 1 128
     converts s .s32 .fp64 8 ∧ converts s .s32 .z16 8 ∧ converts s .s32 .fp32 8 ∧ converts s .s32 .fp32 16) ∧
    converts (vec .fp16 .fp16 0 256) .fp16 .bf16 8 ∧ converts (vec .fp32 .fp32 0 64) .fp32 .fp64 16 ∧ converts (vec .q4 .q4 3 1024) .q4 .fp32 8 ∧ converts (vec .b16 .b16 1 256) .b16 .fp32 8 ∧
    (let s := retag (vec .fp32 .fp32 1 256) 24 2 .s32
     converts s .fp32 .s32 8 ∧ s.me.holds 24 s.vgroup .s32) ∧
    (let s := vec .z16 .z16 1 512
     converts s .z16 .z8 8 ∧ s.me.holds 24 s.vgroup .z16 ∧ (8 : VReg).toNat % s.vgroup = 0) ∧
    (let s := retag (vec .fp32 .fp32 1 256) 24 1 .z8
     converts s .fp32 .q4 8 ∧ (s.me.vreg 24).tag = .z8) := by
  unfold converts Plane.holds
  and_intros <;> decide +kernel

theorem meets_VectorPermutations :
    let s := vec .z32 .z32 1 256
    ready s ∧ Tag.z32 ≠ .none ∧ tagIsQB .z32 = false ∧ (8 : VReg).toNat % s.vgroup = 0 ∧ s.me.vl ≤ s.vgroup * (4096 / tagWidth .z32) ∧
      s.me.holds 16 s.vgroup .z32 ∧ 0 < (s.getX 2).toNat ∧ s.me.vl % (s.getX 2).toNat = 0 ∧ s.me.vl % 2 = 0 ∧ 1 < s.vgroup ∧ s.me.holds 24 s.vgroup .z32 ∧
      s.me.holds 16 (s.vgroup / 2) .z32 ∧ s.me.holds 25 (s.vgroup / 2) .z32 ∧ s.me.holds 8 s.vgroup .z32 ∧ s.me.tag = .z32 := by
  unfold Plane.holds; decide +kernel

/-- The agent of the vector instruction that the strand issues next. -/
def vagent (s : State) : Agent := s.vecAgent s.me.qnext
/-- One element at the last dword of the map; two, of which the second lies beyond it; one in the partition, FULL; a mark of 9 for a range from 8. -/
theorem meets_VectorLoads :
    (let s := { vec .z64 .z64 0 1 with wms := Vector.replicate 64 ⟨0, 9, []⟩ }.modMe fun p => { p with level := .s }
     ready s ∧ s.pend = [] ∧ (8 : VReg).toNat % s.vgroup = 0 ∧ s.me.vl ≤ s.vgroup * (4096 / tagWidth .z64) ∧
       gives 0 (s.read (vagent s) (s.getX 1 + BitVec.ofNat 64 (0 * 8)) 8 .read) ∧ (s.getX 1).toNat % 8 = 0 ∧ s.mayConsume s.cur 5 = true ∧
       (s.getX 2).toNat + 0 < (s.wm 5).mark ∧ s.me.holds 16 s.vgroup .z64 ∧ s.me.lane 16 64 0 = 0 ∧ 0 + 8 ≤ (s.getX 2).toNat * 8 ∧
       (8 : VReg).toNat + ((0 : BitVec 3).toNat + 1) * s.vgroup ≤ 64 ∧ s.me.holds (8 + BitVec.ofNat 6 (0 * s.vgroup)) s.vgroup .z64) ∧
    (let s := vec .z64 .z64 0 2
     ready s ∧ s.pend = [] ∧ s.me.tvec ≠ 0 ∧ tstatInh s.me.tstat = false ∧ 1 < s.me.vl ∧ s.me.maskBit 1 0 = false ∧ s.me.maskBit 0 1 = true ∧
       gives 0 (s.read (vagent s) (s.getX 1 + BitVec.ofNat 64 (0 * 8)) 8 .read) ∧ faults (s.read (vagent s) (s.getX 1 + BitVec.ofNat 64 (1 * 8)) 8 .read)) ∧
    (let s := { (vec .z64 .z64 0 1).modMe fun p => { p with x := p.x.set 1 0x8000000000000008 } with full := [coreSpad 0 / 16] }
     ready s ∧ s.pend = [] ∧ (s.getX 1).toNat % 8 = 0 ∧ (s.getX 1).toNat + s.me.vl * 8 < 2 ^ 64 ∧
       oksWith (fun ps => decide (∀ p ∈ ps, p.kind = .spad ∧ s.feGet p = true) && oks (s.readPlaces (s.getX 1).toNat ps))
         (s.places (vagent s) .read true 8 (s.getX 1 + BitVec.ofNat 64 (0 * 8)).toNat none)) := by
  unfold Plane.holds; decide +kernel

/-- A block of Q4 at the end of the map, and one of B16 beyond it; an element that is poisoned. -/
theorem meets_VectorLoads_blocks :
    (let s := (vec .q4 .q4 0 32).modMe fun p => { p with x := p.x.set 1 0x3FFFFDE0 }
     ready s ∧ s.pend = [] ∧ tagIsQB s.me.tag = true ∧ (s.getX 1).toNat % 8 = 0 ∧ s.me.vl ≤ s.vgroup * (4096 / tagWidth .q4) ∧ (s.me.vl + 1024 - 1) / 1024 = 1 ∧
       gives 0 (s.read (vagent s) (s.getX 1) (1 * 16) .read) ∧ gives 0 (s.read (vagent s) (s.getX 1 + BitVec.ofNat 64 512) 1 .read)) ∧
    (let s := (vec .b16 .b16 1 512).modMe fun p => { p with x := p.x.set 1 0x40000000 }
     ready s ∧ s.pend = [] ∧ s.me.tvec ≠ 0 ∧ tstatInh s.me.tstat = false ∧ tagIsQB s.me.tag = true ∧ (s.getX 1).toNat % 8 = 0 ∧ (s.me.vl + 256 - 1) / 256 = 2 ∧
       faults (s.read (vagent s) (s.getX 1) (8 * 64) .read)) ∧
    (let s := spoilt (vec .z64 .z64 0 1)
     ready s ∧ s.me.tvec ≠ 0 ∧ tstatInh s.me.tstat = false ∧ poisons (s.read (vagent s) (s.getX 1 + BitVec.ofNat 64 (0 * 8)) 8 .read)) := by
  decide +kernel

/-- A superblock of B16 that is stored; one store of two elements, of which the second lies beyond the map. -/
theorem meets_VectorStores_blocks :
    (let s := (vec .b16 .b16 0 20).modMe fun p => { p with x := p.x.set 1 0x3FFFFDF8 }
     ready s ∧ s.pend = [] ∧ s.me.tag ≠ .none ∧ s.me.holds 8 s.vgroup .b16 ∧ tagIsQB s.me.tag = true ∧ (s.getX 1).toNat % 8 = 0 ∧ (s.me.vl + 256 - 1) / 256 = 1 ∧
       oks (s.places (vagent s) .write false (1 * 64) (s.getX 1).toNat none) ∧ oks (s.places (vagent s) .write false 1 (s.getX 1 + BitVec.ofNat 64 512).toNat none) ∧
       oksWith (fun u => oks (u.write (vagent s) (s.getX 1 + BitVec.ofNat 64 512) 1 (s.me.vreg 8).side.toNat .write))
         (s.write (vagent s) (s.getX 1) (1 * 64) ((s.me.vreg 8).data.toNat % 2 ^ (20 * 16)) .write)) ∧
    (let s := vec .z64 .z64 0 2
     ready s ∧ s.me.tvec ≠ 0 ∧ tstatInh s.me.tstat = false ∧ s.me.holds 8 s.vgroup .z64 ∧ 1 ∈ s.activeOn 0 ∧
       oks (s.places (vagent s) .write false 8 (s.getX 1 + BitVec.ofNat 64 (0 * 8)).toNat none) ∧
       faults (s.places (vagent s) .write false 8 (s.getX 1 + BitVec.ofNat 64 (1 * 8)).toNat none) ∧
       oks (s.write (vagent s) (s.getX 1 + BitVec.ofNat 64 (0 * 8)) 8 (s.me.elem (8 + 0 * s.vgroup) 64 0) .write)) := by
  unfold Plane.holds; decide +kernel

/-- One element at the last dword of the map, one in the partition. -/
theorem meets_VectorStores :
    (let s := (vec .z64 .z64 0 1).modMe fun p => { p with level := .s, x := p.x.set 2 0 }
     ready s ∧ s.pend = [] ∧ s.me.holds 8 s.vgroup .z64 ∧ s.me.vl ≤ s.vgroup * (4096 / tagWidth .z64) ∧ (s.getX 1).toNat % 8 = 0 ∧
       s.mayPublish s.cur 5 = true ∧ (s.wm 5).mark < 2 ^ 48 ∧ (s.getX 2).toNat ≤ (s.wm 5).mark ∧ (s.wm 5).ranges = [] ∧ s.me.holds 16 s.vgroup .z64 ∧
       s.me.lane 16 64 0 = 0 ∧ s.activeOn 0 = [0] ∧ oks (s.places (vagent s) .write false 8 (s.getX 1 + BitVec.ofNat 64 (0 * 8)).toNat none) ∧
       oks (s.write (vagent s) (s.getX 1 + BitVec.ofNat 64 (0 * 8)) 8 (s.me.elem (8 + 0 * s.vgroup) 64 0) .write)) ∧
    (let s := (vec .z64 .z64 0 1).modMe fun p => { p with x := p.x.set 1 0x8000000000000008 }
     (s.getX 1).toNat % 8 = 0 ∧ (s.getX 1).toNat + s.me.vl * 8 < 2 ^ 64 ∧
       oksWith (fun ps => decide (∀ p ∈ ps, p.kind = .spad) && oksWith (fun u =>
           oksWith (fun qs => qs == ps) (u.places (vagent s) .write true 8 (s.getX 1 + BitVec.ofNat 64 (0 * 8)).toNat none))
           (s.write (vagent s) (s.getX 1 + BitVec.ofNat 64 (0 * 8)) 8 0 .write))
         (s.places (vagent s) .write true 8 (s.getX 1 + BitVec.ofNat 64 (0 * 8)).toNat none)) := by
  unfold Plane.holds; decide +kernel

/-! ### Witnesses: the Press, the queue and the copy engine -/

/-- A region of S64 at address 0, entry 3, of the cohort. -/
def region3 (op : Nat) (eager : Bool) : Region := ⟨0, 0x200000, 0, 2, .s64, op, eager, [0]⟩
/-- A strand with S64 registers of zeros, region 3, and X5 its stream word on T1, X6 the same without a region. -/
def pressing (op : Nat) (eager : Bool) : State :=
  let s := (vec .s64 .s64 0 1).modMe fun p => { p with x := (p.x.set 5 0x103).set 6 0x100 }
  { s with regions := s.regions.set 3 (some (region3 op eager)) }
/-- Pairs for a region, found by number or by address; a pair that the Press takes; an operation with none left; a flush that covers no update
left and one that does; regions that are EAGER and not. -/
theorem meets_PressUpdates :
    (let s := pressing 0 false
     ready s ∧ (s.getX 5).toNat < 4096 ∧ s.hasIssue (streamCounter (s.getX 5)) ∧ s.region? s.cur 3 = some (region3 0 false) ∧ Tag.s64 ≠ .none ∧
       s.pairHeld 0 1 .s64 .s64 ∧ s.activeOn 0 = [0] ∧ 0 ≤ s.me.index 0 .s64 0 ∧ s.me.index 0 .s64 0 < (region3 0 false).len ∧
       oks (s.frameOf (vagent s) 0 .write false) ∧ (s.getX 6).toNat % 256 = 0 ∧
       s.regionHolding (s.rootOfPlane s.cur) (s.me.elem 0 64 0) = some (3, region3 0 false) ∧ s.me.elem 0 64 0 % tagBytes .s64 = 0) ∧
    (let s := { pressing 0 false with ops := [⟨0, 1, 1, .upd (some 3) [⟨3, 0, 5, []⟩] true⟩] }
     s.op? 0 1 1 = some ⟨0, 1, 1, .upd (some 3) [⟨3, 0, 5, []⟩] true⟩ ∧ s.leesUsed (stackOf (0 % pkgSpan)) < s.leeSize ∧ s.pend.length < 256) ∧
    (let s := { pressing 0 false with ops := [⟨0, 1, 1, .upd (some 3) [] true⟩] }
     s.op? 0 1 1 = some ⟨0, 1, 1, .upd (some 3) [] true⟩) ∧
    (let s := { pressing 0 false with ops := [⟨0, 1, 2, .uflush 3 true [(1, 1)]⟩], pend := [⟨3, 0, [⟨5, 0, 1, 1, []⟩]⟩] }
     s.op? 0 1 2 = some ⟨0, 1, 2, .uflush 3 true [(1, 1)]⟩ ∧ s.MemInv ∧ s.op? 0 1 1 = none ∧ s.regions[3]? = some (some (region3 0 false)) ∧
       (region3 0 false).op = 0 ∧ tagIsInt (region3 0 false).tag = true ∧ s.pend.filter (fun k => k.reg == 3) = [⟨3, 0, [⟨5, 0, 1, 1, []⟩]⟩]) ∧
    (let s := { pressing 0 false with ops := [⟨0, 1, 1, .upd (some 3) [] true⟩, ⟨0, 1, 2, .uflush 3 true [(1, 1)]⟩] }
     s.op? 0 1 2 = some ⟨0, 1, 2, .uflush 3 true [(1, 1)]⟩ ∧ s.MemInv ∧ (s.op? 0 1 1).map (·.kind.updates 3) = some true) ∧
    (let s := { pressing 0 false with ops := [⟨0, 1, 1, .upd (some 3) [⟨3, 0, 5, []⟩] false⟩] }
     ready s ∧ (s.ops.filterMap fun o => match o.kind with
       | .upd _ ps done => if o.plane = s.cur ∧ (done = true ∨ ps ≠ []) then some (o.n, o.seq) else none
       | _ => none) = [(1, 1)] ∧ s.region? s.cur 3 = some (region3 0 false)) ∧
    ((pressing 0 true).regions[3]? = some (some (region3 0 true)) ∧ (pressing 0 false).regions[3]? = some (some (region3 0 false))) ∧
    (let s := { pressing 0 true with pend := [⟨3, 0, [⟨5, 0, 1, 1, []⟩]⟩, ⟨3, 8, [⟨6, 0, 1, 2, []⟩]⟩] }
     let sel (k : PendKey) : Bool := k.reg == 3 && k.pa / 4096 == 0
     Memory.wf s.mem = true ∧ s.pend.filter sel = s.pend ∧ (∀ k ∈ s.pend, s.regions[k.reg]? = some (some (region3 0 true))) ∧
       (s.pend.filter sel).Pairwise (fun x y => groupsMeet x.pa 8 y.pa 8 = false)) := by
  unfold State.hasIssue State.pairHeld Plane.holds State.MemInv
  and_intros <;> decide +kernel

/-- A window of one S64 element at 0x1000, one copy. -/
def window0 : Window := ⟨0x1000, 1, 0, .s64, 0, [[0]], 0, []⟩
/-- A strand with X1 at a descriptor placed at 0x300000. -/
def described (bytes : List Byte) : State :=
  ((vec .s64 .s64 0 1).modMe fun p => { p with x := (p.x.set 1 0x300000).set 3 3 }).physWrite 0x300000 bytes
/-- Table 23-6: BASE, N, LOGC, TAG, OP. -/
def windowBytes (n : Nat) : List Byte := leBytes 8 0x1000 ++ leBytes 2 n ++ [0, 7] ++ leBytes 4 0
/-- Table 23-1: BASE, LEN, TAG, OP, flags. -/
def regionBytes (base : Nat) : List Byte := leBytes 8 base ++ leBytes 8 1 ++ [7, 0] ++ leBytes 14 0

/-- A region at 64 KiB. -/
def regionB : Region := ⟨0, 0x200000, 0x10000, 1, .s64, 0, false, [0x10000]⟩
/-- What UMERGE reads and writes for one element: the location under the vector instruction's agent. -/
def merged (s : State) (w : Window) (f : Nat → Nat) : Except MemErr State :=
  (List.range w.n).foldlM (fun (u : State) k =>
    match u.read (vagent u) (w.base + BitVec.ofNat 64 (k * tagBytes w.tag)) (tagBytes w.tag) .read with
    | .ok (old, u) => u.write (vagent u) (w.base + BitVec.ofNat 64 (k * tagBytes w.tag)) (tagBytes w.tag) (f old) .write
    | .error e => .error e) s

/-- Windows with space and without; accumulation and merging; regions that do not meet, that meet, and with every entry in use; a release that no
update names, one that an update names, one that an update of an evicted strand names, one that waits; pairs that a release applies. -/
theorem meets_WindowsAndRegions :
    (let s := described (windowBytes 4096)
     let v := leNat (windowBytes 4096)
     ready s ∧ s.pend = [] ∧ gives v (s.read s.myAgent (s.getX 1) 16 .read) ∧ (s.getX 1).toNat % 8 = 0 ∧ s.me.window = none ∧
       v / 2 ^ 88 % 256 = (Tag.s64).code.toNat ∧ 1 ≤ v / 2 ^ 64 % 2 ^ 16 ∧ v / 2 ^ 64 % 2 ^ 16 ≤ 4096 ∧ v / 2 ^ 80 % 256 ≤ 5 ∧ v / 2 ^ 96 < 256 ∧
       windowPair .s64 (v / 2 ^ 96) = true ∧ v % 2 ^ 64 % tagBytes .s64 = 0 ∧ s.windowUsed (coreOf s.cur) + 32768 ≤ 65536) ∧
    (let crowded : Plane := { Plane.reset with st := .runnable, window := some ⟨0, 4096, 1, .s64, 0, [], 0, []⟩ }
     let s := { described (windowBytes 4096) with planes := (described (windowBytes 4096)).planes.set 1 crowded }
     65536 < s.windowUsed (coreOf s.cur) + 32768) ∧
    (let s := (vec .s64 .s64 0 1).modMe fun p => { p with window := some window0 }
     ready s ∧ s.me.window = some window0 ∧ s.pairHeld 0 1 .s64 .s64 ∧ window0.bad = [] ∧ window0.copies.length = 2 ^ window0.logc ∧
       (∀ y ∈ window0.copies, y.length = window0.n) ∧ oks (merged s window0 id)) ∧
    (let s := (vec .s64 .s64 0 1).modMe fun p => { p with window := some { window0 with bad := [0] } }
     ready s ∧ s.pairHeld 0 1 .s64 .s64 ∧ s.activeOn 0 = [0] ∧ s.me.index 0 .s64 0 = 0 ∧ s.me.tvec ≠ 0 ∧ tstatInh s.me.tstat = false ∧
       (0 * 1 + 0) * tagBytes .s64 / 16 ∈ [0]) ∧
    (let s := described (regionBytes 0)
     let v := leNat (regionBytes 0)
     gives v (s.read s.myAgent (s.getX 1) 32 .read) ∧ v / 2 ^ 128 % 256 = (Tag.s64).code.toNat ∧ v / 2 ^ 64 % 2 ^ 64 = 1 ∧ regionPair .s64 0 = true ∧
       v / 2 ^ 144 < 2 ∧ ([0] : List Nat).length = (0 % 65536 + 1 * tagBytes .s64 + 65535) / 65536 ∧
       oksWith (fun f => f.base == 0) (s.frameOf s.myAgent 0 .rmw false) ∧ 0 / pkgSpan = s.pkg ∧ areaOf (0 % pkgSpan) = .hbm ∧
       s.formOf 0 = 0 ∧ s.regions[0]? = some none ∧ s.regions.toList.all (·.isNone) = true) ∧
    (let s := { described (regionBytes 0) with regions := Vector.replicate 256 (some (region3 0 false)) }
     s.regions.toList.head? = some (some (region3 0 false)) ∧ (region3 0 false).overlaps (region3 0 false) = true) ∧
    (let s := { described (regionBytes 0) with regions := Vector.replicate 256 (some regionB) }
     s.regions.toList.all (· == some regionB) = true ∧ (region3 0 false).overlaps regionB = false ∧ ∀ k, k < 256 → s.regions[k]? ≠ some none) ∧
    (let s := { (pressing 0 false).modMe fun p => { p with x := p.x.set 1 3 } with pend := [⟨3, 0, [⟨5, 0, 1, 1, []⟩]⟩, ⟨3, 8, [⟨6, 0, 1, 2, []⟩]⟩] }
     ready s ∧ (s.getX 1).toNat < 256 ∧ s.region? s.cur 3 = some (region3 0 false) ∧ (∀ o ∈ s.ops, o.kind.updates 3 = false) ∧ s.suspended = [] ∧
       s.region? s.cur 4 = none ∧ Memory.wf s.mem = true ∧ s.keyBytes (fun k => k.reg == 3) = List.range 16) ∧
    (let s := { pressing 0 false with ops := [⟨0, 1, 1, .upd (some 3) [] true⟩] }
     s.region? s.cur 3 = some (region3 0 false) ∧ ∃ o ∈ s.ops, o.kind.updates 3 = true) ∧
    (let s := { pressing 0 false with parked := [⟨user.plane 4, [⟨4, 1, 1, .upd (some 3) [] true⟩], []⟩],
                                      cohorts := [{ fetchCohort 0 with num := 3, st := .evicted, planes := [4], bases := [0], saved := [0] }] }
     s.region? s.cur 3 = some (region3 0 false) ∧ ∃ y ∈ s.suspended, ∃ o ∈ y.2.ops, o.kind.updates 3 = true) ∧
    (let s := (pressing 0 false).modMe fun p => { p with wait := some (.regrel 1 3) }
     s.waitOf 0 = some (.regrel 1 3) ∧ s.region? 0 3 = some (region3 0 false) ∧ (∀ o ∈ s.ops, o.kind.updates 3 = false) ∧ s.suspended = []) := by
  unfold State.pairHeld Plane.holds
  and_intros <;> decide +kernel

/-- A strand whose vector queue holds the word of i, committed at position 0. -/
def holding (s : State) (i : Instr) : State :=
  s.modMe fun p => { p with vq := [s.entryOf (encodeLast i) none], qnext := 1 }
/-- The agent of that entry. -/
def older (s : State) : Agent := s.vecAgent (s.me.qnext - 1)
/-- That entry, as statements name it. -/
noncomputable def entry (s : State) (i : Instr) : VEntry := { s.entryOf (encodeLast i) none with qpos := s.me.qnext - 1 }
/-- No stream of the issuing plane is bound, and no flag traps. -/
def still (s : State) : Bool := decide (s.me.en = 0 ∧ s.me.streams = Vector.replicate 16 none)
/-- A plane asleep in a GCSLEEP of location 0, whose comparison value is 0. -/
noncomputable def watching (s : State) : State := (holding s (.gcsleep 1 0 1 0)).modMe fun p => { p with gcs := true, st := .asleep }

/-- A GCSLEEP whose location holds its value and one whose does not; a sleeper before a write to its line and after one; what an evaluation after
a write finds; an instruction queued while the unit lags, and performed; VLDW, VLDFE and VSTWM at the head of the queue. -/
theorem meets_VectorQueueWaits :
    (user.me.vq = [] ∧ (holding (vec .z64 .z64 0 1) .vdrain).me.vq ≠ []) ∧
    (let s := vec .z64 .z64 0 1
     ready s ∧ s.me.gcs = false ∧ s.me.gcsSeen = none ∧ s.me.holds 0 s.vgroup .z64 ∧ s.me.holds 1 (groupSize s.vgroup 64 64) .z64 ∧ s.me.vl ≤ s.vgroup * 64 ∧
       s.activeOn 0 = [0] ∧ s.me.elem 0 64 0 % tagBytes .z64 = 0 ∧ gives 0 (s.read (vagent s) (BitVec.ofNat 64 (s.me.elem 0 64 0)) 8 .read) ∧ 0 = s.me.elem 1 64 0) ∧
    (let s := (vec .z64 .z64 0 1).physWrite 0 [1]
     gives 1 (s.read (vagent s) (BitVec.ofNat 64 (s.me.elem 0 64 0)) 8 .read) ∧ 1 ≠ s.me.elem 1 64 0) ∧
    (let s := watching (vec .z64 .z64 0 1)
     s.me.vq = [entry s (.gcsleep 1 0 1 0)] ∧ s.me.gcs = true ∧ s.me.gcsSeen = none ∧ s.me.wait = none ∧ still s ∧
       gives 0 (s.read (older s) (BitVec.ofNat 64 (s.me.elem 0 64 0)) 8 .read)) ∧
    (let s := (watching (vec .z64 .z64 0 1)).modMe fun p => { p with gcsSeen := some 1 }
     s.me.gcsSeen = some 1 ∧ s.holdsSlot s.cur = true ∧ s.me.st = .asleep) ∧
    (let s := { (watching (vec .z64 .z64 0 1)).physWrite 0 [1] with watching := [0], wrote := [0] }
     s.watching = [s.cur] ∧ gives 1 (s.read (older s) (BitVec.ofNat 64 (s.me.elem 0 64 0)) 8 .read) ∧ 1 ≠ s.me.elem 1 64 0 ∧
       oksWith (fun ps => ps.map (fun p => p.pa / 64) == [0]) (s.places (older s) .read false 1 (s.me.elem 0 64 0) none) ∧ 0 ∈ s.wrote) ∧
    (let s := { watching (vec .z64 .z64 0 1) with watching := [0], wrote := [0x1000] }
     s.watching = [s.cur] ∧ gives 0 (s.read (older s) (BitVec.ofNat 64 (s.me.elem 0 64 0)) 8 .read) ∧
       oksWith (fun ps => ps.map (fun p => p.pa / 64) == [0]) (s.places (older s) .read false 1 (s.me.elem 0 64 0) none) ∧ 0 ∉ s.wrote) ∧
    (let s := (holding (vec .z64 .z64 0 2) (.vld 8 1 0)).modMe fun p => { p with vq := p.vq ++ [queued 0xA8000001] }
     s.me.vq = entry s (.vld 8 1 0) :: [queued 0xA8000001] ∧ s.me.tvec ≠ 0 ∧ tstatInh s.me.tstat = false ∧ still s ∧ s.me.gcs = false ∧ s.me.wait = none ∧
       s.holdsSlot s.cur = true ∧ s.me.st ≠ .free ∧ s.pend = [] ∧ s.activeOn 0 = [0, 1] ∧
       gives 0 (s.read (older s) (s.getX 1 + BitVec.ofNat 64 (0 * 8)) 8 .read) ∧ faults (s.read (older s) (s.getX 1 + BitVec.ofNat 64 (1 * 8)) 8 .read)) ∧
    (let s := { vec .s32 .s32 0 128 with vlag := true }
     s.vlag = true ∧ s.me.vq = [] ∧ still s ∧ s.me.holds 0 s.vgroup .s32 ∧ s.me.vl ≤ s.vgroup * (4096 / tagWidth .s32)) ∧
    (let s := holding (vec .s32 .s32 0 128) (.vadd 2 0 1 0)
     s.me.vq = [entry s (.vadd 2 0 1 0)] ∧ still s ∧ s.me.gcs = false ∧ s.holdsSlot s.cur = true ∧ s.me.st ≠ .free) ∧
    (let s := holding ({ vec .z64 .z64 0 1 with wms := Vector.replicate 64 ⟨0, 9, []⟩ }.modMe fun p => { p with level := .s }) (.vldw 8 1 5 0)
     s.pend = [] ∧ s.me.vq = [entry s (.vldw 8 1 5 0)] ∧ still s ∧ s.me.gcs = false ∧ s.holdsSlot s.cur = true ∧ (s.getX 1).toNat % 8 = 0 ∧
       (s.getX 1).toNat + s.me.vl * 8 < 2 ^ 64 ∧ gives 0 (s.read (older s) (s.getX 1 + BitVec.ofNat 64 (0 * 8)) 8 .read) ∧ s.mayConsume s.cur 5 = true ∧
       (s.getX 2).toNat + 0 < (s.wm 5).mark) ∧
    (let s := holding { (vec .z64 .z64 0 1).modMe fun p => { p with x := p.x.set 1 0x8000000000000008 } with full := [coreSpad 0 / 16] } (.vldfe 8 1 0 false)
     s.me.vq = [entry s (.vldfe 8 1 0 false)] ∧ still s ∧ s.me.gcs = false ∧ gives 0 (s.read (older s) (s.getX 1 + BitVec.ofNat 64 (0 * 8)) 8 .read) ∧
       oksWith (fun ps => decide (∀ p ∈ ps, p.kind = .spad ∧ s.feGet p = true)) (s.places (older s) .read true 8 (s.getX 1 + BitVec.ofNat 64 (0 * 8)).toNat none)) ∧
    (let s := holding ((vec .z64 .z64 0 1).modMe fun p => { p with level := .s, x := p.x.set 2 0 }) (.vstwm 8 1 5 0)
     s.me.holds 8 s.vgroup .z64 ∧ s.me.vq = [entry s (.vstwm 8 1 5 0)] ∧ still s ∧ s.me.gcs = false ∧ s.mayPublish s.cur 5 = true ∧
       (s.wm 5).mark < 2 ^ 48 ∧ (s.getX 2).toNat ≤ (s.wm 5).mark ∧ (s.wm 5).ranges = [] ∧
       oks (s.places (older s) .write false 8 (s.getX 1 + BitVec.ofNat 64 (0 * 8)).toNat none) ∧
       oks (s.write (older s) (s.getX 1 + BitVec.ofNat 64 (0 * 8)) 8 (s.me.elem 8 64 0) .write)) := by
  unfold Plane.holds
  and_intros <;> decide +kernel

/-- A tensor of one byte in a RANS frame at 0x60000000, and operands for the copy engine. -/
def copying (x1 x2 x3 : Word) : State :=
  let s := userX x1 x2 x3
  let s := s.physWrite 0x202008 (leBytes 8 0x7F)
  let s := s.physWrite 0x014000000800 [1]
  let s := s.physWrite 0x300000 (leBytes 4 1 ++ leBytes 4 1 ++ leBytes 8 4 ++ leBytes 8 4 ++ leBytes 8 0)
  (s.physWrite 0x20000000 ([1, 0, 8, 32, 0, 0, 0, 0] ++ leBytes 8 1 ++ leBytes 8 64 ++ leBytes 8 576 ++ leBytes 8 0)).physWrite 0x20000041 [1]
/-- The host region that XHOST names. -/
def hostRegion0 : HostRegion := ⟨0, 0, 0x5000, 16, true, true⟩
/-- A state with one copy-engine operation issued, and the frames that it holds. -/
def copied (job : CopyJob) (xl : List XFrame) : State := { copying 0 0 0 with ops := [⟨0, 3, 1, .copy job xl⟩] }
/-- Frame 0 of the map, held, and the same physical frame under the next address. -/
def frame0 : XFrame := ⟨0, 0, false, 2 ^ 30, 0x200000, false⟩
def frame1 : XFrame := ⟨1, 0, false, 2 ^ 30, 0x200000, false⟩

/-- A store moves no frame held outside scratchpads, none of which an XINV removed. -/
theorem held_stored {s s2 : State} (h : OnlyStored s { s2 with full := s.full }) {xl : List XFrame} (k : ∀ f ∈ xl, f.stale = false ∧ s.inSpad f.pframe = false)
    (as : List Nat) : s2.heldPlaces xl as = s.heldPlaces xl as := by
  have e (a : Nat) : s2.heldPlace xl a = s.heldPlace xl a := by
    unfold State.heldPlace
    cases hf : xl.find? fun f => f.vframe == a / 65536 with
    | none => rfl
    | some f =>
      have : s2.heldFrame f = s.heldFrame f := by
        have hk := k f (List.mem_of_find?_eq_some hf)
        have m : s2.mapped f.pframe = s.mapped f.pframe := by rw [← h]; rfl
        have i : s2.inSpad f.pframe = false := by rw [← hk.2, ← h]; rfl
        simp only [State.heldFrame, State.frameAt, hk.1, hk.2, m, i, Bool.not_false, if_true, Bool.false_eq_true, if_false]
      simp only [this]
  unfold State.heldPlaces
  rw [funext e]

/-- Operations within their limits; each job with the places it reads and writes; a copy whose bytes are the same under two addresses. -/
theorem meets_CopyEngines :
    (let s := copying 0x1000 0x2000 16
     s.hasIssue 3 ∧ s.releaseReady = true ∧ (s.ops.filter fun o => o.plane = s.cur ∧ o.kind.isCopy = true).length < 16 ∧ (s.getX 3).toNat ≤ 2 ^ 40 ∧
       0x1000 + 16 ≤ 0x2000 ∧ oks (s.walkRange s.myAgent .read 0x2000 16) ∧ oks (s.walkRange s.myAgent .write 0x1000 16)) ∧
    (let s := copying 0x1000 0x2000 0x300000
     let v := leNat (leBytes 4 1 ++ leBytes 4 1 ++ leBytes 8 4 ++ leBytes 8 4 ++ leBytes 8 0)
     (s.getX 3).toNat % 8 = 0 ∧ s.noConflict (s.getX 3) 32 .read ∧ s.pend = [] ∧ gives v (s.read s.myAgent (s.getX 3) 32 .read) ∧ v % 2 ^ 32 = 1 ∧ v / 2 ^ 32 % 2 ^ 32 = 1 ∧
       v / 2 ^ 64 % 2 ^ 64 = 4 ∧ v / 2 ^ 128 = 4 ∧ oks (s.walkRange s.myAgent .read 0x2000 4) ∧ oks (s.walkRange s.myAgent .write 0x1000 4)) ∧
    (let s := copying 0x1000 0x60000000 0x2000
     let v := leNat (s.physBytes 0x20000000 64)
     let fv := leNat (s.physBytes 0x20000040 512)
     (s.getX 2).toNat % 64 = 0 ∧ s.noConflict (s.getX 2) 64 .read ∧ s.noConflict (s.getX 2 + BitVec.ofNat 64 64) 512 .read ∧ (s.getX 3).toNat % 8 = 0 ∧
       gives v (s.read s.myAgent (s.getX 2) 64 .read) ∧ (tensorOf (leBytes 64 v)).map (fun t => (t.extent, t.freqoff)) = some (704, 64) ∧
       gives fv (s.read s.myAgent (s.getX 2 + BitVec.ofNat 64 64) 512 .read) ∧ (unitsOf 2 256 (leBytes 512 fv)).sum = 2 ^ 8 ∧
       oksWith (fun xs => s.formsIn xs 0x60000000 704 [1]) (s.walkRange s.myAgent .read 0x60000000 704) ∧
       oksWith (fun ys => s.formsIn ys 0x1000 736 [0]) (s.walkRange s.myAgent .write 0x1000 736) ∧ oks (s.walkRange s.myAgent .write 0x2000 8) ∧
       704 + 32 ≤ (s.getX 3).toNat) ∧
    (let s := { copying 0x1000 0 16 with hostRegions := [hostRegion0] }
     s.hostRegions.find? (fun g => g.num == (s.getX 2).toNat / 2 ^ 48) = some hostRegion0 ∧ (s.getX 2).toNat % 2 ^ 48 + 16 ≤ hostRegion0.len ∧
       hostRegion0.fromh = true ∧ hostRegion0.toh = true) ∧
    (∀ job ∈ [CopyJob.copy 0x1000 0x2000 16, .transpose 0x1000 0x2000 4 1 1 4 4, .fill 0x1000 5 16, .exportTo 0x1000 0x2000 16, .fromHost 0x5000 0x1000 16,
        .toHost 0x5000 0x1000 16], let s := copied job [frame0]
      s.op? 0 3 1 = some ⟨0, 3, 1, .copy job [frame0]⟩ ∧ s.pend = [] ∧ s.MemInv ∧ (s.heldPlaces [frame0] (addrs 0x1000 48)).isSome = true ∧
        ((s.heldPlaces [frame0] (addrs 0x1000 48)).getD []).length = 48 ∧ s.writeFails ((s.heldPlaces [frame0] (addrs 0x1000 48)).getD []) = false ∧
        (((s.heldPlaces [frame0] (addrs 0x1000 48)).getD []).map (·.pa)).Nodup ∧ (s.heldPlaces [frame0] (addrs 0x2000 16)).isSome = true ∧
        oks (s.readPlaces 0 ((s.heldPlaces [frame0] (addrs 0x2000 16)).getD []))) ∧
    (let s := copied (.copy 0x1000 0x11000 16) [frame0, frame1]
     (s.heldPlaces [frame0, frame1] (addrs 0x1000 16)).map (·.map (·.pa)) = (s.heldPlaces [frame0, frame1] (addrs 0x11000 16)).map (·.map (·.pa)) ∧
       (((s.heldPlaces [frame0, frame1] (addrs 0x1000 16)).getD []).map (·.pa)).Nodup) ∧
    (let s := copied (.decode 0x1000 0x3000 0x2000 8 1 704 576 0 0 false []) [frame0]
     (s.heldPlaces [frame0] (addrs (0x3000 + 576) 128)).isSome = true ∧ oks (s.readPlaces 0 ((s.heldPlaces [frame0] (addrs (0x3000 + 576) 128)).getD [])) ∧
       ∀ s2 : State, OnlyStored s { s2 with full := s.full } → s2.heldPlaces [frame0] (addrs 0x2000 8) = s.heldPlaces [frame0] (addrs 0x2000 8)) := by
  unfold State.hasIssue State.MemInv State.noConflict
  and_intros <;> first
    | decide +kernel
    | exact fun s2 h => held_stored h (by decide +kernel) _

/-! ### Witnesses: Trellis -/

/-- An image of one real section of eight elements, LOGN 3: a PWISE node that scales by a coefficient, fed by slot 0 and feeding slot 1 (19 R273). -/
def imageBytes : List Byte :=
  leBytes 2 1 ++ [1, 1, 2, 2, 0, 0] ++ leBytes 4 192 ++ leBytes 4 128 ++ leBytes 48 0 ++ ([3, 1, 0, 0] ++ leBytes 12 0) ++
    ([0, 1, 0, 2, 0, 0, 0, 0, 0, 0] ++ leBytes 4 0 ++ leBytes 2 16) ++ ([0x40, 0] ++ leBytes 6 0) ++ ([0, 0x41] ++ leBytes 6 0) ++
    ([0, 0x0A] ++ leBytes 6 0) ++ ([1, 0x0A] ++ leBytes 6 0) ++ (leBytes 2 0x4000 ++ leBytes 62 0)
/-- What it holds. -/
def image0 : StreamImage :=
  ⟨[⟨3, 1, 0, false, 0, 0⟩], [⟨0, 1, 0, 2, 0, 0, 0, 0, 0, 0, 16, [0, 0x40] ++ List.replicate 14 0, []⟩], [⟨0x40, 0, 0, 0, 0⟩, ⟨0, 0x41, 0, 0, 0⟩],
    [⟨false, .fp32, 0⟩, ⟨true, .fp32, 0⟩]⟩
/-- Table 19-8: dense words at a base. -/
def portBytes0 (base : Nat) : List Byte := leBytes 8 base ++ leBytes 8 0 ++ leBytes 4 4 ++ leBytes 44 0
def port0 (base : Nat) : PortDesc := ⟨base, 0, 4, false, false, false, false, false, 0, 0, 0, 0⟩
/-- A strand whose fabric has the image bound and its ports set, with X1 0, X2 1 and X3 0. -/
def fabric (ops : List AOp) : State :=
  { userX 0 1 0 with ops := ops }.modMe fun p => { p with
    fab := ⟨1, some image0, [⟨0, false, 0, 0, 0, 0, 0⟩], [some (port0 0x1000), some (port0 0x2000)], some (1, image0)⟩ }
/-- Table 19-9: modulus 17 with one root, 3, at 0x300040. -/
def modBytes : List Byte :=
  leBytes 4 17 ++ leBytes 4 252645135 ++ leBytes 8 1 ++ leBytes 2 1 ++ leBytes 6 0 ++ leBytes 8 0x300040 ++ leBytes 32 0 ++ leBytes 4 3
/-- A run of the section, of one tile, with frames on its channels. -/
def run0 (done : List Nat) (chans : List (Option FabFrame)) : SecRun :=
  ⟨0, 1, 1, 0, 1, [some (port0 0x1000), some (port0 0x2000)], 0, 17, [], [frame0], done, [], chans, [], 0, 1, 0⟩

/-- The same run through FE ports of the scratchpad. -/
def spad0 : XFrame := ⟨2 ^ 47, coreSpad 0, false, 65536, 0, false⟩
def runFe (got : List (Nat × Nat × List Byte)) : SecRun :=
  let d : PortDesc := ⟨2 ^ 63, 0, 4, true, true, false, false, false, 0, 0, 0, 0⟩
  { run0 [0, 0] [none, none] with descs := [some d, some { d with clr := false }], got := got, xl := [spad0] }
/-- Section 0 of the image. -/
def sec0 : SecRec := ⟨3, 1, 0, false, 0, 0⟩

/-- Good images, descriptors and operands; runs that wait on a granule and that do not; what a step installs, applies or releases. -/
theorem meets_TrellisInstructions :
    (let s := described imageBytes
     let h := leNat (imageBytes.take 64)
     s.getX 1 &&& 63 = 0 ∧ s.noConflict (s.getX 1) 64 .read ∧ s.noConflict (s.getX 1) 192 .read ∧ s.pend = [] ∧ gives h (s.read s.myAgent (s.getX 1) 64 .read) ∧
       imageSize (leBytes 64 h) = some 192 ∧ gives (leNat imageBytes) (s.read s.myAgent (s.getX 1) 192 .read) ∧
       streamImage? (leBytes 192 (leNat imageBytes)) = some image0 ∧ s.fits image0 = true ∧ image0.progresses = true ∧ s.hasIssue 3 ∧ s.releaseReady = true) ∧
    (let s := fabric []
     s.me.fab.image = some image0 ∧ (image0.nodes[(s.getX 1).toNat]?).map (·.clen) = some 16 ∧ s.noConflict (s.getX 2) 16 .read ∧
       gives 0 (s.read s.myAgent (s.getX 2) 16 .read)) ∧
    (let s := (fabric []).physWrite 0x300000 (portBytes0 0x1000) |>.modMe fun p => { p with x := p.x.set 2 0x300000 }
     s.me.fab.image = some image0 ∧ image0.slots[(s.getX 1).toNat]? = some ⟨false, .fp32, 0⟩ ∧ image0.secs[0]? = some sec0 ∧ (s.getX 2).toNat % 8 = 0 ∧
       s.noConflict (s.getX 2) 64 .read ∧ gives (leNat (portBytes0 0x1000)) (s.read s.myAgent (s.getX 2) 64 .read) ∧
       portDesc? (leBytes 64 (leNat (portBytes0 0x1000))) ⟨false, .fp32, 0⟩ sec0 = some (port0 0x1000)) ∧
    (let s := described modBytes
     let v := leNat (modBytes.take 64)
     (s.getX 1).toNat % 8 = 0 ∧ s.noConflict (s.getX 1) 64 .read ∧ gives v (s.read s.myAgent (s.getX 1) 64 .read) ∧ v % 2 ^ 32 % 2 = 1 ∧ 3 ≤ v % 2 ^ 32 ∧
       v % 2 ^ 32 < 2 ^ 31 ∧ (v % 2 ^ 32 * (v / 2 ^ 32 % 2 ^ 32) + 1) % 2 ^ 32 = 0 ∧ v / 2 ^ 64 % 2 ^ 64 = 2 ^ 64 % (v % 2 ^ 32) ∧ v / 2 ^ 128 % 2 ^ 16 = 1 ∧
       v / 2 ^ 144 % 2 ^ 48 = 0 ∧ v / 2 ^ 192 < 2 ^ 64 ∧ v / 2 ^ 192 % 4 = 0 ∧ s.noConflict (BitVec.ofNat 64 (v / 2 ^ 192)) 4 .read ∧
       gives 3 (s.read s.myAgent (BitVec.ofNat 64 (v / 2 ^ 192)) (4 * 1) .read) ∧ (List.range 1).map (fun i => 3 / 2 ^ (32 * i) % 2 ^ 32) = [3] ∧ 3 < v % 2 ^ 32 ∧
       s.me.wait = none ∧ s.me.vq = [] ∧ s.ops = []) ∧
    (user.section? 1 = none ∧ ((fabric []).section? 1).map (·.2.1) = some sec0) ∧
    (let s := fabric []
     1 ≤ (s.getX 2).toNat ∧ (s.getX 3).toNat + (s.getX 2).toNat ≤ 2 ^ 32 ∧ image0.rootsNeeded 0 sec0 ≤ s.me.roots.length ∧ s.hasIssue 3 ∧
       s.releaseReady = true ∧ (s.runsOf 0).length < 4 ∧ (∀ j, j < 2 → ((s.me.fab.descs[j]?).join).isSome = true) ∧ image0.slots.length = 2 ∧
       oks (joinWalks ((List.range 1).flatMap fun t => s.walkTile image0 0 sec0 s.me.fab.descs t)) ∧ s.fabricBusy s.cur = false) ∧
    (let s := fabric [⟨0, 3, 1, .run (run0 [0, 0] [none, none])⟩, ⟨0, 3, 2, .run (runFe [(0, 0, leBytes 16 0)])⟩]
     s.fabricBusy 0 = true ∧ (s.ops.map fun o => (o.plane, o.n, o.seq)).Nodup ∧
       (s.runsOf 0).map (fun r => s.runWaits (r.aborted image0) image0 sec0) = [false, true]) ∧
    (let s := fabric [⟨0, 3, 1, .sload 1 image0⟩]
     (s.ops.filter fun x => x.plane == 0).find? (fun x => x.kind.isImageLoad || x.kind.run?.isSome) = some ⟨0, 3, 1, .sload 1 image0⟩ ∧
       s.op? 0 3 1 = some ⟨0, 3, 1, .sload 1 image0⟩) ∧
    (let s := fabric [⟨0, 3, 1, .twload 1 0 (leBytes 16 1)⟩]
     (s.ops.filter fun x => x.plane == 0).find? (fun x => x.kind.isImageLoad || x.kind.run?.isSome) = some ⟨0, 3, 1, .twload 1 0 (leBytes 16 1)⟩ ∧
       s.op? 0 3 1 = some ⟨0, 3, 1, .twload 1 0 (leBytes 16 1)⟩ ∧ (s.plane 0).fab.bound = some (1, image0)) ∧
    (let s := (fabric []).modMe fun p => { p with wait := some (.modcfg 17 [3]) }
     s.waitOf 0 = some (.modcfg 17 [3]) ∧ (s.plane 0).vq = [] ∧ s.ops = []) ∧
    ((fabric []).modMe fun p => { p with wait := some .sfree }).waitOf 0 = some .sfree := by
  unfold State.hasIssue State.noConflict
  and_intros <;> decide +kernel

/-- A state with one run of it, and memory of its ports. -/
def running (r : SecRun) : State := fabric [⟨0, 3, 1, .run r⟩]
/-- The image with its node's coefficients poisoned. -/
def image1 : StreamImage := { image0 with nodes := image0.nodes.map fun y => { y with bad := [0] } }
/-- The bytes at the places that held translations give for addresses. -/
def bytesAt (s : State) (r : SecRun) (as : List Nat) : Option (List Byte) := (s.heldPlaces r.xl as).bind fun ps => (s.readPlaces 0 ps).toOption

/-- Runs before each of their units fires; a node with a poisoned coefficient; ports of plain memory and of FE granules, FULL and EMPTY; a run at its
end, and an aborted run that waits. -/
theorem meets_TrellisRuns :
    (∀ r ∈ [run0 [0, 0] [none, none], run0 [1, 0] [some .zero, none], run0 [1, 0] [some .zero, some .zero], run0 [1, 0] [none, some .zero], run0 [1, 1] [none, none],
        runFe [], runFe [(0, 0, leBytes 16 0), (0, 1, leBytes 16 0)]],
      let s := running r
      s.run? 0 3 1 = some r ∧ s.runContext 0 3 1 r = some (image0, sec0) ∧ s.pend = [] ∧ s.MemInv) ∧
    (let r := run0 [1, 0] [some .zero, none]
     (image0.nodes[0]?).map (fun y => (y.sec, y.two, y.meetsPoison 1 .zero)) = some (0, false, false) ∧ r.at image0 0 0 = some .zero ∧ r.at image0 0 1 = none ∧
       r.chans[1]? = some none) ∧
    (let r := run0 [1, 0] [some (.blk 0 [(1, 0)]), none]
     (image1.nodes[0]?).map (fun y => y.meetsPoison 1 (.blk 0 [(1, 0)])) = some true ∧ r.at image1 0 0 = some (.blk 0 [(1, 0)])) ∧
    ((run0 [1, 0] [some .zero, some .zero]).chans[1]? = some (some .zero)) ∧
    (let r := run0 [0, 0] [none, none]
     let s := running r
     r.doneBy 0 < r.limit ∧ ((port0 0x1000).parts 8 0).map (fun x => bytesAt s r (x.dataAddrs (port0 0x1000) .fp32 1)) = [some (List.replicate 32 0)] ∧
       ((port0 0x1000).parts 8 0).map (fun x => bytesAt s r (x.expAddrs .fp32 1)) = [some []]) ∧
    (let r := runFe [(0, 0, leBytes 16 0), (0, 1, leBytes 16 0)]
     ((r.descs[0]?).join).map (fun d => (d.fe, (granuleAddrs d .fp32 1 8 0).length, (d.parts 8 0).length)) = some (true, 2, 1) ∧
       (((r.descs[0]?).join).map fun d => (d.parts 8 0).all fun x => (x.dataAddrs d .fp32 1).all fun va => (granuleAddrs d .fp32 1 8 0).contains (va / 16 * 16)) =
         some true ∧
       (∀ i, i < 2 → r.got.find? (fun x => x.1 == 0 && x.2.1 == i) = some (0, i, leBytes 16 0))) ∧
    (let r := run0 [1, 0] [none, some .zero]
     let s := running r
     r.doneBy 1 < r.limit ∧ r.at image0 0x41 0 = some .zero ∧ s.remoteWaits r image0 sec0 1 = false ∧
       (s.portWrites r (port0 0x2000) .fp32 sec0 .zero ((port0 0x2000).parts 8 0)).isSome = true ∧
       ((port0 0x2000).parts 8 0).map (fun x => (x.off, (s.heldPlaces r.xl (x.dataAddrs (port0 0x2000) .fp32 1)).map fun qs =>
         !s.writeFails qs && decide (∀ q ∈ qs, q.isSaved = false) && decide (qs.map (·.pa)).Nodup)) = [(false, some true)]) ∧
    (∀ full ∈ [[], [coreSpad 0 / 16]], let r := runFe []
     let s := { running r with full := full }
     (granuleAddrs ⟨2 ^ 63, 0, 4, true, true, false, false, false, 0, 0, 0, 0⟩ .fp32 1 8 0)[0]? = some (2 ^ 63) ∧
       (s.heldPlace r.xl (2 ^ 63)).map s.feGet = some !full.isEmpty ∧ bytesAt s r (ringAddrs (2 ^ 63) 16) = some (leBytes 16 0)) ∧
    (∀ k ∈ image0.slotsOf 0 true, (run0 [1, 1] [none, none]).limit ≤ (run0 [1, 1] [none, none]).doneBy k) ∧
    (let r := (runFe [(0, 0, leBytes 16 0)]).aborted image0
     r.status = 1 ∧ (running r).runWaits r image0 sec0 = true) := by
  unfold State.MemInv
  and_intros <;> decide +kernel

/-- A node of one coefficient, 1, without stride. -/
def nodeOf (mode op : Nat) : NodeRec := ⟨0, 1, 0, mode, op, 0, 0, 0, 0, 0, 16, [0, 0x40] ++ List.replicate 14 0, []⟩
/-- Nodes of each mode: one passes its frame; a butterfly of two elements, as 19 R279 computes it in growth mode NONE; the sum of frames of two
exponents, halves to even (19 R282); modular butterflies with root 3 modulo 17 (19 R280). -/
theorem meets_TrellisRuns_nodes :
    (nodeOf 3 0).fire 1 0 0 [] .bad .zero = (.bad, flNone) ∧ (nodeOf 2 2).two = true ∧ (nodeOf 2 0).two = false ∧ (nodeOf 0 2).two = false ∧
    (nodeOf 0 2).fire 1 2 0 [] (.blk 130 [(100, 0), (3, 0)]) .zero = (.blk 130 [(103, 0), (97, 0)], flNone) ∧
    (nodeOf 2 2).fire 1 2 0 [] (.blk 131 [(100, 0), (7, 0)]) (.blk 130 [(3, 0), (1, 0)]) = (.blk 131 [(102, 0), (7, 0)], flNone) ∧
    (nodeOf 2 1).fire 1 2 0 [] .zero (.blk 130 [(3, 0), (1, 0)]) = (.zero, flNone) ∧
    (nodeOf 2 5).fire 1 2 0 [] (.blk 1 [(5, 0)]) .zero = (.blk 1 [(5, 0)], flNone) ∧
    (nodeOf 1 0).fire 2 0 17 [3] (.res [5, 4]) .zero = (.res [0, 10], flNone) ∧ (nodeOf 1 1).fire 2 0 17 [3] (.res [5, 4]) .zero = (.res [9, 3], flNone) ∧
    (nodeOf 2 11).fire 2 0 17 [3] (.res [5, 4]) (.res [6, 4]) = (.res [16, 0], flNone) := by decide +kernel

/-! ### Witnesses: the matrix unit and adder graphs -/

def zeroAcc : List (List Nat) := List.replicate 96 (List.replicate 128 0)
/-- A binding of format E4M3: SOLO, or in place j of the pair that GRPS slot 1 names. -/
def bind0 (solo : Bool) (j : Nat) : Binding :=
  ⟨.e4m3, solo, if solo then 0 else 5, 0, if solo then 0 else 1, 0, j, List.replicate 8 (List.replicate 128 (List.replicate 96 0)), zeroAcc, zeroAcc, 0, []⟩
/-- The issuing plane bound, with X1 and X2 given and these bytes at 0x300000. -/
def bound (j x1 x2 : Nat) (ops : List AOp) (bytes : List Byte) : State :=
  ({ userX (BitVec.ofNat 64 x1) (BitVec.ofNat 64 x2) 0 with ops := ops }.modMe fun p => { p with mx := some (bind0 true j) }).physWrite 0x300000 bytes
/-- A pair of planes of two cores, 0 and 4, in entry 5, which GRPS slot 1 names. -/
def paired : State :=
  let s := (userX 0x000D0101 0 0).modMe fun p => { p with grps := 0x0000000200000500 }
  { s with groups := s.groups.set 5 ⟨some 0, [0, 4], 0, [], false⟩ }
/-- 21 Table 21-6: one column of one panel at 0x1000. -/
def mwBytes : List Byte := leBytes 8 0x1000 ++ leBytes 24 0 ++ [0, 1] ++ leBytes 2 1 ++ leBytes 28 96
/-- 21 Table 21-9: one panel of A from 0x1000 to the scratchpad. -/
def maBytes : List Byte := leBytes 8 0x1000 ++ leBytes 24 0 ++ leBytes 8 (2 ^ 63) ++ [1, 0, 0, 0] ++ leBytes 4 96 ++ leBytes 16 0
def isOkGrant (r : Nat × List XFrame × Option MemErr) : Bool := r.1 == 1 && r.2.2.isNone
/-- The pair bound, with operations. -/
def pairBound (ops : List AOp) : State :=
  (({ paired with ops := ops }).modPlane 0 fun p => { p with mx := some (bind0 false 0) }).modPlane 4 fun p => { p with mx := some (bind0 false 1) }

/-- A core with no other binding, with one, and with the plane's own image; a group; releases with an operation left, with none, with a partner's
group operation unmatched, and waiting; each matrix instruction within its limits, and a MALOAD whose second row faults. -/
theorem meets_MatrixInstructions :
    (let s := userX 0x000D0004 0 0
     matrixTag? ((s.getX 1).toNat / 2 ^ 16 % 32) = some .e4m3 ∧ s.me.mx = none ∧ (s.getX 1).toNat = 2 ^ 16 * ((s.getX 1).toNat / 2 ^ 16 % 32) + 4 ∧
       (¬ ∃ q : PlaneId, q ≠ s.cur ∧ coreOf q = coreOf s.cur ∧ (s.plane q).mx ≠ none) ∧ s.fabricHeld s.cur = false ∧ (fabric []).fabricHeld 0 = true) ∧
    (let s := (userX 0x000D0004 0 0).modPlane 1 fun p => { p with mx := some (bind0 true 0) }
     (1 : PlaneId) ≠ s.cur ∧ coreOf (1 : PlaneId) = coreOf s.cur ∧ (s.plane 1).mx ≠ none) ∧
    (let s := paired
     let xa := (s.getX 1).toNat
     xa / 4 % 2 = 0 ∧ xa &&& 0x1F0733 = xa ∧ s.me.groupSlot ((s.getX 1).extractLsb' 0 2) = some 5 ∧ xa / 256 % 8 ≤ 4 ∧
       (s.group 5).members.length = (xa / 16 % 4 + 1) * (xa / 256 % 8 + 1) ∧ ((s.group 5).members.map coreOf).Nodup) ∧
    (user.matOps user.cur = [] ∧ (bound 0 0 0 [⟨0, 3, 1, .mat ⟨.maccz false, [], 0, none, 0⟩⟩] []).matOps 0 ≠ []) ∧
    (let s := pairBound [⟨4, 3, 1, .mat ⟨.mma false 1 0 1 none, [], 1, none, 0⟩⟩]
     s.matOps s.cur = [] ∧ (s.me.mx).map (fun m => (m.solo, (s.group m.entry).members)) = some (false, [0, 4]) ∧
       ((s.plane 4).mx).map (fun c => (c.solo, c.entry)) = some (false, 5) ∧ (MatJob.mma false 1 0 1 none).group = true ∧
       (s.ops.map fun o => (o.plane, o.n, o.seq)).Nodup) ∧
    ((bound 0 0 0 [] []).modMe fun p => { p with wait := some .mgrpRel }).waitOf 0 = some .mgrpRel ∧
    (let s := bound 0 (2 ^ 63) 0x1 [] []
     s.me.mx = some (bind0 true 0) ∧ s.hasIssue 3 ∧ s.releaseReady = true ∧ (s.matOps s.cur).length < 8 ∧ (s.getX 2).toNat &&& 0x777F = (s.getX 2).toNat ∧
       (s.getX 2).toNat / 256 % 8 + ((s.getX 2).toNat / 2 ^ 12 % 8 + 1) ≤ 8 ∧ 1 ≤ (s.getX 2).toNat % 128 ∧ (s.getX 2).toNat % 128 ≤ 96 ∧
       2 ^ 63 ≤ (s.getX 1).toNat ∧ (s.getX 1).toNat % 256 = 0 ∧ (s.getX 1).toNat - 2 ^ 63 + 1 * panelStride .e4m3 ≤ s.me.qsize * 65536 ∧
       oks (s.walkRange s.myAgent .read (s.getX 1).toNat (1 * panelStride .e4m3))) ∧
    (bind0 true 1).j ≠ 0 ∧
    (let s := bound 0 0x1000 0x010A000000000200 [] []
     layoutWord? (s.getX 2).toNat = some (1, .fp32, 0x200) ∧ dynMode? s.me.rm = some .rne ∧
       oks (joinWalks ((List.range 1).map fun r => s.walkRange s.myAgent .write ((0x1000 + r * 0x200) % 2 ^ 64) (128 * tagBytes .fp32))) ∧
       oks (joinWalks ((List.range 1).map fun r => s.walkRange s.myAgent .read ((0x1000 + r * 0x200) % 2 ^ 64) (128 * tagBytes .fp32)))) ∧
    (let s := bound 0 0x300000 0 [] mwBytes
     let v := leNat mwBytes
     (s.getX 1).toNat % 8 = 0 ∧ s.noConflict (s.getX 1) 64 .read ∧ s.pend = [] ∧ gives v (s.read s.myAgent (s.getX 1) 64 .read) ∧ v / 2 ^ 128 % 2 ^ 128 = 0 ∧
       v / 2 ^ 256 % 256 = 0 ∧ v / 2 ^ 264 % 256 = 1 ∧ v / 2 ^ 272 % 2 ^ 16 = 1 ∧ v / 2 ^ 288 = 96 ∧
       oks (joinWalks ((List.range 1).map fun (i : Nat) => s.walkRange s.myAgent .read (addrPlus 0x1000 (i * 0)) (matBytes .e4m3 96)))) ∧
    (let s := bound 0 0x300000 1 [] maBytes
     let v := leNat maBytes
     (s.getX 1).toNat % 8 = 0 ∧ (s.getX 2).toNat = 1 ∧ gives v (s.read s.myAgent (s.getX 1) 64 .read) ∧ v / 2 ^ 128 % 2 ^ 128 = 0 ∧ v / 2 ^ 256 % 2 ^ 64 = 2 ^ 63 ∧
       v / 2 ^ 320 % 256 = 1 ∧ v / 2 ^ 352 % 2 ^ 32 = 96 ∧ 1 * panelStride .e4m3 ≤ s.me.qsize * 65536 ∧ v / 2 ^ 328 % 2 ^ 24 = 0 ∧ v / 2 ^ 384 = 0 ∧
       isOkGrant (s.grantRows (matRow .e4m3 false 0x1000 0 0 0 96) 1 0) = true ∧ oks (s.walkRange s.myAgent .write (2 ^ 63) (1 * panelStride .e4m3))) ∧
    (let g := user.grantRows (matRow .e4m3 false 0x3FFFFFA0 96 0 0 96) 2 0
     g.1 = 1 ∧ g.2.2.isSome = true) := by
  unfold State.hasIssue State.noConflict
  and_intros <;> decide +kernel

/-! An engine's reads leave the state where nothing is pending. -/

theorem some_same {α : Type} {s : State} {r : Option (α × State)} {v : α} (h : ∀ y, r = some y → y.2 = s) (k : r.map (·.1) = some v) : r = some (v, s) := by
  match r, h, k with
  | some (w, t), h, k => cases k; cases h _ rfl; rfl
theorem engineRead_keeps {s : State} (h : s.pend = []) {xl : List XFrame} {as : List Nat} : ∀ y, s.engineRead xl as = some y → y.2 = s := by
  intro y k
  unfold State.engineRead at k
  cases hp : s.heldPlaces xl as with
  | none => rw [hp] at k; cases k
  | some ps =>
    rw [hp] at k
    simp only [State.pressTouch, State.applyKeys, h, List.any_nil, Bool.false_eq_true, if_false] at k
    split at k
    · cases k
    · cases k; rfl
theorem unitReads_keeps {s : State} (h : s.pend = []) {xl : List XFrame} {as : List (List Nat)} : ∀ y, s.unitReads xl as = some y → y.2 = s := by
  induction as with
  | nil => intro y k; cases k; rfl
  | cons a rest ih =>
    intro y k
    simp only [State.unitReads] at k
    split at k
    · cases k
    · rename_i u he
      cases engineRead_keeps h _ he
      split at k
      · cases k
      · rename_i w hu
        cases ih _ hu
        cases k; rfl
theorem readRows_keeps {s : State} (h : s.pend = []) {xl : List XFrame} {t : Tag} {col : Bool} {klen width : Nat} {row : Nat → List (Nat × Nat)}
    {ms : List Nat} : ∀ y, s.readRows xl t col klen width row ms = some y → y.2 = s := by
  induction ms with
  | nil => intro y k; cases k; rfl
  | cons a rest ih =>
    intro y k
    simp only [State.readRows] at k
    split at k
    · cases k
    · rename_i u he
      cases unitReads_keeps h _ he
      split at k
      · cases k
      · rename_i w hu
        cases ih _ hu
        cases k; rfl
theorem weights_keeps {s : State} (h : s.pend = []) {t : Tag} {m : MatOp} : ∀ y, s.weights t m = some y → y.2 = s := by
  intro y k
  unfold State.weights at k
  split at k
  · simp only at k
    split at k
    · cases k
    · rename_i u hr
      cases readRows_keeps h _ hr
      cases k; rfl
  · cases k

theorem heldPlaces_some {s : State} {xl : List XFrame} {as : List Nat} (k : ∀ a ∈ as, (s.heldPlace xl a).isSome = true) :
    ∃ ps, s.heldPlaces xl as = some ps := by
  unfold State.heldPlaces
  induction as with
  | nil => exact ⟨[], rfl⟩
  | cons a rest ih =>
    obtain ⟨ps, h⟩ := ih fun b hb => k b (List.mem_cons_of_mem _ hb)
    obtain ⟨p, hp⟩ := Option.isSome_iff_exists.mp (k a List.mem_cons_self)
    exact ⟨p :: ps, by simp [List.mapM_cons, hp, h]⟩
/-- Bytes with no poison and no failing package are read. -/
theorem readPlaces_clean {s : State} (g : s.poison = [] ∧ s.failing = []) (va : Nat) (ps : List Place) : s.readPlaces va ps = .ok (ps.map fun p => s.byte p.pa) := by
  unfold State.readPlaces
  rw [List.find?_eq_none.mpr]
  intro i _
  split <;> simp [State.unreadable, g.1, g.2]
theorem engineRead_some {s : State} {xl : List XFrame} {as : List Nat} (h : s.pend = []) (g : s.poison = [] ∧ s.failing = [])
    (k : ∀ a ∈ as, (s.heldPlace xl a).isSome = true) : ∃ bs, s.engineRead xl as = some (bs, s) := by
  obtain ⟨ps, hp⟩ := heldPlaces_some k
  refine ⟨ps.map fun p => s.byte p.pa, ?_⟩
  simp [State.engineRead, hp, State.pressTouch, State.applyKeys, h, readPlaces_clean g]
/-- A tile of A in the first frame of a partition is held. -/
theorem tile_held {s : State} {xl : List XFrame} (k : (match xl.find? fun f => f.vframe == 2 ^ 47 with
      | none => false
      | some f => match s.heldFrame f with | .ok _ => true | .error _ => false) = true) :
    ∀ a ∈ ringAddrs (2 ^ 63) 9216, (s.heldPlace xl a).isSome = true := by
  intro a ha
  obtain ⟨i, hi, rfl⟩ := List.mem_map.mp ha
  have hi := List.mem_range.mp hi
  have e : (2 ^ 63 + i) % 2 ^ 64 / 65536 = 2 ^ 47 := by omega
  unfold State.heldPlace
  rw [e]
  revert k
  cases xl.find? fun f => f.vframe == 2 ^ 47 with
  | none => simp
  | some f => cases h : s.heldFrame f <;> simp [h]
/-- Its places, one a byte. -/
theorem tile_places {s : State} {xl : List XFrame} {f : XFrame} {fr : Frame} (h1 : xl.find? (fun f => f.vframe == 2 ^ 47) = some f)
    (h2 : (s.heldFrame f).toOption = some fr) (h3 : fr.tiled = false) :
    s.heldPlaces xl (ringAddrs (2 ^ 63) 9216) = some ((ringAddrs (2 ^ 63) 9216).map fr.place) ∧ (((ringAddrs (2 ^ 63) 9216).map fr.place).map (·.pa)).Nodup := by
  have e (i : Nat) (hi : i < 9216) : (2 ^ 63 + i) % 2 ^ 64 / 65536 = 2 ^ 47 := by omega
  have h2 : s.heldFrame f = .ok fr := by
    cases h : s.heldFrame f with
    | ok x => rw [h] at h2; cases h2; rfl
    | error x => rw [h] at h2; cases h2
  constructor
  · have g (as : List Nat) (k : ∀ a ∈ as, s.heldPlace xl a = some (fr.place a)) : s.heldPlaces xl as = some (as.map fr.place) := by
      unfold State.heldPlaces
      induction as with
      | nil => rfl
      | cons a rest ih =>
        have h := ih fun b hb => k b (List.mem_cons_of_mem _ hb)
        simp [List.mapM_cons, k a List.mem_cons_self, h]
    apply g
    intro a ha
    obtain ⟨i, hi, rfl⟩ := List.mem_map.mp ha
    unfold State.heldPlace
    rw [e i (List.mem_range.mp hi), h1]
    simp [h2]
  · rw [List.map_map]
    unfold ringAddrs
    rw [List.map_map]
    refine List.pairwise_map.mpr (List.nodup_range.imp_of_mem ?_)
    intro i j hi hj ne
    have hi := List.mem_range.mp hi
    have hj := List.mem_range.mp hj
    simp only [Function.comp_apply, Frame.place, h3, Bool.false_eq_true, if_false]
    omega

/-- A matrix operation of plane p. -/
def matOp (p : PlaneId) (job : MatJob) (ord : Nat) : AOp := ⟨p, 3, 1, .mat ⟨job, [frame0, spad0], ord, none, 0⟩⟩
def mw0 (first : Nat) : MatJob := .mwload 0x1000 0 0 0 first 1 1 96
def mma0 : MatJob := .mma false 1 0 1 (some (2 ^ 63))
/-- A graph of one node, the sum of its input and the input. -/
def graph0 : Graph := ⟨4, 1, [⟨0, 0, 0, 0, false, false⟩], [(0x4000, false)]⟩
/-- 21 Tables 21-11 to 21-13. -/
def graphBytes : List Byte :=
  leBytes 2 1 ++ [5, 1] ++ leBytes 2 1 ++ leBytes 2 1 ++ leBytes 2 1 ++ [1, 0] ++ leBytes 4 80 ++ leBytes 48 0 ++ leBytes 8 0 ++ leBytes 2 0x4000 ++ leBytes 6 0
/-- A strand with this graph, X1 a source, X2 a target and X3 one vector. -/
def graphed (ops : List AOp) : State := { userX 0x1000 0x2000 1 with ops := ops }.modMe fun p => { p with graph := some (graph0, [0]) }
def grun0 (n : Nat) : GraphRun := ⟨graph0, 0x1000, 0x2000, n, [frame0], 0, false⟩

def matRec (job : MatJob) (ord : Nat) : MatOp := ⟨job, [frame0, spad0], ord, none, 0⟩

/-- The same with plane 4 in the slot of its core too. -/
def bothHold (s : State) : State := { s with cores := s.cores.set 1 { s.cores.get 1 with running := some 0 } }
/-- A group of which one member has not issued; one of which a member holds no slot; one whose members disagree; a plane alone that loads weights and that multiplies, from a tile that is
held, into a buffer that is not poisoned. -/
theorem meets_MatrixWorkAndGraphs_groups :
    (let s := pairBound [matOp 0 (mw0 0) 1]
     (s.plane 0).mx = some (bind0 false 0) ∧ (s.matOps 0).find? (fun x => x.2.job.group && x.2.st.isNone) = some (matOp 0 (mw0 0) 1, matRec (mw0 0) 1) ∧
       s.pend = [] ∧ s.matMembers 0 (bind0 false 0) = [0, 4] ∧ s.groupOp 4 1 = none) ∧
    (let s := pairBound [matOp 0 (mw0 0) 1, matOp 4 (mw0 1) 1]
     s.pend = [] ∧ s.matMembers 0 (bind0 false 0) = [0, 4] ∧ s.holdsSlot 4 = false) ∧
    (let s := bothHold (pairBound [matOp 0 (mw0 0) 1, matOp 4 (mw0 1) 1])
     s.matMembers 0 (bind0 false 0) = [0, 4] ∧ s.holdsSlot 0 = true ∧ s.holdsSlot 4 = true ∧
       (∀ x ∈ [((0 : PlaneId), mw0 0), (4, mw0 1)], s.groupOp x.1 1 = some (matOp x.1 x.2 1, matRec x.2 1) ∧ s.matReady (matOp x.1 x.2 1) (matRec x.2 1) = true) ∧
       (s.plane 4).mx = some (bind0 false 1) ∧ sharedFields (bind0 false 1) (mw0 1) ≠ sharedFields (bind0 false 0) (mw0 0) ∧ sharedFields (bind0 false 0) (mw0 0) ≠ []) ∧
    (let s := bound 0 0 0 [matOp 0 (mw0 0) 1] []
     s.matMembers 0 (bind0 true 0) = [0] ∧ s.holdsSlot 0 = true ∧ s.groupOp 0 1 = some (matOp 0 (mw0 0) 1, matRec (mw0 0) 1) ∧ s.matReady (matOp 0 (mw0 0) 1) (matRec (mw0 0) 1) = true ∧
       (s.matOps 0).find? (fun z => z.2.job.group && z.2.ord == 1) = some (matOp 0 (mw0 0) 1, matRec (mw0 0) 1) ∧
       ∃ cols, s.weights .e4m3 (matRec (mw0 0) 1) = some (cols, s)) ∧
    (let s := bound 0 0 0 [matOp 0 mma0 1] []
     s.matMembers 0 (bind0 true 0) = [0] ∧ s.holdsSlot 0 = true ∧ s.groupOp 0 1 = some (matOp 0 mma0 1, matRec mma0 1) ∧ s.matReady (matOp 0 mma0 1) (matRec mma0 1) = true ∧
       (s.matOps 0).find? (fun z => z.2.job.group && z.2.ord == 1) = some (matOp 0 mma0 1, matRec mma0 1) ∧ (bind0 true 0).accPoisoned false 1 = false ∧
       ∃ bs, s.engineRead (matRec mma0 1).xl (ringAddrs (2 ^ 63) (1 * panelStride .e4m3)) = some (bs, s)) := by
  and_intros <;> first
    | decide +kernel
    | exact ⟨List.replicate 128 (List.replicate 96 0), some_same (weights_keeps (by decide +kernel)) (by decide +kernel)⟩
    | exact engineRead_some (by decide +kernel) (by decide +kernel) (tile_held (by decide +kernel))

/-- A local operation of a bound plane. -/
def local0 (job : MatJob) : State := bound 0 0 0 [matOp 0 job 0] []
/-- Each local job with what it reads and writes; a MACCST of a poisoned row; an operation that is done. -/
theorem meets_MatrixWorkAndGraphs_local :
    (∀ job ∈ [MatJob.maccz false, .maccld false 0x1000 1 .bf16 256, .maccst false 0x1000 1 .e4m3 128 .rne false, .maload false 0x1000 0 0 0 (2 ^ 63) 1 96 1],
      let s := local0 job
      s.op? 0 3 1 = some (matOp 0 job 0) ∧ s.holdsSlot 0 = true ∧ (s.plane 0).mx = some (bind0 true 0) ∧ s.pend = [] ∧ s.MemInv ∧ job.group = false ∧
        s.matReady (matOp 0 job 0) (matRec job 0) = true) ∧
    (let s := local0 (.maccld false 0x1000 1 .bf16 256)
     s.pend = [] ∧ (s.unitReads [frame0, spad0] ((List.range 1).map fun r => ringAddrs (0x1000 + r * 256) (128 * tagBytes .bf16))).isSome = true) ∧
    ((bind0 true 0).accPoisoned false 1 = false ∧ ({ bind0 true 0 with bad := [(false, 0, 3)] } : Binding).accPoisoned false 1 = true) ∧
    ((local0 (.maccst false 0x1000 1 .e4m3 128 .rne false)).storeRows [frame0, spad0] 0x1000 128 0 [leBytes 128 0]).isSome = true ∧
    (let s := local0 (.maload false 0x1000 0 0 0 (2 ^ 63) 1 96 1)
     (s.readRows [frame0, spad0] .e4m3 false 96 96 (matRow .e4m3 false 0x1000 0 0 0 96) (List.range 1)).isSome = true ∧
       ∃ qs, s.heldPlaces [frame0, spad0] (ringAddrs (2 ^ 63) 9216) = some qs ∧ s.writeFails qs = false ∧ (∀ q ∈ qs, q.isSaved = false) ∧
         (qs.map (·.pa)).Nodup) := by
  unfold State.MemInv
  have h := tile_places (s := local0 (.maload false 0x1000 0 0 0 (2 ^ 63) 1 96 1)) (xl := [frame0, spad0]) (f := spad0)
    (fr := ⟨coreSpad 0, false, .spad, 0, coreSpad 0⟩) (by decide +kernel) (by decide +kernel) rfl
  have f : (local0 (.maload false 0x1000 0 0 0 (2 ^ 63) 1 96 1)).failing = [] := by decide +kernel
  refine ⟨by decide +kernel, by decide +kernel, by decide +kernel, by decide +kernel, by decide +kernel, _, h.1,
    List.any_eq_false.mpr fun q _ => by rw [f]; simp, fun q hq => ?_, h.2⟩
  obtain ⟨_, _, rfl⟩ := List.mem_map.mp hq
  rfl

/-- A graph that can be loaded, run, installed and released; a run before its last vector and at it; the node of 21 R330. -/
theorem meets_MatrixWorkAndGraphs_graphs :
    (let s := (userX 0x300000 0 0).physWrite 0x300000 graphBytes
     (s.getX 1).toNat % 8 = 0 ∧ s.noConflict (s.getX 1) 64 .read ∧ s.noConflict (s.getX 1) 80 .read ∧ s.pend = [] ∧
       gives (leNat (graphBytes.take 64)) (s.read s.myAgent (s.getX 1) 64 .read) ∧
       graphHeader (leBytes 64 (leNat (graphBytes.take 64))) = some (80, 1, 1) ∧ gives (leNat graphBytes) (s.read s.myAgent (s.getX 1) 80 .read) ∧
       graphOf (leBytes 80 (leNat graphBytes)) = some (graph0, [0]) ∧ (∀ t, t < 1 → ([0] : List Nat).count t ≤ 256) ∧ 1 ≤ (s.freeStations s.cur).length ∧
       s.hasIssue 3 ∧ s.releaseReady = true) ∧
    (let s := graphed []
     s.me.graph = some (graph0, [0]) ∧ (s.getX 3).toNat = 1 ∧ (s.getX 1).toNat + 1 * graph0.nin * graph0.isize ≤ (s.getX 2).toNat ∧
       (s.graphRuns s.cur).length < 4 ∧ s.hasIssue 3 ∧ s.releaseReady = true ∧ oks (s.walkRange s.myAgent .read 0x1000 4) ∧
       oks (s.walkRange s.myAgent .write 0x2000 4) ∧ s.graphBusy s.cur = false) ∧
    (graphed [⟨0, 3, 1, .grun (grun0 1)⟩]).graphBusy 0 = true ∧ ((graphed []).modMe fun p => { p with wait := some .gfree }).waitOf 0 = some .gfree ∧
    ((graphed [⟨0, 3, 1, .gload graph0 [0]⟩]).ops.find? (fun o => o.plane == 0 && o.kind.isGraph) = some ⟨0, 3, 1, .gload graph0 [0]⟩) ∧
    (∀ n ∈ [1, 2], let s := graphed [⟨0, 3, 1, .grun (grun0 n)⟩]
     s.op? 0 3 1 = some ⟨0, 3, 1, .grun (grun0 n)⟩ ∧ s.holdsSlot 0 = true ∧ (grun0 n).done < (grun0 n).count ∧ s.pend = [] ∧ s.MemInv ∧
       (s.engineRead [frame0] (ringAddrs 0x1000 4)).isSome = true ∧
       (s.heldPlaces [frame0] (ringAddrs 0x2000 4)).map (fun qs => !s.writeFails qs && decide (qs.map (·.pa)).Nodup) = some true) ∧
    (graph0.nodes[0]? = some ⟨0, 0, 0, 0, false, false⟩) := by
  unfold State.hasIssue State.MemInv State.noConflict
  and_intros <;> decide +kernel

/-! ### Witnesses: routing -/

def table0 (hot : Bool) : RTable := ⟨7, 0, user.rootOfPlane 0, 0, 0, 0, 0, [⟨[0], 65535, 5, hot⟩]⟩
def slot0 : SlotHdr := ⟨0x3F800000, 0, 0, 0, 0, 0, 0, 0, 3, 1, 64, 16, 0x0A, 1⟩
def inbox0 (x : Slot) : Inbox := ⟨0, 128, [x], 0, 0⟩
/-- A strand with table 0, X1, X2, and bytes at 0x300000. -/
def routed (x1 x2 : Word) (bytes : List Byte) : State :=
  ({ userX x1 x2 0 with tables := Vector.ofFn fun i => if i.val = 0 then some (table0 true) else none } : State).physWrite 0x300000 bytes
/-- 23 Table 23-7 and one record of Table 23-8: one id, served by plane 0. -/
def tableBytes : List Byte := leBytes 2 1 ++ leBytes 2 1 ++ leBytes 28 0 ++ ([1] ++ leBytes 31 0)
/-- A ROUTE of one row of 64 bytes with sixteen results. -/
def routeBytes : List Byte :=
  leBytes 8 0x1000 ++ leBytes 8 64 ++ leBytes 8 0x2000 ++ leBytes 8 (2 ^ 63 + 0x1000) ++ leBytes 8 0x3000 ++ leBytes 4 64 ++ leBytes 2 64 ++ leBytes 2 16 ++
    [0, 1, 1, 0x0A] ++ leBytes 12 0
/-- A strand with an inbox of one slot, its granules FULL. -/
def received (x : Slot) : State :=
  { (userX 0x1000 0x8000000000000000 0).modMe fun p => { p with inbox := some (inbox0 x) } with full := (List.range 8).map fun i => coreSpad 0 / 16 + i }

/-- A table made under number 0, none free, and no such table; an update of an id that is there and of one that is not; inboxes within the quota and
past it; a head slot that can be handed out and one that cannot; a slot handed out; a ROUTE of one row; entries for RSTAT, one past its timer. -/
theorem meets_RouteInstructions :
    (let s := (userX 0x300000 0 0).physWrite 0x300000 tableBytes
     let h := leNat (tableBytes.take 32)
     (s.getX 1).toNat % 8 = 0 ∧ s.noConflict (s.getX 1) 32 .read ∧ s.noConflict (s.getX 1 + 32) 32 .read ∧ s.pend = [] ∧
       gives h (s.read s.myAgent (s.getX 1) 32 .read) ∧ h % 2 ^ 16 = 1 ∧ h / 2 ^ 16 % 2 ^ 16 = 1 ∧ h / 2 ^ 96 ≤ 63 ∧
       gives 1 (s.read s.myAgent (s.getX 1 + 32) (32 * 1) .read) ∧ replicaSets 1 (leBytes (32 * 1) 1) = some [[0]] ∧ s.tables[0]? = some none ∧
       s.idsUsed + 1 ≤ 4096) ∧
    (let s : State := { user with tables := Vector.replicate 64 (some (table0 true)) }
     ∀ k, k < 64 → s.tables[k]? ≠ some none) ∧
    (user.rtable? 0 0 = none ∧ (routed 0 0 []).rtable? 0 0 = some (table0 true) ∧ (table0 true).ids[0]? = some ⟨[0], 65535, 5, true⟩ ∧ (∀ r ∈ (table0 false).ids, r.hot = false)) ∧
    (let s := routed 0 0x300000 ([1] ++ leBytes 31 0)
     (s.getX 1).toNat = (s.getX 1).toNat % 256 + 65536 * ((s.getX 1).toNat / 65536 % 4096) ∧ (s.getX 2).toNat % 8 = 0 ∧ s.noConflict (s.getX 2) 32 .read ∧
       gives 1 (s.read s.myAgent (s.getX 2) 32 .read) ∧ replicaSet (leBytes 32 1) = some [0] ∧ s.releaseReady = true ∧ s.rtable? s.cur 0 = some (table0 true) ∧
       (table0 true).ids[1]? = none) ∧
    (let s := userX 2 0xFFFFFFFFFF 0
     (s.getX 1).toNat ≤ 2 ∧ (s.getX 2).toNat < 2 ^ 40 ∧ (s.getX 0).toNat = 0) ∧
    (let s := userX 0x8000000000000000 0x20001 0
     (s.getX 2).toNat = 1 + 65536 * 2 ∧ (s.getX 1).toNat % 64 = 0 ∧ 2 ^ 63 ≤ (s.getX 1).toNat ∧ s.me.inbox = none ∧
       oksWith (fun ps => ps.all (·.kind == .spad)) (s.localPlaces (s.getX 1).toNat (1 * 2 * 64)) ∧
       (s.getX 1).toNat - 2 ^ 63 + 1 * 2 * 64 ≤ s.me.qsize * 65536) ∧
    (let s := userX 0x800000000000FFC0 0x20001 0
     s.trapReady ∧ (s.getX 1).toNat % 64 = 0 ∧ (s.quotaFault? (s.getX 1).toNat (1 * 2 * 64)).map (faults ∘ Except.error (α := Unit)) = some true) ∧
    ((received (.delivered slot0)).headReady (inbox0 (.delivered slot0)) = true ∧ (received .free).headReady (inbox0 .free) = false ∧
       ((received .free).modMe fun p => { p with wait := some (.recv 1) }).waitOf 0 = some (.recv 1)) ∧
    (let s := received (.handed slot0)
     (inbox0 (.handed slot0)).handedAt (s.getX 2).toNat = some (0, slot0) ∧ s.hasIssue 3 ∧ s.releaseReady = true ∧
       oksWith (fun ps => ps.all (·.kind == .spad)) (s.localPlaces ((inbox0 (.handed slot0)).slotVa 0) 128) ∧
       oks (s.walkRange s.myAgent .read (s.getX 1).toNat (16 * 4))) ∧
    (let s := routed 0x300000 1 routeBytes
     let v := leNat routeBytes
     let f (o l : Nat) : Nat := v / 2 ^ (8 * o) % 2 ^ (8 * l)
     (s.getX 1).toNat % 8 = 0 ∧ s.noConflict (s.getX 1) 64 .read ∧ gives v (s.read s.myAgent (s.getX 1) 64 .read) ∧ s.rtable? s.cur (f 0x30 1) = some (table0 true) ∧
       (s.getX 2).toNat = 1 ∧ f 0x10 8 % 8 = 0 ∧ 2 ^ 63 ≤ f 0x18 8 ∧ f 0x18 8 % 64 = 0 ∧ f 0x28 4 % 64 = 0 ∧ 4 * f 0x2E 2 ≤ f 0x28 4 ∧ f 0x2C 2 % 64 = 0 ∧
       1 ≤ f 0x2C 2 ∧ f 0x2C 2 ≤ 16384 ∧ f 0x2E 2 % 16 = 0 ∧ 1 ≤ f 0x2E 2 ∧ f 0x2E 2 ≤ 4096 ∧ 1 ≤ f 0x31 1 ∧ f 0x31 1 ≤ f 0x32 1 ∧ f 0x32 1 ≤ 4 ∧
       f 0x33 1 = 0x0A ∧ v / 2 ^ (8 * 0x34) = 0 ∧
       oks (joinWalks [s.walkRange s.myAgent .read 0x1000 64, s.walkRange s.myAgent .read 0x2000 8, s.walkRange s.myAgent .write (2 ^ 63 + 0x1000) 64,
          s.walkRange s.myAgent .write 0x3000 1]) ∧ s.hasIssue 3 ∧ s.releaseReady = true ∧ s.routes = []) := by
  unfold State.hasIssue State.noConflict State.trapReady State.mayTrap
  and_intros <;> decide +kernel

/-- A riddling-table entry of plane 0: one row of 64 bytes, a choice, and sixteen results. -/
def rent (kt policy tmo : Nat) (sets : List (List PlaneId × Nat)) (st : RouteState) (cleared : Bool) (outst : List Outst) : RouteEnt :=
  ⟨0, 0, 0, user.me.coh, 0, 3, 1, 1, 0x1000, 64, 0x2000, 2 ^ 63 + 0x1000, 0x3000, 64, 64, 16, 0, 7, 1, kt, 0x0A, policy, tmo, 0, some 0, sets,
    [frame0, spad0], st, cleared, 0, 0, [], [0], outst, 0, 0, false, false⟩
/-- It with its choice words, and an inbox of one slot on plane 0 and one, free, on plane 4. -/
def routing (r : RouteEnt) (x : Slot) (choices : List Byte) : State :=
  let s := (userX 0 0 0).modMe fun p => { p with inbox := some (inbox0 x) }
  let s := s.modPlane 4 fun _ => { s.plane 0 with inbox := some (inbox0 .free) }
  { s with routes := [r], ops := [⟨0, 3, 1, .route⟩], cycle := 5 }.physWrite 0x2000 choices
def choice0 (id : Nat) : List Byte := leBytes 4 0x3F800000 ++ leBytes 4 id
/-- The places of n bytes of a core's scratchpad from an offset. -/
def spadAt (core : CoreId) (o n : Nat) : List Place := (List.range n).map fun i => ⟨coreSpad core + o + i, o + i, .spad, core⟩
/-- A return of the row and choice of slot 0 from plane 0. -/
def returning (r : RouteEnt) (err : Bool) : State :=
  { routing r .free [] with ops := [⟨0, 3, 1, .route⟩, ⟨0, 5, 1, .rret { slot0 with rcoh := user.me.coh } 0x4000 err [frame0]⟩] }

/-- A cohort of the same root, evicted from plane 1. -/
def away : Cohort :=
  ⟨9, .evicted, ⟨0, false, true, 1, 1, 0, user.me.xroot, 0, 1, 0, [], [], []⟩, .host 0, 9, 9, [1], [0], [], [0], [0], none⟩

/-- The strand's inbox, as the saved context of plane 1 has it. -/
def awayCtx (x : Slot) : EngCtx := ⟨{ user.plane 0 with inbox := some (inbox0 x) }, [], []⟩

/-- Entries in each state; one past its timer, one that a delivery holds; choices that go, that no expert serves, that find a usable endpoint with a
free slot and with none under each policy, a spare, and an expert that is evicted, with a free slot and without. -/
theorem meets_RouteWork_placing :
    (∀ r ∈ [rent 1 0 0 [([0], 1)] .routing false [], rent 1 0 0 [([0], 1)] .routing true [], rent 1 2 1 [([0], 1)] .waiting true [⟨0, 0, 0⟩], rent 1 0 9 [([0], 1)] .released true []],
      let s := routing r .free (choice0 0)
      s.route? r.core r.e = some r ∧ s.pend = [] ∧ s.MemInv ∧ s.routerHere r = true) ∧
    (let r := rent 1 2 1 [([0], 1)] .routing true []
     (routing r .free []).timerAt r (r.tmo + 1) = true ∧ r.cleared = true ∧ r.policy = 2 ∧ r.holding = false) ∧
    (let r := { rent 1 0 9 [([0], 1)] .routing true [] with holding := true }
     let s := routing r .free []
     s.route? r.core r.e = some r ∧ s.timerAt r (r.tmo + 1) = false ∧ r.cleared = true ∧ r.holding = true) ∧
    (let r := rent 1 0 0 [([0], 1)] .routing false []
     let s := routing r .free []
     s.timerAt r (r.tmo + 1) = false ∧
       s.heldPlaces r.xl ((List.range r.rows).flatMap fun i => addrs (r.out + i * r.opitch) (4 * r.nout)) = some (spadAt 0 0x1000 64)) ∧
    (∀ id ∈ [0, 1, 0xFFFF], let r := rent 1 0 0 [([0], 1)] .routing true []
     let s := routing r .free (choice0 id)
     (s.engineRead r.xl (addrs (r.choiceAt + 8 * (r.kt * r.row + r.choice)) 8)).map (fun x => (leNat x.1 / 2 ^ 32 % 2 ^ 16, leNat x.1 / 2 ^ 48)) = some (id, 0)) ∧
    (rent 1 0 0 [([0], 1)] .routing true []).sets[1]? = none ∧
    (∀ policy ∈ [0, 2], let r := rent 1 policy 0 [([0], 1)] .routing true []
     let s := routing r .free (choice0 0)
     ((([0] : List PlaneId).filter fun p => s.usable (s.rootOfPlane 0) r.rbytes p).filter fun p => s.hasSlot p) = [0] ∧
       (s.engineRead r.xl (addrs (r.rowVa 0) r.rbytes)).isSome = true ∧ (s.plane 0).inbox = some (inbox0 .free) ∧
       oksWith (· == spadAt 0 64 64) (s.places (s.agent 0) .write false 64 ((inbox0 .free).slotVa 0 + 64) none) ∧
       oksWith (· == spadAt 0 0 64) (s.places (s.agent 0) .write false 64 ((inbox0 .free).slotVa 0) none) ∧
       ((spadAt 0 64 64 ++ spadAt 0 0 64).map (·.pa)).Nodup) ∧
    (let s := routing (rent 1 0 0 [([1], 1)] .routing true []) .free (choice0 0)
     (([1] : List PlaneId).filter fun p => s.usable (s.rootOfPlane 0) 64 p) = [] ∧ ∀ q ∈ ([1] : List PlaneId), s.awayAt (s.rootOfPlane 0) 64 q = false) ∧
    (let s := { routing (rent 1 0 0 [([1], 1)] .routing true []) .free (choice0 0) with cohorts := [away], parked := [⟨user.plane 0, [], []⟩] }
     (([1] : List PlaneId).filter fun p => s.usable (s.rootOfPlane 0) 64 p) = [] ∧ (user.plane 0).inbox = none ∧ s.awayAt (s.rootOfPlane 0) 64 1 = false) ∧
    (∀ x ∈ [Slot.free, .delivered slot0],
     let s := { routing (rent 1 0 0 [([1], 1)] .routing true []) .free (choice0 0) with cohorts := [away], parked := [awayCtx x] }
     (([1] : List PlaneId).filter fun p => s.usable (s.rootOfPlane 0) 64 p) = [] ∧ s.awayAt (s.rootOfPlane 0) 64 1 = true ∧ s.awayAt (s.rootOfPlane 0) 65 1 = false ∧ away.st = .evicted ∧
       rootOf away.rcd.xroot = s.rootOfPlane 0 ∧ away.planes[0]? = some 1 ∧ away.saved[0]? = some 0 ∧ 64 + 64 ≤ (inbox0 x).slotBytes ∧
       s.awaySlot (s.rootOfPlane 0) 64 1 = (if x = .free then some (9, 0) else none) ∧ ((s.parked[0]?).bind (·.pl.inbox)) = some (inbox0 x)) ∧
    (let s := routing (rent 1 0 0 [([0], 1)] .routing true []) (.delivered slot0) (choice0 0)
     (([0] : List PlaneId).filter fun p => s.usable (s.rootOfPlane 0) 64 p) = [0] ∧ s.hasSlot 0 = false ∧ (s.awayAt (s.rootOfPlane 0) 64 0 = false)) ∧
    (let r := rent 1 1 0 [([0], 1)] .routing true []
     (routing r (.delivered slot0) (choice0 0)).nextSpare r 0 (indices r.k r.kt) = none) ∧
    (let r := rent 2 1 0 [([0], 1), ([4], 1)] .routing true []
     let s := routing r (.delivered slot0) (choice0 0 ++ choice0 1)
     s.nextSpare r 0 (indices r.k r.kt) = some (1, 4, 0x3F800000, 1, 1) ∧ (s.plane 4).inbox = some (inbox0 .free) ∧
       oksWith (· == spadAt 1 64 64) (s.places (s.agent 4) .write false 64 ((inbox0 .free).slotVa 0 + 64) none) ∧
       oksWith (· == spadAt 1 0 64) (s.places (s.agent 4) .write false 64 ((inbox0 .free).slotVa 0) none)) := by
  unfold State.MemInv
  and_intros <;> decide +kernel

/-- A timer before TMO, at it and off; a released entry; returns that are outstanding, that are not, that find no entry and that find one past its
timer; one of an older cohort of the router’s number; a table that is the one captured, and another under its number. -/
theorem meets_RouteWork_ending :
    (let r := rent 1 2 1 [([0], 1)] .waiting true [⟨0, 0, 0⟩]
     r.st ≠ .released ∧ 1 ≤ r.tmo ∧ r.tmo ≤ (routing r .free []).routeClk r ∧ (rent 1 0 0 [] .waiting true []).tmo = 0) ∧
    (let r := rent 1 0 9 [([0], 1)] .released true []
     (routing r .free []).heldPlaces r.xl (addrs r.stat r.rows) = some [⟨0x3000, 0x3000, .plain, 0⟩]) ∧
    (∀ o ∈ [[⟨0, 0, 0x3F800000⟩], []], ∀ err ∈ [false, true], let r := rent 1 0 9 [([0], 1)] .waiting true o
     let s := returning r err
     let h := { slot0 with rcoh := user.me.coh }
     s.op? 0 5 1 = some ⟨0, 5, 1, .rret h 0x4000 err [frame0]⟩ ∧ (∀ c ∈ s.cohorts, c.num = h.rcoh → c.order = h.rord → c.st ≠ .evicted) ∧
       (∃ c ∈ s.cohorts, c.num = h.rcoh ∧ c.order = h.rord) ∧ (s.plane h.router).st ≠ .free ∧ (s.plane h.router).coh = h.rcoh ∧
       (s.engineRead [frame0] (addrs 0x4000 64)).isSome = true ∧ s.timerAt r (r.tmo + 1) = false ∧
       s.routes.find? (fun x => x.plane == h.router && x.coh == h.rcoh && x.ord == h.rord && x.n == h.n && x.seq == h.seq) = some r ∧
       s.heldPlaces r.xl (addrs (r.out + 0 * r.opitch) 64) = some (spadAt 0 0x1000 64)) ∧
    (let r := rent 1 0 1 [([0], 1)] .waiting true [⟨0, 0, 0x3F800000⟩]
     (returning r false).timerAt r (r.tmo + 1) = true) ∧
    (let h := { slot0 with rcoh := user.me.coh, rord := 7 }
     let s := { routing (rent 1 0 9 [([0], 1)] .waiting true [⟨0, 0, 0x3F800000⟩]) .free [] with ops := [⟨0, 5, 1, .rret h 0x4000 true [frame0]⟩] }
     s.op? 0 5 1 = some ⟨0, 5, 1, .rret h 0x4000 true [frame0]⟩ ∧ (∀ c ∈ s.cohorts, c.num = h.rcoh → c.order ≠ h.rord) ∧
       s.routes.find? (fun x => x.plane == h.router && x.coh == h.rcoh && x.ord == h.rord && x.n == h.n && x.seq == h.seq) = none) ∧
    ({ returning (rent 1 0 9 [] .waiting true []) false with routes := [] } : State).routes.find? (fun x => x.plane == 0) = none ∧
    ((table0 true).gen = (rent 1 0 9 [] .waiting true []).tgen ∧ ({ table0 true with gen := 8 } : RTable).gen ≠ (rent 1 0 9 [] .waiting true []).tgen) := by
  and_intros <;> decide +kernel

/-! ### Witnesses: collectives -/

/-- 25 Table 25-1: S32 sums of the group that GRPS slot 1 names, on package 0. -/
def commBytes (flags : Byte) : List Byte := leBytes 2 1 ++ [1, 0, 0, 1, 0, flags, 0, 5, 0, 0] ++ leBytes 4 7 ++ leBytes 8 1 ++ leBytes 40 0
/-- What it describes, with entry 5's planes, and one member: the strand on plane 0. -/
def comm0 (jobs : List CollJob) (streams : List CommStream) : CommPart :=
  ⟨0, 5, leBytes 2 1 ++ ((commBytes 0).drop 3), 0, 0, 1, 65536, false, false, 0, .s32, 7, [0], false, 0, [0], [⟨0, user.me.coh, 0, 0, 0, true⟩], [], jobs, streams⟩
/-- A strand of a group of one with X1, X2, parts of communicators, operations, and bytes at 0x300000. -/
def collecting (x1 x2 : Word) (comms : List CommPart) (ops : List AOp) (bytes : List Byte) : State :=
  let s := (userX x1 x2 0).modMe fun p => { p with grps := 0x0000000200000500 }
  ({ s with groups := s.groups.set 5 ⟨some 0, [0], 0, [], false⟩, comms := comms, ops := ops } : State).physWrite 0x300000 bytes
/-- 25 Table 25-4: four elements from 0x1000 to 0x2000. -/
def startBytes : List Byte := leBytes 8 0 ++ leBytes 8 0x1000 ++ leBytes 8 0x2000 ++ leBytes 8 4 ++ leBytes 32 0
/-- 25 Table 25-5: a memory stream of one piece of four elements, both ways. -/
def streamBytes : List Byte := leBytes 2 1 ++ [0xFF, 0, 3, 0, 0, 0] ++ leBytes 4 4 ++ leBytes 4 0 ++ leBytes 8 1 ++ leBytes 8 0
def stream0 (arrived : List (List Nat)) : Stream := ⟨0, 1, none, 0, true, true, 0, 0, 4, 1, .s32, 0, 0, arrived, 0, [], 0, false, false⟩
def withStream (s : State) (st : Stream) : State := s.modMe fun p => { p with streams := p.streams.set 0 (some st) }

/-- A part that can be made, a mode that cannot, a part to join or with another descriptor, none free and no pool left; a CSTART, a CBIND, a CSEND and
a CFETCH within their limits; an operation of no status for CCANCEL; members and streams that have nothing pending and that have. -/
theorem meets_CollectiveInstructions :
    (let s := collecting 0x300000 0 [] [] (commBytes 0)
     let v := leNat (commBytes 0)
     (s.getX 1).toNat % 8 = 0 ∧ s.noConflict (s.getX 1) 64 .read ∧ s.pend = [] ∧ gives v (s.read s.myAgent (s.getX 1) 64 .read) ∧
       (commDesc? (leBytes 64 v)).map (fun x => (x.1, x.2.1, x.2.2.pkgs.contains s.pkg, x.2.2.raw == (comm0 [] []).raw, x.2.2.key,
         decide (s.poolUsed 0 x.2.2.vc + 2 * x.2.2.chunk ≤ 2 ^ 20))) = some (1, 0, true, true, 7, true) ∧
       s.me.groupSlot (BitVec.ofNat 2 1) = some 5 ∧ s.comms = [] ∧ (commMode 0 0 .s32).toOption = some false) ∧
    ((commMode 3 0 .s32).toOption = none ∧ (commDesc? (commBytes 3)).map (fun x => (x.1, x.2.1)) = some (1, 3)) ∧
    (let s := collecting 0x300000 0 [comm0 [] []] [] (commBytes 0)
     s.comms.find? (fun c => c.entry == 5 && c.key == 7) = some (comm0 [] []) ∧ ({ comm0 [] [] with raw := [] } : CommPart).raw ≠ (comm0 [] []).raw) ∧
    (let s := collecting 0x300000 0 ((List.range 64).map fun k => { comm0 [] [] with num := k, key := 9 }) [] []
     ∀ k, k < 64 → ∃ c ∈ s.comms, c.num = k) ∧
    (let s := collecting 0x300000 0 [{ comm0 [] [] with key := 9, chunk := 2 ^ 19 }] [] []
     2 ^ 20 < s.poolUsed 0 0 + 2 * 65536 ∧ (∀ c ∈ s.comms, c.num ≠ 1) ∧ ∀ k, k < 1 → ∃ c ∈ s.comms, c.num = k) ∧
    (user.commOf 0 0 = none ∧ user.me.wait = none ∧ (user.getX 1).toNat < 256 ∧ user.me.vq = [] ∧ (user.getX 2).toNat % 8 = 0) ∧
    (let s := collecting 0 0x300000 [comm0 [] []] [] startBytes
     let v := leNat startBytes
     s.commOf s.cur 0 = some (comm0 [] [], ⟨0, user.me.coh, 0, 0, 0, true⟩) ∧ s.commBusy s.cur 0 = false ∧ (s.getX 2).toNat % 8 = 0 ∧
       s.noConflict (s.getX 2) 64 .read ∧ gives v (s.read s.myAgent (s.getX 2) 64 .read) ∧ (comm0 [] []).size s.pkg = 1 ∧ (comm0 [] []).rank s.pkg s.cur = 0 ∧
       v % 2 ^ 64 = 0 ∧ v / 2 ^ 64 % 2 ^ 64 = 0x1000 ∧ v / 2 ^ 128 % 2 ^ 64 = 0x2000 ∧ v / 2 ^ 192 = 4 ∧ collSrc 0 0 0 1 4 * 4 = 16 ∧ collDst 0 0 0 1 4 * 4 = 16 ∧
       oks (joinWalks [s.walkRange s.myAgent .read 0x1000 16, s.walkRange s.myAgent .write 0x2000 16, s.walkRange s.myAgent .write 0 (2 * 0),
          s.walkExtent s.myAgent .rmw true 0 0]) ∧ s.hasIssue 3 ∧ s.releaseReady = true) ∧
    (let x : CollStart := ⟨0, 1, 0, 0, 0x1000, 0x2000, 4, 0, 0, 0, 16, 16, [], [frame0]⟩
     let s := collecting 0 0 [comm0 [⟨1, none, [], [], 0, []⟩] []] [⟨0, 3, 1, .cstart x⟩] []
     s.commOfOp ⟨0, 3, 1, .cstart x⟩ = some 0 ∧ ((s.comms.head?).bind (·.job? 1)).map (·.status) = some none) ∧
    (let s := collecting 0 0x300000 [comm0 [] []] [] streamBytes
     s.noConflict (s.getX 2) 32 .read ∧ gives (leNat streamBytes) (s.read s.myAgent (s.getX 2) 32 .read) ∧ s.me.vq = [] ∧
       streamRec? (leBytes 32 (leNat streamBytes)) 0 1 0 1 .s32 = some (stream0 []) ∧ (s.me.streams[0]?).join = none) ∧
    (let s := (collecting 0 0 [comm0 [] []] [] []).modMe fun p => { p with streams := Vector.replicate 16 (some (stream0 [])) }
     ∀ k : Nat, k < 16 → ((s.me.streams[k]?).join).isSome = true) ∧
    (let s := withStream (collecting 0 0x1000 [comm0 [] []] [] []) (stream0 [])
     (s.getX 1).toNat = 0 ∧ s.stream? 0 = some (stream0 []) ∧ (s.getX 2).toNat % tagBytes .s32 = 0 ∧ s.hasIssue 3 ∧ s.releaseReady = true ∧
       (stream0 []).sent < (stream0 []).npiece ∧ (stream0 []).taken < (stream0 []).npiece ∧ oks (s.walkRange s.myAgent .read 0x1000 16) ∧
       oks (s.walkRange s.myAgent .write 0x1000 16) ∧ s.commBusy s.cur 0 = true ∧ s.ops = [] ∧ (stream0 []).out = []) ∧
    (let s := withStream (collecting 0 0 [comm0 [] []] [⟨0, 3, 1, .csend 0 0x1000 [frame0]⟩] []) (stream0 [])
     ⟨0, 3, 1, .csend 0 0x1000 [frame0]⟩ ∈ s.ops) ∧
    (let s := (withStream (collecting 0 0 [comm0 [] []] [] []) (stream0 [])).modMe fun p => { p with wait := some (.cunbind 1 0) }
     s.waitOf 0 = some (.cunbind 1 0) ∧ s.stream? 0 = some (stream0 [])) ∧
    (let s := (collecting 0 0 [comm0 [] []] [] []).modMe fun p => { p with wait := some (.cfree 1 0) }
     s.waitOf 0 = some (.cfree 1 0) ∧ (s.commOf 0 0).isSome = true) := by
  unfold State.hasIssue State.noConflict
  and_intros <;> decide +kernel

/-- A job of ordinal 1 with the record of rank 0, chunks sent, and SRC as read. -/
def job0 (status : Option Nat) (chunks : Nat) : CollJob := ⟨1, status, [(0, [0, 0, 4])], [(0, (List.range 4).flatMap fun i => leBytes 4 (i + 1))], chunks, []⟩
def start0 (acnt : Nat) (landed : List Nat) : CollStart := ⟨0, 1, 0, 0, 0x1000, 0x2000, 4, 0, acnt, 0, 16, 16, landed, [frame0]⟩
def started (status : Option Nat) (chunks acnt : Nat) (landed : List Nat) : State :=
  collecting 0 0 [comm0 [job0 status chunks] []] [⟨0, 3, 1, .cstart (start0 acnt landed)⟩] []
/-- The places of n bytes of frame 0. -/
def memAt (a n : Nat) : List Place := (List.range n).map fun i => ⟨a + i, a + i, .plain, 0⟩

/-- The part of a communicator of two packages, one operation issued. -/
def comm2 : CommPart := { comm0 [job0 none 0] [] with pkgs := [0, 1], joined := [0, 1] }
/-- A state whose engines hold what is ready of ordinal 1. -/
def sending (s : State) : State := { s with engines := Vector.replicate 2 ⟨[.op 0 1], [], List.replicate 8 0⟩ }

/-- Parts to join; records before and after a first one; a chunk to send, to a package that no message reaches too, and a second and last one that is
empty; tiles with no count array, with one, and with a counter, the scratchpad’s granules among them; pieces and ends of streams. -/
theorem meets_CollectiveWork :
    (let s := collecting 0 0 [{ comm0 [] [] with pkgs := [0, 1] }] [] []
     (s.comm? 0).isSome = true ∧ s.MemInv ∧ 1 ∈ [0, 1] ∧ 1 ∉ (comm0 [] []).joined ∧ 1 ∉ (comm0 [] []).pkgs) ∧
    (let c := comm0 [job0 none 0] [⟨1, none, [], []⟩]
     c.base 0 + c.planes.length ≤ 1 ∧ (c.job? 1).map (·.recs) = some [(0, [0, 0, 4])] ∧ c.job? 2 = none ∧ (c.stream? 1).isSome = true) ∧
    (let s := sending (started none 0 0 [])
     let u := sending (collecting 0 0 [comm2] [⟨0, 3, 1, .cstart (start0 0 [])⟩] [])
     (∀ q, (s.engines.get q).queue = [.op 0 1]) ∧ .op 0 1 ∈ s.readyItems (comm0 [job0 none 0] []) ∧ (comm0 [] []).vc < 8 ∧ s.pend = [] ∧
       (comm0 [] []).planes.Nodup ∧ s.collOp 0 0 1 = some (start0 0 []) ∧ s.sendFails (comm0 [] []) 0 0 = false ∧
       min (comm0 [] []).chunk ((start0 0 []).srcBytes - 0) = 16 ∧ (s.engineRead [frame0] (ringAddrs (0x1000 + 0 * 65536) 16)).isSome = true ∧
       min (comm0 [] []).chunk (({ start0 0 [] with srcBytes := 0 } : CollStart).srcBytes - 0) = 0 ∧
       .op 0 1 ∈ ({ u with failing := [1] } : State).readyItems comm2 ∧
       ({ u with failing := [1] } : State).sendFails comm2 0 0 = true) ∧
    (∀ m ∈ [(0, 0), (0x3000, 0), (0x3000, 0x5000)], let x := { start0 m.1 [] with cnt := m.2 }
     let s := collecting 0 0 [comm0 [job0 none 1] []] [⟨0, 3, 1, .cstart x⟩] []
     let ps := memAt 0x2000 16 ++ memAt 0x5000 (if m.2 = 0 then 0 else 8) ++ memAt 0x3000 (if m.1 = 0 then 0 else 8)
     s.op? 0 3 1 = some ⟨0, 3, 1, .cstart x⟩ ∧ 0 < x.tiles ∧ (comm0 [] []).size s.pkg ≤ (job0 none 1).recs.length ∧ s.pend = [] ∧
       ((comm0 [job0 none 1] []).output s.pkg s.free (job0 none 1) 0 0 0 4 0 4).map (·.map (·.2)) = some [1, 1, 1, 1] ∧
       s.heldPlaces x.xl (ringAddrs 0x2000 16 ++ (if m.2 = 0 then [] else ringAddrs 0x5000 8) ++ (if m.1 = 0 then [] else ringAddrs 0x3000 8)) = some ps ∧
       oks (s.readPlaces 0 (memAt 0x3000 8)) ∧ s.writeFails ps = false ∧ (ps.map (·.pa)).Nodup ∧
       ∀ q ∈ ps, q.pa ∉ summaryBytes ps ++ fullBytes ps ∧ q.kind = .plain) ∧
    (let s := started none 1 0 []
     let ps := (s.heldPlaces [spad0] (ringAddrs (2 ^ 63) 16)).getD []
     ps.length = 16 ∧ (∀ q ∈ ps, q.kind = .spad) ∧ s.writeFails ps = false ∧ (ps.map (·.pa)).Nodup ∧
       ∀ q ∈ ps, q.pa ∉ summaryBytes ps ++ fullBytes ps) ∧
    (let j : CommStream := ⟨1, none, [(0, [0, 0, 4, 1])], [(0, [[1, 2, 3, 4]])]⟩
     let s := withStream (collecting 0 0 [comm0 [] [j]] [] []) (stream0 [])
     ((s.plane 0).streams[0]?).join = some (stream0 []) ∧ (s.plane 0).st ≠ .free ∧ (stream0 []).delivered < (stream0 []).npiece ∧ (stream0 []).consume = true ∧
       (stream0 []).zero = false ∧ (comm0 [] [j]).stream? 1 = some j ∧ (comm0 [] [j]).isJoined s.pkg = true ∧
       ((comm0 [] [j]).piece s.pkg s.free j (stream0 []) 0).isSome = true) ∧
    (let s := started (some 1) 0 0 []
     s.member? 0 (comm0 [job0 (some 1) 0] []) = some ⟨0, user.me.coh, 0, 0, 0, true⟩ ∧ s.op? 0 3 1 = some ⟨0, 3, 1, .cstart (start0 0 [])⟩) ∧
    (max 1 ((collData 0 1 4 * tagBytes .s32 + 65536 - 1) / 65536) ≤ (job0 none 1).chunks ∧ (start0 0 [0]).landed.length = (start0 0 [0]).tiles ∧
      (start0 0 []).landed.length ≠ (start0 0 []).tiles) ∧
    (let s := withStream (collecting 0 0 [comm0 [] []] [⟨0, 3, 1, .csend 0 0x1000 [frame0]⟩] []) (stream0 [])
     s.op? 0 3 1 = some ⟨0, 3, 1, .csend 0 0x1000 [frame0]⟩ ∧ s.pieceAhead 0 3 1 0 true = false ∧ s.pend = [] ∧
       (s.engineRead [frame0] (ringAddrs 0x1000 (4 * tagBytes .s32))).isSome = true) ∧
    (let s := withStream (collecting 0 0 [comm0 [] []] [⟨0, 3, 1, .cfetch 0 0x1000 [frame0]⟩] []) (stream0 [[1, 2, 3, 4]])
     s.op? 0 3 1 = some ⟨0, 3, 1, .cfetch 0 0x1000 [frame0]⟩ ∧ (stream0 [[1, 2, 3, 4]]).arrived = [1, 2, 3, 4] :: [] ∧ s.pieceAhead 0 3 1 0 false = false ∧ s.pend = [] ∧
       s.heldPlaces [frame0] (ringAddrs 0x1000 (4 * tagBytes .s32)) = some (memAt 0x1000 16) ∧ s.writeFails (memAt 0x1000 16) = false ∧ ((memAt 0x1000 16).map (·.pa)).Nodup) ∧
    (arbitrate ⟨[], [], List.replicate 8 0⟩ [(0, 1, 2), (3, 4, 1)]).isSome = true ∧
    (tagIsInt .s32 = true ∧ (comm0 [] []).op = 0 ∧ (comm0 [] []).nanskip = false ∧ (comm0 [] []).cntblk = false ∧ 0 < (comm0 [] []).size 0 ∧
      ((comm0 [] []).output 0 0 (job0 none 1) 3 0 0 4 1 3).isSome = true) := by
  unfold State.MemInv
  and_intros <;> decide +kernel

/-! ### Witnesses: cohorts and saved contexts -/

/-- 05 Table 5-3: one strand, with U-level parameters. -/
def recordBytes0 : List Byte :=
  leBytes 2 1 ++ [0, 0] ++ leBytes 2 1 ++ [1, 0] ++ leBytes 8 0x100000 ++ leBytes 8 0x200000 ++ leBytes 96 0
def rcd0 (level n area : Nat) : LaunchRec :=
  ⟨level, false, false, n, 1, 0x100000, 0x200000, BitVec.ofNat 64 area, 0, 1, List.replicate 8 0, [], []⟩
/-- A cohort of one strand on plane 0. -/
def coh0 (num : Nat) (st : CohortState) (r : LaunchRec) (l : Launcher) : Cohort :=
  ⟨num, st, r, l, num, num, if st = .waiting then [] else [0], if st = .waiting then [] else [0], [], List.replicate r.nstrand 0, if st = .evicted then [0] else [], none⟩
def launching (x1 x2 : Word) (cohorts : List Cohort) : State :=
  { userX x1 x2 0 with cohorts := cohorts, nextOrder := 9 }.physWrite 0x300000 recordBytes0

/-- A LAUNCH whose record's bytes are those of v, no address of it held up. -/
def asked (s : State) (v : Nat) : Prop :=
  s.releaseReady = true ∧ (s.getX 1).toNat % 64 = 0 ∧ s.noConflict (s.getX 1) 128 .read ∧ gives v (s.read s.myAgent (s.getX 1) 128 .read) = true ∧
    128 + 64 * (v / 2 ^ 56 % 256) + 8 * (v / 2 ^ 264 % 256) = 128
/-- Cohorts with the numbers below n, and a state in which no number is free. -/
def numbered (n : Nat) : List Cohort := (List.range n).map fun i => coh0 i .resident (rcd0 0 1 0) (.host 0)
def allTaken (n : Nat) : State := { launching 0x300000 0 [] with cohorts := numbered n }

theorem allTaken_num (n num : Nat) (h : num < n) : ∃ k ∈ (allTaken n).cohorts, k.num = num :=
  ⟨coh0 num .resident (rcd0 0 1 0) (.host 0), List.mem_map_of_mem (List.mem_range.mpr h), rfl⟩
theorem allTaken_level (n : Nat) : (allTaken n).levelFull 0 = false := by
  have h : (numbered n).filter (fun k => k.st == .waiting && k.rcd.level == 0) = [] := by
    rw [List.filter_eq_nil_iff]
    intro k hk
    obtain ⟨i, -, rfl⟩ := List.mem_map.mp hk
    simp [coh0]
  simp [State.levelFull, allTaken, h]

theorem allTaken_asked : asked (allTaken 0xFFFF) (leNat recordBytes0) := by
  unfold asked State.noConflict; decide +kernel
theorem allTaken_word : oks ((allTaken 0xFFFF).wordPlace ((allTaken 0xFFFF).getX 2)) = true := by decide +kernel
theorem allTaken_issue : (allTaken 0xFFFF).hasIssue 3 := by unfold State.hasIssue; decide +kernel

/-- Records that are misaligned, of another version, without privilege, with a word that cannot be, at a level that is full, with every number taken, and
queued. -/
theorem meets_CohortLifecycle_launch :
    (user.releaseReady = true ∧ ((userX 0x300020 0 0).getX 1).toNat % 64 ≠ 0) ∧
    (asked (userX 0x310000 0 0) 0 ∧ launchRec? (leBytes 128 0) = none) ∧
    (let v := leNat recordBytes0
     asked (launching 0x300000 0 user.cohorts) v ∧ (launching 0x300000 0 user.cohorts).me.level = .u ∧
       (launchRec? (leBytes 128 v)).map (fun r => (r.level, r.status (some (rootOf (launching 0x300000 0 user.cohorts).me.xroot)), r.status (some 0) != 0)) =
         some (0, 0, true)) ∧
    (let s := launching 0x300000 0x3001 user.cohorts
     asked s (leNat recordBytes0) ∧ oks (s.wordPlace (s.getX 2)) = false) ∧
    (let s := launching 0x300000 0 user.cohorts
     oks (s.wordPlace (s.getX 2)) = true ∧ s.levelFull 0 = false ∧ s.hasIssue 3 ∧ (∀ k ∈ s.cohorts, k.num ≠ 1) ∧ ∀ j, j < 1 → ∃ k ∈ s.cohorts, k.num = j) ∧
    (let s := launching 0x300000 0 ((List.range 64).map fun i => coh0 i .waiting (rcd0 0 1 0) (.host 0))
     asked s (leNat recordBytes0) ∧ oks (s.wordPlace (s.getX 2)) = true ∧ s.levelFull 0 = true) ∧
    (let s := allTaken 0xFFFF
     asked s (leNat recordBytes0) ∧ oks (s.wordPlace (s.getX 2)) = true ∧ s.hasIssue 3 ∧ s.levelFull 0 = false ∧
       ∀ num, num < 0xFFFF → ∃ k ∈ s.cohorts, k.num = num) := by
  refine ⟨by decide +kernel, ?_, ?_, ?_, ?_, ?_, allTaken_asked, allTaken_word, allTaken_issue, allTaken_level 0xFFFF, allTaken_num 0xFFFF⟩
  all_goals
    first | unfold asked State.noConflict | unfold State.hasIssue
    decide +kernel

/-- A launch on the free plane 1, with a partition, a group of its rank and a watermark to be reset. -/
theorem meets_CohortLifecycle_admission :
    let r := { rcd0 0 1 0 with quota := 1, groups := [1], wms := [(5, true, true)] }
    let k := coh0 1 .waiting r (.host 0)
    let s := launching 0 0 (user.cohorts ++ [k])
    s.head = some k ∧ s.doomed = [] ∧ k.st = .waiting ∧ s.cohort? 1 = some k ∧ s.tablesFor r = true ∧ s.placeOk r [1] [1] = true ∧ s.MemInv ∧
      ((List.range 256).filter fun e => (s.group e).owner.isNone)[0]? = some 0 ∧ r.args.length ≤ 8 := by
  unfold State.MemInv; decide +kernel

/-- Cohort 0 with its area at a place, where the launch that waits needs the whole core. -/
def crowded (area : Nat) : State := launching 0 0 [coh0 0 .resident (rcd0 0 1 area) (.host 0), coh0 1 .waiting (rcd0 5 4 0) (.host 0)]
/-- An evicted producer of watermark 5 that had plane 0. -/
def producer : Cohort := { coh0 1 .evicted (rcd0 0 1 0x10000000) (.host 0) with rcd := { rcd0 0 1 0x10000000 with wms := [(5, true, false)] } }
/-- Cohort 0, with its area at a place, stands in a VLDW for it. -/
def stalled (area : Nat) : State :=
  let s := holding ((vec .z64 .z64 0 1).modMe fun p => { p with level := .s }) (.vldw 8 1 5 0)
  let s := s.modMe fun p => { p with x := p.x.set 1 0x1000 }
  { s with cohorts := [coh0 0 .resident (rcd0 0 1 area) (.host 0), producer], parked := [⟨s.me, [], []⟩] }
/-- The contexts of its strands, saved one after the other. -/
def savedOf (s : State) (k : Cohort) : Option State := (s.modCohort k.num fun k => { k with saved := [] }).saveStrands k k.planes.zipIdx

/-- Victims whose areas can be written, cannot, and whose partition is poisoned; cohorts that are no victim, or whose run holds a tile half written. -/
theorem meets_CohortLifecycle_eviction :
    (∀ x ∈ [(crowded 0x10000000, 0x10000000, true), (crowded 0x40000000, 0x40000000, false),
        ({ crowded 0x10000000 with poison := [coreSpad 0] }, 0x10000000, false)],
      let k := coh0 0 .resident (rcd0 0 1 x.2.1) (.host 0)
      x.1.cohort? 0 = some k ∧ k.planes.Nodup ∧ (x.1.cohorts.map (·.num)).Nodup ∧ x.1.MemInv ∧ k.ended = none ∧ 0 ∈ x.1.decided ∧ x.1.mayStop k.planes = true ∧
        1 ∉ x.1.decided ∧ (savedOf x.1 k).isSome = x.2.2) ∧
    ({ crowded 0x10000000 with doomed := [0] }.decided = [0] ∧ (running (run0 [0, 0] [some .zero, none])).mayStop [0] = false) ∧
    (∀ x ∈ [(0x10000000, true), (0x40000000, false)], let s := stalled x.1
      let k := coh0 0 .resident (rcd0 0 1 x.1) (.host 0)
      s.cohort? 0 = some k ∧ (s.cohorts.map (·.num)).Nodup ∧ s.MemInv ∧ s.doomed = [] ∧ s.mayStop k.planes = true ∧ producer ∈ s.cohorts ∧ s.isStalled k producer = true ∧
        (savedOf s k).isSome = x.2) ∧
    ({ stalled 0x10000000 with doomed := [0] } : State).doomed ≠ [] ∧
    (∀ h ∈ (crowded 0).cohorts, (crowded 0).isStalled (coh0 0 .resident (rcd0 0 1 0) (.host 0)) h = false) := by
  unfold State.MemInv
  and_intros <;> decide +kernel

/-- A cohort that runs; one that has halted, of a session; a withdrawn launch of a strand, with its operation and word; an evicted cohort that was
aborted. -/
theorem meets_CohortLifecycle_retirement :
    (user.retires (coh0 0 .resident (rcd0 0 1 0) (.host 0)) = false) ∧
    (let s := { userWith fun p => { p with st := .halted } with sessions := [⟨0, true, true, [], [], [], [], 0, [], [], 0⟩] }
     let k := coh0 0 .resident (rcd0 0 1 0) (.host 0)
     s.retires k = true ∧ k.planes.Nodup ∧ s.MemInv ∧ (s.sessions.find? (fun z => z.num == 0)).isSome = true) ∧
    (let k := { coh0 1 .resident (rcd0 0 1 0) (.strand 0 (some 0x3000)) with planes := [1], ended := some (2, 0) }
     let s := { launching 0 0 (user.cohorts ++ [k]) with ops := [⟨0, 3, 1, .launch 1⟩] }
     s.retires k = true ∧ s.cohort? 1 = some k ∧ (s.cohorts.map (·.num)).Nodup ∧ s.ops.filter (fun o => o.kind == .launch k.order) = [⟨0, 3, 1, .launch 1⟩] ∧
       0 ∉ k.planes ∧ 0x3000 / pkgSpan = s.pkg ∧ areaOf (0x3000 % pkgSpan) = .hbm ∧ s.mapped (0x3000 / 65536 * 65536) = true) ∧
    (let k := { coh0 1 .evicted (rcd0 0 1 0) (.host 0) with ended := some (1, causeCtxfault) }
     let s := launching 0 0 [k]
     s.retires k = true ∧ s.cohort? 1 = some k) := by
  unfold State.MemInv
  and_intros <;> decide +kernel

/-- The frames of a 4 MiB area at 0x10000000. -/
def areaFs : List Frame := (List.range 64).map fun k => ⟨0x10000000 + k * 65536, false, .plain, (0x10000000 + k * 65536) / 2 ^ 21, 0x10000000 + k * 65536⟩

/-- Bytes of an area that holds context 0: its header with flags VALID and S, a partition of one unit and OCRC; the handle of the engine and fabric
region, and four bytes that bring the CRC of the whole region to all ones. -/
def areaCells : List Host.Cell :=
  [(0x10000000, 1), (0x10000002, 3), (0x1000000A, 1), (0x1000000C, 0xFF), (0x1000000D, 0xFF), (0x1000000E, 0xFF), (0x1000000F, 0xFF), (0x10010000, 1),
    (0x10010008, 0x52), (0x10010009, 0x30), (0x1001000A, 0xEB), (0x1001000B, 0x3A)]
/-- s with such an area, which stands for e. -/
def withArea (s : State) (e : EngCtx) : State := { s with mem := s.mem ++ areaCells, parked := [e] }
/-- What reading the frames of the area gives. -/
def areaOfState (s : State) : List (List Byte) := areaFs.map fun f => f.places.map fun p => s.byte p.pa

theorem touched_none {s : State} (h : s.pend = []) (f : Frame) : s.frameTouched f = s := by
  unfold State.frameTouched State.applyKeys
  rw [h]
  rfl
/-- What a frame's read gives, from what its bytes give. -/
theorem readFrame_eq {s : State} {va : Nat} {f : Frame} (h : s.pend = []) {r : Except Word (List Byte)} (k : s.readPlaces va f.places = r) :
    s.readFrame va f = r.map fun bs => (bs, s) := by
  rw [State.readFrame, touched_none h, k]
theorem readFrame_of {s : State} (h : s.pend = []) (g : s.poison = [] ∧ s.failing = []) (va : Nat) (f : Frame) :
    s.readFrame va f = .ok (f.places.map fun p => s.byte p.pa, s) := readFrame_eq h (readPlaces_clean g va _)
theorem readPlaces_poisoned {s : State} {p : Place} (g : s.unreadable p.pa = true) (va : Nat) (ps : List Place) :
    s.readPlaces va (p :: ps) = .error (BitVec.ofNat 64 ((va + 0) % 2 ^ 64)) := by
  unfold State.readPlaces
  rw [List.length_cons, List.range_succ_eq_map, List.find?_cons_of_pos (by simpa using g)]
theorem range_head {α : Type} (g : Nat → α) (n : Nat) (h : 0 < n) : ∃ xs, (List.range n).map g = g 0 :: xs := by
  obtain ⟨m, rfl⟩ := Nat.exists_eq_succ_of_ne_zero (Nat.ne_of_gt h)
  exact ⟨_, by rw [List.range_succ_eq_map, List.map_cons]⟩
theorem readArea_poisoned {s : State} (h : s.pend = []) {f : Frame} {fs : List Frame} (g : s.unreadable (f.place 0).pa = true) (area : Nat) :
    oks (s.readArea area (f :: fs)) = false := by
  obtain ⟨ps, hp⟩ := range_head f.place 65536 (by decide)
  have e := readFrame_eq (va := area + 0 * 65536) (f := f) h ((congrArg _ hp).trans (readPlaces_poisoned g _ ps))
  rw [State.readArea, List.zipIdx_cons, List.foldlM_cons, e]
  simp only [Except.map, bind, Except.bind, oks]

theorem zipIdx_fst {α β : Type} (g : α → β) (xs : List α) : xs.zipIdx.map (fun x => g x.1) = xs.map g := by
  have m := congrArg (List.map g) (List.zipIdx_map_fst 0 xs)
  rwa [List.map_map] at m
theorem readArea_frames {s : State} {g : Frame → List Byte} (h : ∀ va f, s.readFrame va f = .ok (g f, s)) (area : Nat) (fs : List Frame) :
    s.readArea area fs = .ok (fs.map g, s) := by
  have k (xs : List (Frame × Nat)) (acc : List (List Byte)) :
      xs.foldlM (fun x f => (x.2.readFrame (area + f.2 * 65536) f.1).map fun y => (x.1 ++ [y.1], y.2)) (acc, s) =
      (.ok (acc ++ xs.map fun f => g f.1, s) : Except Word _) := by
    induction xs generalizing acc with
    | nil => simp [pure, Except.pure]
    | cons f rest ih =>
      rw [List.foldlM_cons, h]
      exact (ih _).trans (by simp)
  rw [State.readArea, k, zipIdx_fst g, List.nil_append]
theorem readArea_of {s : State} (h : s.pend = []) (g : s.poison = [] ∧ s.failing = []) (area : Nat) (fs : List Frame) :
    s.readArea area fs = .ok (fs.map fun f => f.places.map fun p => s.byte p.pa, s) := readArea_frames (readFrame_of h g) area fs

theorem get_append {xs ys : List Host.Cell} {a : Nat} (h : ∀ x ∈ xs, x.1 < a) : Memory.get (xs ++ ys) a = Memory.get ys a := by
  induction xs with
  | nil => rfl
  | cons x rest ih =>
    have := h x List.mem_cons_self
    simp only [List.cons_append, Memory.get]
    rw [ih fun y hy => h y (List.mem_cons_of_mem _ hy)]
    grind

/-- Byte x of an area. -/
theorem area_byte {s : State} {e : EngCtx} (h : s.mem.all (fun x => x.1 < 0x10000000) = true) (x : Nat) (hx : 0x10000000 ≤ x) :
    (withArea s e).byte x = Memory.get areaCells x :=
  get_append fun y hy => by
    have := of_decide_eq_true (List.all_eq_true.mp h y hy)
    omega

theorem area_zero (x : Nat) (hx : 0x1001000C ≤ x) : Memory.get areaCells x = 0 := by
  have k : ∀ y ∈ areaCells, y.1 < x := fun y hy => by
    have : y.1 < 0x1001000C := of_decide_eq_true (List.all_eq_true.mp (show areaCells.all (fun x => x.1 < 0x1001000C) = true by decide) y hy)
    omega
  simpa [Memory.get] using get_append (ys := []) k

/-- Frame k of the area is the bytes from its address. -/
theorem frame_of {s : State} {k : Nat} (hk : k < 64) :
    (areaOfState s)[k]? = some ((List.range 65536).map fun i => s.byte (0x10000000 + k * 65536 + i)) := by
  have e : (areaOfState s)[k]? = some ((Frame.places ⟨0x10000000 + k * 65536, false, .plain, (0x10000000 + k * 65536) / 2 ^ 21, 0x10000000 + k * 65536⟩).map fun p => s.byte p.pa) := by
    simp [areaOfState, areaFs, hk]
  rw [e, Frame.places, List.map_map]
  refine congrArg some (List.map_congr_left fun i hi => ?_)
  have : i % 65536 = i := Nat.mod_eq_of_lt (List.mem_range.mp hi)
  simp [Frame.place, this]

/-- A field of a frame of the area. -/
theorem field_of {s : State} {k o n : Nat} (hk : k < 64) (h : o + n ≤ 65536) :
    fieldAt (((areaOfState s)[k]?).getD []) o n = leNat ((List.range n).map fun i => s.byte (0x10000000 + k * 65536 + (o + i))) := by
  rw [frame_of hk]
  unfold fieldAt
  congr 1
  apply List.ext_getElem
  · simp; omega
  · intro i h1 h2
    simp

/-- Zero bytes keep the CRC register at zero. -/
theorem crc_zeros {bs : List Byte} (h : ∀ b ∈ bs, b = 0) : bs.foldl crcByte 0 = 0 := by
  induction bs with
  | nil => rfl
  | cons b rest ih =>
    have hb := h b List.mem_cons_self
    subst hb
    have e : crcByte 0 0 = 0 := by decide
    rw [List.foldl_cons, e]
    exact ih fun b hb => h b (List.mem_cons_of_mem _ hb)

theorem crc_lists {ls : List (List Byte)} (h : ∀ l ∈ ls, ∀ b ∈ l, b = 0) : ls.foldl (fun c bs => bs.foldl crcByte c) 0 = 0 := by
  induction ls with
  | nil => rfl
  | cons l rest ih =>
    rw [List.foldl_cons, crc_zeros (h l List.mem_cons_self)]
    exact ih fun l hl => h l (List.mem_cons_of_mem _ hl)

/-- A field of a frame of an area. -/
theorem field_area {s : State} {e : EngCtx} (h : s.mem.all (fun x => x.1 < 0x10000000) = true) {k o n : Nat} (hk : k < 64) (ho : o + n ≤ 65536) :
    fieldAt (((areaOfState (withArea s e))[k]?).getD []) o n =
      leNat ((List.range n).map fun i => Memory.get areaCells (0x10000000 + k * 65536 + (o + i))) := by
  rw [field_of hk ho]
  congr 1
  exact List.map_congr_left fun i _ => area_byte h _ (by omega)

theorem parked_area {s : State} {e : EngCtx} (h : s.mem.all (fun x => x.1 < 0x10000000) = true) : (withArea s e).parkedIn (areaOfState (withArea s e)) = some e := by
  have b := area_byte (e := e) h
  have g : (((areaOfState (withArea s e)).drop 1).take 15)[0]? = (areaOfState (withArea s e))[1]? := by simp
  have f0 := field_area (e := e) h (k := 0) (o := 0x0C) (n := 4) (by omega) (by omega)
  have f1 := field_area (e := e) h (k := 1) (o := 0) (n := 8) (by omega) (by omega)
  have c : (((areaOfState (withArea s e)).drop 1).take 15).foldl (fun c bs => bs.foldl crcByte c) (BitVec.allOnes 32) = 0 := by
    have d : ((areaOfState (withArea s e)).drop 1).take 15 = (List.range' 1 15).map fun k => (List.range 65536).map fun i => Memory.get areaCells (0x10000000 + k * 65536 + i) := by
      apply List.ext_getElem?
      intro j
      by_cases hj : j < 15
      · simp only [List.getElem?_take, hj, if_true, List.getElem?_drop, frame_of (show 1 + j < 64 by omega), List.getElem?_map, List.getElem?_range', Option.map_some]
        refine congrArg some (List.map_congr_left fun i _ => ?_)
        rw [b _ (by omega)]
        simp only [Nat.one_mul]
      · simp [areaOfState, areaFs, hj]
    rw [d, List.range'_succ, List.map_cons, List.foldl_cons]
    have z1 : (List.range 65536).map (fun i => Memory.get areaCells (0x10000000 + 1 * 65536 + i)) =
        (List.range 12).map (fun i => Memory.get areaCells (0x10010000 + i)) ++ (List.range' 12 65524).map (fun i => Memory.get areaCells (0x10010000 + i)) := by
      rw [← List.map_append, List.range_eq_range', List.range_eq_range', List.range'_append]
    have z2 : ((List.range 12).map (fun i => Memory.get areaCells (0x10010000 + i))).foldl crcByte (BitVec.allOnes 32) = 0 := by decide +kernel
    rw [z1, List.foldl_append, z2, crc_zeros]
    · apply crc_lists
      intro l hl y hy
      obtain ⟨k, hk, rfl⟩ := List.mem_map.mp hl
      obtain ⟨i, hi, rfl⟩ := List.mem_map.mp hy
      have := List.mem_range'_1.mp hk
      exact area_zero _ (by omega)
    · intro y hy
      obtain ⟨i, hi, rfl⟩ := List.mem_map.mp hy
      have := List.mem_range'_1.mp hi
      exact area_zero _ (by omega)
  unfold State.parkedIn
  simp only [g, f0, f1, c]
  rfl

/-- A strand at S level with X1 at the area. -/
def atArea : State := super.modMe fun p => { p with x := p.x.set 1 0x10000000 }
theorem atArea_low : atArea.mem.all (fun x => x.1 < 0x10000000) = true := by decide +kernel

/-- The issuing strand there, with a context, other planes of its core and routes of it. -/
def loading (e : EngCtx) (f : Plane → Plane) (rs : List RouteEnt) : State :=
  withArea { atArea.setPlane 1 (f { Plane.reset with st := .runnable }) with routes := rs } e
def ctx0 : EngCtx := ⟨atArea.me, [], []⟩
/-- A route as a saved context has it, and the entries of a core full of such. -/
def savedRoute : RouteEnt := rent 1 0 0 [] .released false []
def fullRoutes : List RouteEnt := (List.range 64).map fun k => { savedRoute with e := k, plane := 1 }

/-- A walk depends on the frame of an address alone. -/
theorem walkBy_frame (s : State) (at_ : Nat → Except WalkErr Nat) (va : Nat) :
    ∀ n level table, s.walkBy at_ va n level table = s.walkBy at_ (va / 65536 * 65536) n level table := by
  intro n
  induction n with
  | zero => intros; rfl
  | succ n ih =>
    intro level table
    have i : walkIndex level va = walkIndex level (va / 65536 * 65536) := by
      unfold walkIndex; split <;> omega
    have l : va % leafSpan level / 65536 = va / 65536 * 65536 % leafSpan level / 65536 := by
      unfold leafSpan; split <;> omega
    simp only [State.walkBy, i, l, ih]
theorem walk_frame (s : State) (va n level root : Nat) : s.walk va n level root = s.walk (va / 65536 * 65536) n level root := walkBy_frame s _ va n level root
/-- Bytes are at some place where the frames of their addresses are found. -/
theorem places_ok {s : State} {ag : Agent} {acc : Machine.Acc} {fe : Bool} : ∀ (n va : Nat) (last : Option (Nat × Frame)), va + n ≤ 2 ^ 64 →
    (∀ v, va ≤ v → v < va + n → oks (s.frameOf ag v acc fe) = true) → oks (s.places ag acc fe n va last) = true := by
  intro n
  induction n with
  | zero => intros; rfl
  | succ n ih =>
    intro va last h k
    obtain ⟨f, hf⟩ := oks_ok (k va (Nat.le_refl _) (by omega))
    have g (f : Frame) : ∃ ps, s.places ag acc fe n ((va + 1) % 2 ^ 64) (some (va / 65536, f)) = .ok ps := by
      by_cases e : n = 0
      · subst e; exact ⟨[], rfl⟩
      · rw [Nat.mod_eq_of_lt (by omega)]
        exact oks_ok (ih _ _ (by omega) fun v h1 h2 => k v (by omega) (by omega))
    have c (r : Except WalkErr Frame) (hr : ∃ f, r = .ok f) : oks (match r with
        | .error k => .error (k.raise (BitVec.ofNat 64 va))
        | .ok f => match s.places ag acc fe n ((va + 1) % 2 ^ 64) (some (va / 65536, f)) with
          | .error e => .error e
          | .ok ps => .ok (f.place va :: ps)) = true := by
      obtain ⟨f', rfl⟩ := hr
      obtain ⟨ps, hp⟩ := g f'
      simp only [hp, oks]
    unfold State.places
    refine c _ ?_
    split
    · split
      · exact ⟨_, rfl⟩
      · exact ⟨f, hf⟩
    · exact ⟨f, hf⟩
/-- An access waits while a queued instruction has still to acquire. -/
theorem conflict_of {s : State} {ag : Agent} {va : Word} {n : Nat} {acc : Machine.Acc} {e : VEntry} (v : s.me.vq = [e]) (a : e.acquires s.me = true)
    (p : oks (s.places ag acc false n va.toNat none) = true) : s.vecConflict ag va n acc = true := by
  obtain ⟨ps, hp⟩ := oks_ok p
  simp [State.vecConflict, v, hp, a]

/-- What an area at 0x10000000 is to a strand at S level whose queue holds a VLDW. -/
def acquiring : State := super.modMe fun p => { p with x := p.x.set 1 0x10000000, vq := [queued 0x9C828005] }
theorem acquiring_conflict : acquiring.me.level = .s ∧ (acquiring.getX 1).toNat % 65536 = 0 ∧ ¬ acquiring.noConflict (acquiring.getX 1) areaSpan .write := by
  have f (v : Nat) (h1 : 0x10000000 ≤ v) (h2 : v < 0x10000000 + areaSpan) : oks (acquiring.frameOf acquiring.myAgent v .write false) = true := by
    have a : areaSpan = 64 * 65536 := by decide
    have e : acquiring.frameOf acquiring.myAgent v .write false = acquiring.frameUnder acquiring.myAgent.root acquiring.myAgent.level v .write false := by
      unfold State.frameOf State.heldFor
      have h : (acquiring.plane acquiring.myAgent.plane).held = [] := by decide +kernel
      have m : acquiring.myAgent.stream = some .scalar := rfl
      have d : (v / 2 ^ 63 == 1) = false := by simp; omega
      simp only [h, m, d, List.find?_nil, Bool.false_eq_true, if_false]
    rw [e]
    unfold State.frameUnder
    have d : (v / 2 ^ 57 != 0) = false := by simp; omega
    rw [walk_frame]
    obtain ⟨k, hk, hv⟩ : ∃ k, k < 64 ∧ v / 65536 * 65536 = 0x10000000 + k * 65536 := ⟨v / 65536 - 0x1000, by omega, by omega⟩
    rw [hv]
    simp only [d, Bool.false_eq_true, if_false]
    have all : ∀ k, k < 64 → oks (match acquiring.walk (0x10000000 + k * 65536) 5 4 acquiring.myAgent.root with
      | .error e => .error e
      | .ok l => acquiring.leafFrame acquiring.myAgent.level l .write false false) = true := by decide +kernel
    exact all k hk
  have x : (acquiring.getX 1).toNat = 0x10000000 := by decide +kernel
  have p : oks (acquiring.places acquiring.myAgent .write false areaSpan (acquiring.getX 1).toNat none) = true := by
    rw [x]; exact places_ok _ _ _ (by decide) f
  exact ⟨by decide +kernel, by decide +kernel, fun h => Bool.noConfusion (h.symm.trans (conflict_of (e := queued 0x9C828005) rfl (by decide +kernel) p))⟩

/-- U level; a save, one with its partition poisoned, and one in the middle of a tile. -/
theorem meets_SavedContexts_save :
    (user.me.level = .u ∧ user.trapReady) ∧
    (∀ x ∈ [(atArea, true, none), ({ atArea with poison := [coreSpad 0 + 16] }, true, some 16),
        ((running (run0 [0, 0] [some .zero, none])).modMe fun p => { p with level := .s, x := p.x.set 1 0x10000000 }, false, none)],
      let s := x.1
      s.me.level = .s ∧ (s.getX 1).toNat % 65536 = 0 ∧ s.noConflict (s.getX 1) areaSpan .write ∧ oksWith (fun fs => fs == areaFs) (s.strandFrames (s.getX 1).toNat .write 64) = true ∧ s.pend = [] ∧ s.MemInv ∧
        (∀ o ∈ s.ops, o.plane = s.cur → o.kind.pairs = []) ∧ s.mayStop [s.cur] = x.2.1 ∧ s.partitionPoison s.cur s.me = x.2.2 ∧
        ∀ f ∈ areaFs, f.base / pkgSpan = s.pkg ∧ f.kind = .plain ∧ f.tiled = false) ∧
    areaFs.head? = some ⟨0x10000000, false, .plain, 128, 0x10000000⟩ ∧
    (∀ (i j : Nat) f g, areaFs[i]? = some f → areaFs[j]? = some g → i ≠ j → f.base + 65536 ≤ g.base ∨ g.base + 65536 ≤ f.base) := by
  unfold State.trapReady State.mayTrap State.MemInv State.noConflict
  refine ⟨by decide +kernel, by decide +kernel, by decide +kernel, fun i j f g hi hj ne => ?_⟩
  obtain ⟨a, ha, rfl⟩ := List.getElem?_eq_some_iff.mp hi
  obtain ⟨b, hb, rfl⟩ := List.getElem?_eq_some_iff.mp hj
  simp [areaFs]
  omega

/-- What stands at an area that holds a context. -/
theorem area_holds {s : State} {e : EngCtx} (h : s.mem.all (fun x => x.1 < 0x10000000) = true) (hp : s.pend = []) (g : s.poison = [] ∧ s.failing = []) :
    let t := withArea s e
    t.readArea 0x10000000 areaFs = .ok (areaOfState t, t) ∧ t.parkedIn (areaOfState t) = some e ∧ fieldAt (((areaOfState t)[0]?).getD []) 0 2 = 1 ∧
      fieldAt (((areaOfState t)[0]?).getD []) 2 1 % 2 = 1 ∧ fieldAt (((areaOfState t)[0]?).getD []) 0x0A 1 = 1 := by
  refine ⟨readArea_of (s := withArea s e) hp g _ _, parked_area h, ?_, ?_, ?_⟩
  all_goals rw [field_area h (by omega) (by omega)]
  all_goals decide +kernel

theorem loading_area (e : EngCtx) (f : Plane → Plane) (rs : List RouteEnt) :
    let s := loading e f rs
    s.readArea 0x10000000 areaFs = .ok (areaOfState s, s) ∧ s.parkedIn (areaOfState s) = some e ∧ fieldAt (((areaOfState s)[0]?).getD []) 0 2 = 1 ∧
      fieldAt (((areaOfState s)[0]?).getD []) 2 1 % 2 = 1 ∧ fieldAt (((areaOfState s)[0]?).getD []) 0x0A 1 = 1 :=
  area_holds (s := { atArea.setPlane 1 (f { Plane.reset with st := .runnable }) with routes := rs }) atArea_low rfl ⟨rfl, rfl⟩

theorem areaFs_cons : areaFs = ⟨0x10000000, false, .plain, 128, 0x10000000⟩ :: areaFs.tail := by decide +kernel
/-- An area whose first line is poisoned, and one that holds no context. -/
theorem atArea_poisoned : oks ({ atArea with poison := [0x10000000] }.readArea 0x10000000 areaFs) = false := by
  rw [areaFs_cons]
  exact readArea_poisoned rfl (by decide +kernel) _
theorem atArea_bytes : leNat ((List.range 2).map fun i => atArea.byte (0x10000000 + 0 * 65536 + (0 + i))) ≠ 1 := by decide +kernel
theorem atArea_version : fieldAt (((areaOfState atArea)[0]?).getD []) 0 2 ≠ 1 := fun h => atArea_bytes ((field_of (by omega) (by omega)).symm.trans h)

/-- A load with work outstanding; areas poisoned, of no context, and of one that goes on, with a route; a core whose binding or entries are taken. -/
theorem meets_SavedContexts_load :
    (∀ s ∈ [{ atArea with ops := [⟨0, 3, 1, .launch 1⟩] }, atArea.modMe fun p => { p with vq := [queued 0] }],
      s.me.level = .s ∧ (s.getX 1).toNat % 65536 = 0 ∧ (s.me.vq ≠ [] ∨ ∃ o ∈ s.ops, o.plane = s.cur)) ∧
    (∀ x ∈ [(atArea, false), ({ atArea with poison := [0x10000000] }, true), (loading ctx0 id [], false), (loading { ctx0 with routes := [savedRoute] } id [], false)],
      let s := x.1
      s.me.level = .s ∧ (s.getX 1).toNat % 65536 = 0 ∧ s.me.vq = [] ∧ (∀ o ∈ s.ops, o.plane ≠ s.cur) ∧ s.trapReady ∧ s.MemInv ∧ s.me.qsize = 1 ∧
        oksWith (fun fs => fs == areaFs) (s.strandFrames (s.getX 1).toNat .read 64) = true ∧
        ((areaFs.head?).map fun f => s.unreadable (f.place 0).pa) = some x.2) ∧
    (∀ x ∈ [(ctx0, id, [], true, true), ({ ctx0 with routes := [savedRoute] }, id, [], true, true),
        ({ ctx0 with routes := [savedRoute] }, id, fullRoutes, true, false),
        ({ ctx0 with pl := { ctx0.pl with mx := some (bind0 true 0) } }, fun p => { p with mx := some (bind0 true 0) }, [], false, true)],
      let s := loading x.1 x.2.1 x.2.2.1
      let others := (planeIdx.map (planeOf (coreOf s.cur))).filter fun p => p != s.cur && (s.plane p).st != .free
      s.sharedFits others [x.1] = x.2.2.2.1 ∧ (s.loadRoutes x.1.routes).isSome = x.2.2.2.2 ∧ (∀ o ∈ x.1.ops, s.launchDone o = false)) := by
  unfold State.trapReady State.mayTrap State.MemInv
  and_intros <;> decide +kernel
theorem unparked (s : State) (frames : List (List Byte)) : { s with parked := [] }.parkedIn frames = none := by simp [State.parkedIn]

/-- An evicted cohort with its area at a place, whose strand stands for context 0. -/
def goneCohort (area : Nat) : Cohort := coh0 0 .evicted (rcd0 0 1 area) (.host 0)
def gone (area : Nat) : State := withArea { super with cohorts := [goneCohort area], planes := super.planes.set 0 Plane.reset } ⟨super.me, [], []⟩
theorem restore_cohorts {s : State} {p : PlaneId} {own : Plane} {e : EngCtx} {frames : List (List Byte)} (h : e.ops = []) :
    (s.restore p own e frames).cohorts = s.cohorts ∧ (s.restore p own e frames).awayRows = s.awayRows := by
  simp only [State.restore, State.restoreOps, State.syncStreams, State.modPlane, State.setPlane, State.restorePartition, State.putPartition, State.noteWrite, h, List.map_nil, List.filter_nil,
    List.foldl_nil, and_self]
theorem landAway_none {s : State} (h : s.awayRows = []) (coh : Nat) (p : PlaneId) : (s.landAway coh p).cohorts = s.cohorts := by
  simp [State.landAway, State.unhold, h]
theorem restoreStrand_of {s : State} {k : Cohort} {p : PlaneId} {base : Nat} {e : EngCtx} {fs : List Frame} {frames : List (List Byte)}
    (f : s.areaFrames (rootOf k.rcd.xroot) (k.rcd.savearea.toNat + 0 * areaSpan) = some fs) (r : s.readArea (k.rcd.savearea.toNat + 0 * areaSpan) fs = .ok (frames, s))
    (g : s.parkedIn frames = some e) (h : e.ops = []) (w : s.awayRows = []) :
    ∃ t, s.restoreStrands k [((p, base), 0)] = some t ∧ t.cohorts = s.cohorts := by
  have c := restore_cohorts (s := s) (p := p) (own := { startPlane k 0 base k.entries with events := 0 }) (e := e) (frames := frames) h
  refine ⟨(s.restore p { startPlane k 0 base k.entries with events := 0 } e frames).landAway k.num p, ?_, (landAway_none (c.2.trans w) _ _).trans c.1⟩
  simp only [State.restoreStrands, List.foldlM_cons, List.foldlM_nil, State.restoreStrand, f, r, Except.toOption, State.restoreFrom, g, Option.bind_some, Option.map_some,
    Option.bind_eq_bind, Option.pure_def]

/-- It resumes, and one whose area cannot be reached does not. -/
theorem meets_CohortLifecycle_resumption :
    (∀ area ∈ [0x10000000, 0x40000000], let s := gone area
     let k := goneCohort area
     s.head = some k ∧ s.doomed = [] ∧ k.num = 0 ∧ k.st = .evicted ∧ s.canResume [] k = true ∧ s.MemInv ∧ k.planes.Nodup ∧ (s.cohorts.map (·.num)).Nodup ∧
       k.ended = none ∧ s.cohort? 0 = some k ∧ s.head.map (·.num) ≠ some 1) ∧
    (let k := goneCohort 0x40000000
     ((gone 0x40000000).restoreStrands k (k.planes.zip k.bases).zipIdx).isNone = true) ∧
    (let k := goneCohort 0x10000000
     ∃ s1, (gone 0x10000000).restoreStrands k (k.planes.zip k.bases).zipIdx = some s1 ∧ s1.cohort? 0 = some k) := by
  unfold State.MemInv
  refine ⟨by decide +kernel, by decide +kernel, ?_⟩
  obtain ⟨t, h1, h2⟩ := restoreStrand_of (s := gone 0x10000000) (k := goneCohort 0x10000000) (p := 0) (base := 0) (e := ⟨super.me, [], []⟩) (fs := areaFs)
    (by decide +kernel) (readArea_of rfl ⟨rfl, rfl⟩ _ _) (parked_area (by decide +kernel)) rfl rfl
  refine ⟨t, h1, ?_⟩
  have c : (gone 0x10000000).cohort? 0 = some (goneCohort 0x10000000) := by decide +kernel
  unfold State.cohort? at c ⊢
  rw [h2, c]

/-! ### Witnesses: host commands and events of the package -/

/-- A command of session 1 with SEQ 1, of the key that it checks; the session, of S or of U level, that has seen some SEQ values. -/
def cmd : CmdEnv := ⟨1, 1, 0x314B485A, 1, 7, 8192, [7], gcmNonce 0 1⟩
def ses (sup : Bool) (seen : List Nat) : Session := ⟨1, sup, true, [], [], [7], [8], 64, seen, [], 0⟩
/-- The root of the identity map, and a window on its first 4 MiB under key 7. -/
def root0 : Nat := rootOf user.me.xroot
def win0 (r w : Bool) : Win := ⟨0, root0, 0, 0x400000, r, w, 7⟩
/-- A state with that session and those windows, a launch record at 0x300000, and cohorts of host session 1 that wait (1), have been evicted and
have ended (2), and are evicted (3). -/
def hosting (sup : Bool) (seen : List Nat) (own : Option (List Byte)) (wins : List Win) : State :=
  let mine (n : Nat) (st : CohortState) : Cohort := coh0 n st (rcd0 0 1 0) (.host 1)
  { launching 0 0 (user.cohorts ++ [mine 1 .waiting, { mine 2 .evicted with ended := some (1, 0) }, mine 3 .evicted])
    with sessions := [ses sup seen], owner := own, wins := wins, retired := [(9, some 1)] }

/-- Sessions that a command finds and not; commands dropped for each field of theirs, answered again, refused and accepted, at the lowest SEQ that h
leaves. -/
theorem meets_HostCommands_accepts :
    (∀ sup seen, (hosting sup seen none []).hasSession cmd (ses sup seen)) ∧ (∀ sup ∈ [true, false], ∀ seen ∈ [[], [1]], (ses sup seen).admits cmd) ∧
    (cmd.seq ∉ (ses true []).seen ∧ cmd.seq ∈ (ses true [1]).seen ∧ (ses false []).sup = false) ∧
    (∀ e ∈ [{ cmd with key := [] }, { cmd with nonce := gcmNonce 1 1 }, { cmd with nonce := gcmNonce 0 2 }, { cmd with length := 8193 }, { cmd with magic := 0 },
        { cmd with version := 2 }, { cmd with flags := 8 }, { cmd with seq := 0, nonce := gcmNonce 0 0 }], ¬ (ses true []).admits e ∧ e.session = 1) ∧
    ¬ ({ ses true [] with high := 65 } : Session).admits cmd ∧
    ∀ z ∈ user.sessions, z.num = cmd.session → z.live = false := by
  refine ⟨fun _ _ => ⟨rfl, rfl⟩, ?_⟩
  unfold Session.admits
  decide +kernel

/-- Cohorts that do not exist, have retired, run, wait, are evicted and have ended. -/
theorem meets_HostCommands_cohorts :
    let s := hosting true [] none []
    s.cohort? 5 = none ∧ (∀ z ∈ s.retired, z.1 ≠ 5) ∧ s.cohort? 9 = none ∧ s.retired.find? (fun z => z.1 == 9) = some (9, some 1) ∧
    s.cohort? 0 = some (fetchCohort 0) ∧ (fetchCohort 0).launcher = .host 0 ∧ (fetchCohort 0).planes = [0] ∧ s.loneCohort 0 ∧
    (s.plane 0).st ≠ .free ∧ (s.plane 0).coh = 0 ∧
    s.cohort? 1 = some (coh0 1 .waiting (rcd0 0 1 0) (.host 1)) ∧ (s.cohorts.map (·.num)).Nodup ∧
    (∀ j ∈ s.cohorts, j.launcher.by? ≠ some 1 ∧ (j.st = .waiting → j.ended = none)) ∧ (s.sessions.find? (fun z => z.num == 1)).isSome = true ∧
    (s.cohort? 2).map (·.ended) = some (some (1, 0)) ∧ (s.cohort? 3).map (fun k => (k.st, k.ended, k.rcd.nstrand)) = some (.evicted, none, 1) := by
  unfold State.loneCohort
  and_intros <;> decide +kernel

/-- The launch record of a window at an offset, as the two reads of LAUNCH give it. -/
def recordAt (s : State) (off : Nat) : Option (List Byte × State) := (s.windowRead 7 off 128).bind fun x => x.2.windowRead 7 off 128
def record0 : List Byte := recordBytes0 ++ List.replicate (128 - recordBytes0.length) 0
/-- The host's state with other cohorts. -/
def withCohorts (cs : List Cohort) : State := { hosting true [] (some []) [win0 true true] with cohorts := cs }

/-- Windows that there are and are not; offsets misaligned, past the window, of no record, and of one; no owner and one; levels full and not. -/
theorem meets_HostCommands_launch :
    (∀ own wins, (hosting true [] own wins).owner = own) ∧
    (hosting true [] (some []) []).window? 7 = none ∧ (hosting true [] (some []) [win0 true true]).window? 7 = some (win0 true true) ∧ 1 % 64 ≠ 0 ∧ 0x300000 % 64 = 0 ∧
    (let s := hosting true [] (some []) [win0 true true]
     s.windowRead 7 0x3FFFC0 128 = none ∧ (recordAt s 0x300000).map (fun x => (x.1 == record0, x.2.levelFull 0, x.2.cohorts == s.cohorts)) = some (true, false, true) ∧
       128 + 64 * leNat ((record0.drop 7).take 1) + 8 * leNat ((record0.drop 0x21).take 1) = 128 ∧
       (launchRec? record0).map (fun l => (l.level, l.status none, l.status (some root0), l.status (some 0) != 0)) = some (0, 0, 0, true) ∧
       (recordAt s 0).map (fun x => (launchRec? x.1).isNone) = some true ∧ (∀ k ∈ s.cohorts, k.num ≠ 4) ∧ ∀ j, j < 4 → ∃ k ∈ s.cohorts, k.num = j) ∧
    (recordAt (withCohorts ((List.range 64).map fun i => coh0 i .waiting (rcd0 0 1 0) (.host 1))) 0x300000).map (fun x => (x.1 == record0, x.2.levelFull 0)) =
      some (true, true) := by
  refine ⟨fun _ _ => rfl, ?_⟩
  decide +kernel
theorem meets_HostCommands_numbers :
    (withCohorts (numbered 0xFFFF)).cohorts = (allTaken 0xFFFF).cohorts ∧ (∀ m, m < 0xFFFF → ∃ k ∈ (allTaken 0xFFFF).cohorts, k.num = m) :=
  ⟨rfl, allTaken_num 0xFFFF⟩

/-- Arguments of MAPWIN at and past each limit; windows and regions named and not; every value that MODESET takes at the ends of its range; an image
that cannot be read and one that can. Whether an image verifies is the model’s free value, so that either case may be met. -/
theorem meets_HostCommands_owner :
    (let bad (num base len root : Nat) : Bool := 4096 ≤ num ∨ base % 65536 ≠ 0 ∨ len % 65536 ≠ 0 ∨ 2 ^ 57 < base + len ∨ root % 4096 ≠ 0 ∨ 2 ^ 48 ≤ root
     (∀ x ∈ [(4096, 0, 0, 0), (0, 1, 0, 0), (0, 0, 1, 0), (0, 65536, 2 ^ 57, 0), (0, 0, 0, 1), (0, 0, 0, 2 ^ 48)], bad x.1 x.2.1 x.2.2.1 x.2.2.2 = true) ∧
       bad 4095 65536 (2 ^ 57 - 65536) (2 ^ 48 - 4096) = false) ∧
    (let s := hosting true [] none [win0 true true]
     (∃ z ∈ s.wins, z.num = 0) ∧ ¬ (∃ z ∈ s.wins, z.num = 1) ∧ s.oldKeys.length < 2 ^ 20 ∧ (s.windowRead 7 0x3FFFFF 8).isNone = true ∧
       (s.windowRead 7 0x300000 8).isSome = true) ∧
    (let clocking (l c : Nat) : Bool := 800 ≤ l ∧ l ≤ 1600 ∧ l % 50 = 0 ∧ 1000 ≤ c ∧ c ≤ 2100 ∧ c % 100 = 0
     clocking 800 1000 = true ∧ clocking 1600 2100 = true ∧ ∀ x ∈ [(750, 1000), (1650, 1000), (825, 1000), (800, 900), (800, 2200), (800, 1050)], clocking x.1 x.2 = false) ∧
    ((64 = 2 ^ 6 ∧ 4096 = 2 ^ 12) ∧ (∀ k, k ≤ 12 → 32 ≠ 2 ^ k ∨ k < 6) ∧ 2 ^ 28 < 2 ^ 31) ∧
    ((∃ k ∈ user.cohorts, k.st ≠ .waiting) ∧ ¬ (∃ k ∈ State.reset.cohorts, k.st ≠ .waiting) ∧ (pressing 0 false).regions.toList.any Option.isSome = true ∧
      user.regions.toList.any Option.isSome = false) := by
  and_intros <;> decide +kernel

/-- Requests for a session that are good and that fail in each field; sessions that have begun and that wait for their secret, with the package
owned by a signer and not. -/
theorem meets_HostCommands_sessions :
    (let good (e : CmdEnv) (nonce : List Byte) : Bool :=
      e.session = 0 ∧ e.magic = 0x314B485A ∧ e.version = 1 ∧ e.length ≤ 8192 ∧ e.flags < 8 ∧ nonce.length = 32
     let e : CmdEnv := { cmd with session := 0 }
     good e (List.replicate 32 0) = true ∧ good e [] = false ∧
       ∀ f ∈ [cmd, { e with magic := 0 }, { e with version := 0 }, { e with length := 8193 }, { e with flags := 8 }], good f (List.replicate 32 0) = false) ∧
    (∀ z ∈ (hosting true [] none []).sessions, z.num = 1 → z.live = true) ∧
    let s := { hosting true [] (some [1]) [] with sessions := [{ ses false [] with live := false }] }
    s.sessions.find? (fun z => z.num == 1) = some { ses false [] with live := false } ∧ s.owner = some [1] ∧ s.owner ≠ none ∧ s.owner ≠ some [2] ∧
      user.owner = none := by decide +kernel

/-- The places of n bytes of the granule at 0x300000. -/
def bytesAt0 (n : Nat) : List Place := (List.range n).map fun i => (⟨0x300000, false, .plain, 1, 0x300000⟩ : Frame).place (0x300000 + i)
/-- One window without a write permission or with both, a unit poisoned or none. -/
def windowed (w poisoned : Bool) : State := { hosting true [] none [win0 true w] with poison := if poisoned then [poisonUnit 0x300000] else [] }

/-- Accesses past a window, without its permission, inside it to bytes that are mapped, and that are not. -/
theorem meets_PackageEvents_windows :
    (windowed false false).window? 7 = some (win0 true false) ∧ ¬ (0x3FFFF9 + 8 ≤ (win0 true true).len) ∧ (win0 true false).w = false ∧
    (0x3FFFF8 + 8 ≤ (win0 true true).len ∧ (win0 true true).w = true ∧
      ∀ i, i < 8 → oks ((windowed true false).frameUnder root0 .s ((0x3FFFF8 + i) / 65536 * 65536) .write false) = true) ∧
    (let win := { win0 true true with len := 2 ^ 40 }
     win.base + 2 ^ 39 + 8 ≤ win.len ∧ oks ((windowed true false).frameUnder root0 .s (2 ^ 39 / 65536 * 65536) .read false) = false) := by decide +kernel

/-- No window; bytes it does not reach; bytes written and read; a poisoned unit; a package that fails. -/
theorem meets_PackageEvents_rdma :
    user.window? 7 = none ∧ (windowed false false).windowPlaces 7 0x300000 8 .write = none ∧
    (let s := windowed true false
     s.windowPlaces 7 0x300000 8 .write = some (bytesAt0 8) ∧ s.writeFails (bytesAt0 8) = false ∧ s.MemInv ∧ ((bytesAt0 8).map (·.pa)).Nodup ∧
       (∀ q ∈ bytesAt0 8, q.pa ∉ summaryBytes (bytesAt0 8)) ∧
       s.windowPlaces 7 0x300000 8 .read = some (bytesAt0 8) ∧ (∀ q ∈ bytesAt0 8, poisonUnit q.pa ∉ s.poison) ∧ s.windowPlaces 7 0x3FFFF9 8 .read = none) ∧
    (let s := windowed true true
     s.windowPlaces 7 0x300000 8 .read = some (bytesAt0 8) ∧ ∃ q ∈ bytesAt0 8, poisonUnit q.pa ∈ s.poison) ∧
    (let s := far { windowed true false with wins := [{ win0 true true with base := 2 ^ 30 }] }
     (s.windowPlaces 7 0 8 .write).map s.writeFails = some true) := by
  unfold State.MemInv
  and_intros <;> decide +kernel

/-- Addresses that map nothing, and ones that do, poisoned and not; a message too long, one misaligned, and comparisons that store and that do not. -/
theorem meets_PackageEvents_messages :
    (user.physPlaces (2 ^ 46) (min 8 4096) = none ∧ user.physPlaces (2 ^ 46) 8 = none ∧ 0x300004 % 8 ≠ 0 ∧ 4096 < (List.replicate 4097 (0 : Byte)).length) ∧
    (user.physPlaces 0x300000 (min 8 4096) = some (bytesAt0 8) ∧ (∀ q ∈ bytesAt0 8, poisonUnit q.pa ∉ user.poison) ∧ user.writeFails (bytesAt0 8) = false ∧ user.MemInv ∧
      ((bytesAt0 8).map (·.pa)).Nodup ∧ 0x300000 % 8 = 0 ∧ ∀ q ∈ bytesAt0 8, q.pa ∉ summaryBytes (bytesAt0 8) ++ fullBytes (bytesAt0 8)) ∧
    (let ps := (user.physPlaces (coreSpad 0) 16).getD []
     ps.length = 16 ∧ (∀ q ∈ ps, q.kind = .spad) ∧ (ps.map (·.pa)).Nodup ∧ ∀ q ∈ ps, q.pa ∉ summaryBytes ps ++ fullBytes ps) ∧
    (∃ q ∈ bytesAt0 8, poisonUnit q.pa ∈ (windowed true true).poison) ∧ (∀ q ∈ bytesAt0 8, q.isSaved = false) ∧
    (let s := { user with cohorts := [{ coh0 3 .evicted { rcd0 0 1 0x10000000 with quota := 1 } (.host 0) with planes := [4], bases := [0] }] }
     ((s.physPlaces (coreSpad 1) 8).map fun ps => ps.all (·.isSaved)) = some true) ∧
    (List.range 9).any (fun fn => (amoNew fn 8 0 5 1).isNone) = true ∧ (List.range 9).any (fun fn => (amoNew fn 8 0 5 0).isSome) = true := by
  unfold State.MemInv
  and_intros <;> decide +kernel

/-- COMPLETE events that are due, not yet due, and past their last second. -/
theorem meets_PackageEvents_resend :
    (let live (f : Nat) : Bool := 4000000000 - f < 1000000 * user.freq
     let due (l : Nat) : Bool := 100 * user.freq ≤ 4000000000 - l
     live 4000000000 = true ∧ live (4000000000 - 1000000 * user.freq + 1) = true ∧ live (4000000000 - 1000000 * user.freq) = false ∧ due 0 = true ∧
       due (4000000000 - 100 * user.freq) = true ∧ due (4000000000 - 100 * user.freq + 1) = false) := by decide +kernel

/-- PACKAGE_RESET's boot fails at its identity; that a boot succeeds is a value of firmware, which the model leaves free. -/
theorem meets_PackageEvents_boot :
    ¬ (Config.imageValid user.flashRoot = true ∧ user.fused ≤ Config.imageVersion user.flashRoot ∧ Config.imageValid user.flashMgmt = true ∧
      user.fused ≤ Config.imageVersion user.flashMgmt ∧ true = true ∧ 64 < 64 ∧ 64 ∈ [64] ∧ ∀ k ∈ [64], k < 64) := by
  intro h; exact absurd h.2.2.2.2.2.1 (by decide)

/-! ### Witnesses: encodings and steps -/

theorem meets_EncodedWordsDecode : ∀ i ∈ [Instr.add 3 4 5, .pfx 0x12 0x08E03456, .bfx 3 4 3 8, .upd 6 8 16 1], i.wf = true ∧ i.encoded = true := by decide +kernel

theorem meets_DecodedWordsEncode : decode (bytesOfWord 0x04642800 ++ [1]) = .ok (.add 3 4 5, [1]) := by rfl

/-- The strand of plane 0 before a word or a pair of words, and its next turn. -/
def before (nbits w : Nat) : State := State.reset.withFetchWord nbits w
def turn (s : State) : State := { s with inputs := [.strand 0] }
/-- Whether an outcome is a next state, and whether a vector unit has nothing to do. -/
def goes : Host.Outcome State Fault Refusal → Bool
  | .next _ => true
  | _ => false
def rests : VTurn → Bool
  | .idle => true
  | .went _ => false
theorem goes_next {o : Host.Outcome State Fault Refusal} (h : goes o = true) : ∃ t, o = .next t := by
  match o, h with
  | .next t, _ => exact ⟨t, rfl⟩

theorem meets_StepKeepsMemoryForm : State.reset.MemInv ∧ (before 32 0x04642800).MemInv ∧ goes (step (turn (before 32 0x04642800))) = true := by
  unfold State.MemInv
  and_intros <;> decide +kernel

/-- A word, no instruction, and a pair, each with the vector unit's queue empty, the first with an entry behind too; a PC with no frame; an event; a step
with no input. -/
theorem meets_StepRunsDecodedInstruction :
    (∀ w ∈ [0x04642800, 0x7C000000, 0x08E03456FC000012], let s := before 64 w
      s.held = none ∧ s.mayIssue 0 = true ∧ s.vectorKeepsUp 0 = true ∧ rests (s.vturn 0) = true ∧ s.inputs = [] ∧ s.cur = 0 ∧
        oksWith (fun x => x.1 == BitVec.ofNat 32 w && (!isPfx x.1 || oksWith (fun y => y.1 == BitVec.ofNat 32 (w / 2 ^ 32)) (x.2.fetch (s.me.pc + 4)))) (s.fetch s.me.pc) =
          true) ∧
    (let s := { (before 32 0x04642800).modMe fun p => { p with vq := [queued 0] } with vlag := true }
     s.mayIssue 0 = true ∧ s.vectorKeepsUp 0 = false) ∧
    isPfx 0x04642800 = false ∧ isPfx 0x7C000000 = false ∧ isPfx 0xFC000012 = true ∧
    (let s := (before 32 0).modMe fun p => { p with pc := 0x40000000 }
     s.mayIssue 0 = true ∧ faults (s.fetch s.me.pc) = true) ∧
    goes (exec .thermalThrottle State.reset) = true ∧ goes (step (turn (before 32 0x04642800))) = true ∧
    decode (bytesOfWord 0x04642800) = .ok (.add 3 4 5, []) ∧ decode (bytesOfWord 0x7C000000) = .error (.illegal 0x7C000000) := by
  and_intros
  all_goals first | exact rfl | decide +kernel

/-! ### Single steps and roundings whose results the spec gives -/

/-- The X register d after an instruction that completes. -/
def resultOf (i : Instr) (s : State) (d : XReg) : Option Word := match exec i s with | .next t => if t.me.pc = s.me.pc + 4 then some (t.getX d) else none | _ => none

/-- 11 Example 11-1. -/
theorem test_bit_fields : resultOf (.bfx 3 1 3 8) (userX 0x1234 0 0) 3 = some 0x2 ∧ resultOf (.bfi 3 1 3 4) (userX 0x5 0 0xFFFF) 3 = some 0xFF5F ∧
    resultOf (.sext 3 1 11) (userX 0x800 0 0) 3 = some 0xFFFFFFFFFFFFF800 := by decide +kernel
/-- 11 Example 11-1. -/
theorem test_divide : resultOf (.div 3 1 2) (userX (-7) 2 0) 3 = some (-3) ∧ resultOf (.rem 3 1 2) (userX (-7) 2 0) 3 = some (-1) ∧
    resultOf (.mulhz 3 1 2) (userX (-1) 2 0) 3 = some 1 ∧ resultOf (.mulh 3 1 2) (userX (-1) (-1) 0) 3 = some 0 := by decide +kernel
/-- 11 R136: the corners of division. -/
theorem test_divide_corners : resultOf (.div 3 1 0) (userX 5 0 0) 3 = some (-1) ∧ resultOf (.rem 3 1 0) (userX 5 0 0) 3 = some 5 ∧
    resultOf (.div 3 1 2) (userX (1 <<< 63) (-1) 0) 3 = some (1 <<< 63) := by decide +kernel
/-- 04 Example 4-1: ties of E4M3 and E5M2, a tiny result, and overflow under SAT. -/
theorem test_fp8_rounding :
    Fp.roundEx .e4m3 .rne true ⟨false, 17, -4, false⟩ = (0x38, flNX) ∧ Fp.roundEx .e4m3 .rmm true ⟨false, 17, -4, false⟩ = (0x39, flNX) ∧
    Fp.roundEx .e5m2 .rne true ⟨false, 11, -3, false⟩ = (0x3E, flNX) ∧ Fp.roundEx .e4m3 .rne true ⟨false, 3, -10, false⟩ = (0x02, flUF ||| flNX) ∧
    Fp.roundEx .e4m3 .rne false ⟨false, 480, 0, false⟩ = (0x7F, flOF ||| flNX) ∧ Fp.roundEx .e4m3 .rne true ⟨false, 480, 0, false⟩ = (0x7E, flSAT ||| flNX) := by
  decide +kernel
/-- 04 Example 4-2. -/
theorem test_q4_ties :
    (q4Round 0 .rne ⟨false, 5, -1, false⟩).1 = 0x2 ∧ (q4Round 0 .rne ⟨true, 5, -1, false⟩).1 = 0xE ∧ (q4Round 0 .rne ⟨true, 1, -1, false⟩).1 = 0 ∧
    (q4Round 2 .rne ⟨false, 3, 0, false⟩).1 = 0x2 ∧ (q4Round 2 .rne ⟨false, 6, 0, false⟩).1 = 0x4 ∧ (q4Round 3 .rne ⟨false, 10, 0, false⟩).1 = 0x6 ∧
    (q4Round 1 .rne ⟨true, 5, 0, false⟩).1 = 0xE := by decide +kernel
/-- 19 Example 19-1: growth under COND and under NONE. -/
theorem test_growth :
    let y : List (Int × Int) := [21000, 3000, 2000, -8000, 32766, 0, -1, 1].map fun v => (v * 16384, 0)
    growFrame y 14 130 0 false = (.blk 131 ([10500, 1500, 1000, -4000, 16383, 0, 0, 0].map fun v => (v, 0)), flNone) ∧
    growFrame y 14 130 2 false = (.blk 130 ([16383, 3000, 2000, -8000, 16383, 0, -1, 1].map fun v => (v, 0)), flBGS) := by decide +kernel
/-- 13 Example 13-7: the vector unit runs a queued VCONFD, the leaders of round 1. -/
theorem test_leaders :
    let s := (vec .z32 .z32 0 8).modMe fun p => { p with
      m := p.m.set 2 0xFD
      v := p.v.set 4 ⟨BitVec.ofNat 4096 (leNat ([7, 3, 7, 7, 3, 9, 2, 9].flatMap fun x => [x, 0, 0, 0])), 0, .z32⟩ }
    (match step { holding s (.vconfd 1 4 2) with inputs := [.strand 0] } with | .next t => t.me.m[1] | _ => 0) = 0x71 := by decide +kernel

end Sys2Proof.Tests
end

section
/-! PROOFS of the statements on numbers (03) and on the machine after reset: exact operations before rounding, rounding of values that
a format holds, and the reset state. -/
namespace Sys2Proof.Machine

/-! ### Comparison and quantisation of exact numbers -/

/-- A power of two is a whole number of every lower one. -/
theorem two_zpow_eq_scaled {q e : Int} (h : q ≤ e) : (2 : Rat) ^ e = ((2 ^ (e - q).toNat : Nat) : Rat) * (2 : Rat) ^ q := by
  have he : e = ((e - q).toNat : Int) + q := by omega
  calc (2 : Rat) ^ e = (2 : Rat) ^ (((e - q).toNat : Int) + q) := congrArg _ he
    _ = (2 : Rat) ^ ((e - q).toNat : Int) * (2 : Rat) ^ q := Rat.zpow_add (by decide) _ _
    _ = ((2 ^ (e - q).toNat : Nat) : Rat) * (2 : Rat) ^ q := by rw [Rat.zpow_natCast, Rat.natCast_pow, Rat.natCast_ofNat]

theorem two_zpow_pos (q : Int) : 0 < (2 : Rat) ^ q := Rat.zpow_pos (by decide)

/-- `dyadicLt` is the order of the rationals. -/
theorem dyadicLt_iff (m1 : Nat) (e1 : Int) (m2 : Nat) (e2 : Int) :
    dyadicLt m1 e1 m2 e2 = true ↔ (m1 : Rat) * (2 : Rat) ^ e1 < (m2 : Rat) * (2 : Rat) ^ e2 := by
  unfold dyadicLt
  split
  case isTrue h =>
    rw [decide_eq_true_iff, two_zpow_eq_scaled h, ← Rat.mul_assoc, ← Rat.natCast_mul, Rat.mul_lt_mul_right (two_zpow_pos e1),
      Rat.natCast_lt_natCast]
  case isFalse h =>
    have h' : e2 ≤ e1 := by omega
    rw [decide_eq_true_iff, two_zpow_eq_scaled h', ← Rat.mul_assoc, ← Rat.natCast_mul, Rat.mul_lt_mul_right (two_zpow_pos e2),
      Rat.natCast_lt_natCast]

/-- Scaling a number to a finer unit does not change how it compares. -/
theorem dyadicLt_scaled (m1 : Nat) (e1 : Int) (m2 : Nat) {q e2 : Int} (h : q ≤ e2) :
    dyadicLt m1 e1 (m2 * 2 ^ (e2 - q).toNat) q = dyadicLt m1 e1 m2 e2 := by
  rw [Bool.eq_iff_iff, dyadicLt_iff, dyadicLt_iff, two_zpow_eq_scaled h, Rat.natCast_mul, Rat.mul_assoc]

/-- No magnitude of fewer units of a smaller weight is above. -/
theorem dyadicLt_eq_false_of_le {m1 m2 : Nat} {e1 e2 : Int} (hm : m2 ≤ m1) (he : e2 ≤ e1) : dyadicLt m1 e1 m2 e2 = false := by
  unfold dyadicLt
  split
  case isTrue h =>
    have he' : e2 - e1 = 0 := by omega
    rw [he', Int.toNat_zero, Nat.pow_zero, Nat.mul_one, decide_eq_false_iff_not]
    omega
  case isFalse h =>
    have hscaled : m1 ≤ m1 * 2 ^ (e1 - e2).toNat := Nat.le_mul_of_pos_right m1 (Nat.two_pow_pos _)
    rw [decide_eq_false_iff_not]
    omega

/-- Nothing is rounded where nothing is discarded. -/
theorem roundUp_exact (rm : RMode) (neg odd : Bool) : roundUp rm neg odd .lt false = false := by
  cases rm <;> rfl

/-- An exact number is a whole number of every unit at or below its own. -/
theorem Ex.quantise_exact (neg : Bool) (m : Nat) {e q : Int} (rm : RMode) (h : q ≤ e) :
    (Ex.mk neg m e false).quantise q rm = (m * 2 ^ (e - q).toNat, false) := by
  simp only [Ex.quantise, h, ↓reduceIte, roundUp_exact, Bool.false_eq_true]

/-! ### Rounding a value to a format that holds it (03 R20, R25) -/

theorem Fp.maxFinite_of_ne_e4m3 {f : Fp} (hf : f ≠ .e4m3) :
    f.maxFinite = (2 ^ (f.mbits + 1) - 1, 2 ^ f.ebits - 2 - f.bias - f.mbits) := by
  cases f
  case e4m3 => exact absurd rfl hf
  all_goals rfl

/-- m × 2^e is a value of f: a normal number, or one of the smallest unit (03 R20). -/
structure Fp.Holds (f : Fp) (m : Nat) (e : Int) : Prop where
  fits : m < 2 * 2 ^ f.mbits
  minExp_le : f.minExp ≤ e
  le_maxExp : e ≤ f.maxFinite.2
  normal_or_least : 2 ^ f.mbits ≤ m ∨ e = f.minExp

/-- Rounding a value of the format gives the pattern that counts the values below it, and no flag. -/
theorem Fp.roundEx_of_holds {f : Fp} (hf : f ≠ .e4m3) {m : Nat} {e : Int} (h : f.Holds m e) (rm : RMode) (sat neg : Bool) :
    f.roundEx rm sat ⟨neg, m, e, false⟩ = (f.signed neg ((e - f.minExp).toNat * 2 ^ f.mbits + m), flNone) := by
  obtain ⟨hfit, hmin, hmax, hnorm⟩ := h
  have hp : 0 < 2 ^ f.mbits := Nat.two_pow_pos _
  rcases Nat.eq_zero_or_pos m with rfl | hm
  · have he : e = f.minExp := hnorm.resolve_left (by omega)
    simp only [Fp.roundEx, BEq.rfl, Bool.not_false, Bool.and_self, ↓reduceIte, he, Int.sub_self, Int.toNat_zero, Nat.zero_mul, Nat.add_zero]
  · have hm0 : m ≠ 0 := Nat.ne_of_gt hm
    have hlog : m.log2 < f.mbits + 1 := (Nat.log2_lt hm0).2 (by rw [Nat.pow_succ]; omega)
    have hqU : e + m.log2 - f.mbits ≤ e := by omega
    have hq : max (e + m.log2 - f.mbits) f.minExp = e := by
      rcases hnorm with hn | rfl
      · have : f.mbits ≤ m.log2 := (Nat.le_log2 hm0).2 hn
        omega
      · omega
    have hover : dyadicLt f.maxFinite.1 f.maxFinite.2 m e = false := by
      refine dyadicLt_eq_false_of_le ?_ hmax
      rw [Fp.maxFinite_of_ne_e4m3 hf, Nat.pow_succ]
      omega
    have hmag : (if m < 2 ^ f.mbits then m else ((e - f.minExp).toNat + 1) * 2 ^ f.mbits + (m - 2 ^ f.mbits)) =
        (e - f.minExp).toNat * 2 ^ f.mbits + m := by
      split
      case isTrue hlt => rw [hnorm.resolve_left (by omega), Int.sub_self, Int.toNat_zero, Nat.zero_mul, Nat.zero_add]
      case isFalse hge => rw [Nat.succ_mul]; omega
    simp only [Fp.roundEx, Bool.not_false, Bool.and_true, beq_iff_eq, hm0, ↓reduceIte, Ex.quantise_exact _ _ _ hqU,
      dyadicLt_scaled _ _ _ hqU, hover, Bool.false_eq_true, hq, Ex.quantise_exact _ _ _ (Int.le_refl e), Int.sub_self,
      Int.toNat_zero, Nat.pow_zero, Nat.mul_one, Nat.ne_of_lt hfit, hmag, Bool.and_false, BitVec.or_self]

/-- A pattern is its sign bit, exponent field and mantissa field. -/
theorem Fp.signed_fields (f : Fp) {x : Nat} (hx : x < 2 ^ f.width) :
    f.signed (x / 2 ^ (f.width - 1) % 2 == 1) (x / 2 ^ f.mbits % 2 ^ f.ebits * 2 ^ f.mbits + x % 2 ^ f.mbits) = x := by
  cases f <;> simp only [Fp.signed, Fp.width, Fp.ebits, Fp.mbits, beq_iff_eq] at hx ⊢ <;> split <;> omega

/-- The exponent of the finite values goes up by one with each exponent field, up to that of the largest. -/
theorem Fp.maxFinite_exp {f : Fp} (hf : f ≠ .e4m3) : f.maxFinite.2 = f.minExp + (2 ^ f.ebits - 1 : Nat) - 2 := by
  cases f
  case e4m3 => exact absurd rfl hf
  all_goals rfl

/-- The pattern of an infinity. -/
theorem Fp.signed_of_value_inf {f : Fp} {x : Nat} (hx : x < 2 ^ f.width) {n : Bool} (hv : f.value x = .inf n) :
    f.signed n f.infPattern = x := by
  have hfields := f.signed_fields hx
  simp only [Fp.value] at hv
  split at hv
  next htop =>
    obtain ⟨hfield, -⟩ := Bool.and_eq_true_iff.1 htop
    split at hv
    next hmant =>
      obtain rfl := FVal.inf.inj hv
      rwa [beq_iff_eq.1 hfield, beq_iff_eq.1 hmant] at hfields
    next => cases hv
  next =>
    split at hv
    next => cases hv
    next => split at hv <;> cases hv

/-- The value of a pattern is one that its format holds, and the pattern is the one that rounding gives it. -/
theorem Fp.holds_of_value_fin {f : Fp} (hf : f ≠ .e4m3) {x : Nat} (hx : x < 2 ^ f.width) {n : Bool} {m : Nat} {e : Int}
    (hv : f.value x = .fin n m e) : f.Holds m e ∧ f.signed n ((e - f.minExp).toNat * 2 ^ f.mbits + m) = x := by
  have hfields := f.signed_fields hx
  have hmax := Fp.maxFinite_exp hf
  have hm : x % 2 ^ f.mbits < 2 ^ f.mbits := Nat.mod_lt _ (Nat.two_pow_pos _)
  have hE : x / 2 ^ f.mbits % 2 ^ f.ebits < 2 ^ f.ebits := Nat.mod_lt _ (Nat.two_pow_pos _)
  have htwo : 2 ≤ 2 ^ f.ebits - 1 := by cases f <;> decide
  simp only [Fp.value, beq_eq_false_iff_ne.2 hf] at hv
  generalize x % 2 ^ f.mbits = mant at *
  generalize x / 2 ^ f.mbits % 2 ^ f.ebits = field at *
  split at hv
  next => split at hv <;> cases hv
  next hfin =>
    simp only [Bool.false_and, Bool.false_eq_true, ↓reduceIte, beq_iff_eq, Bool.and_eq_true, bne_iff_ne, ne_eq, hf, not_false_eq_true,
      and_true] at hv hfin
    split at hv
    next h0 =>
      obtain ⟨rfl, rfl, rfl⟩ := FVal.fin.inj hv
      exact ⟨⟨by omega, Int.le_refl _, by omega, .inr rfl⟩,
        by simpa only [Int.sub_self, Int.toNat_zero, Nat.zero_mul, Nat.zero_add, h0] using hfields⟩
    next h0 =>
      obtain ⟨rfl, rfl, rfl⟩ := FVal.fin.inj hv
      refine ⟨⟨by omega, by omega, by omega, .inl (by omega)⟩, ?_⟩
      have hpat : (f.minExp + field - 1 - f.minExp).toNat * 2 ^ f.mbits + (mant + 2 ^ f.mbits) = field * 2 ^ f.mbits + mant := by
        have : (f.minExp + field - 1 - f.minExp).toNat + 1 = field := by omega
        rw [← this, Nat.succ_mul, this]
        omega
      rw [hpat]
      exact hfields

/-- A finite value or an infinity rounded to its own format is its own pattern (03 R25), in every format but E4M3, which has no infinity. -/
theorem Fp.round_value {f : Fp} (hf : f ≠ .e4m3) (rm : RMode) (sat : Bool) {x : Nat} (hx : x < 2 ^ f.width)
    (hnan : (f.value x).isNan = false) : f.round rm sat (f.value x).toRV = (x, 0) := by
  cases hv : f.value x with
  | nan sig => rw [hv] at hnan; cases hnan
  | inf n =>
    have hpat := Fp.signed_of_value_inf hx hv
    cases f
    case e4m3 => exact absurd rfl hf
    all_goals simp only [FVal.toRV, Fp.round, hpat]; rfl
  | fin n m e =>
    obtain ⟨hholds, hpat⟩ := Fp.holds_of_value_fin hf hx hv
    simp only [FVal.toRV, Fp.round, Fp.roundEx_of_holds hf hholds, hpat]
    rfl

/-! ### Sums and products before rounding (03 R40) -/

/-- The exact value of a dyadic, as a rational number. -/
def Dy.rat (a : Dy) : Rat := (a.n : Rat) * (2 : Rat) ^ a.e

/-- A dyadic is a whole number of every unit at or below its own. -/
theorem Dy.rat_eq_scaled (a : Dy) {q : Int} (h : q ≤ a.e) : a.rat = ((a.n * 2 ^ (a.e - q).toNat : Int) : Rat) * (2 : Rat) ^ q := by
  have hpow : ((2 ^ (a.e - q).toNat : Int) : Rat) = ((2 ^ (a.e - q).toNat : Nat) : Rat) := by
    rw [← Rat.intCast_natCast, Int.natCast_pow, Int.cast_ofNat_Int]
  rw [Dy.rat, two_zpow_eq_scaled h, Rat.intCast_mul, hpow, Rat.mul_assoc]

theorem Dy.rat_add (a b : Dy) : (a.add b).rat = a.rat + b.rat := by
  unfold Dy.add
  split
  case isTrue h => rw [b.rat_eq_scaled h, Dy.rat, Dy.rat, ← Rat.add_mul, Rat.intCast_add]
  case isFalse h =>
    have h' : b.e ≤ a.e := by omega
    rw [a.rat_eq_scaled h', Dy.rat, Dy.rat, ← Rat.add_mul, Rat.intCast_add]

theorem Dy.rat_mul (a b : Dy) : (a.mul b).rat = a.rat * b.rat := by
  have hpow : (2 : Rat) ^ (a.e + b.e) = (2 : Rat) ^ a.e * (2 : Rat) ^ b.e := Rat.zpow_add (by decide) _ _
  rw [Dy.mul, Dy.rat, Dy.rat, Dy.rat, hpow, Rat.intCast_mul, Rat.mul_assoc, Rat.mul_assoc, ← Rat.mul_assoc (b.n : Rat),
    Rat.mul_comm (b.n : Rat), Rat.mul_assoc]

/-- A sign and a magnitude make the value of their integer. -/
theorem sign_mul_natCast (neg : Bool) (m : Nat) :
    (if neg then -1 else 1 : Rat) * (m : Rat) = ((if neg then -(m : Int) else m : Int) : Rat) := by
  cases neg with
  | false => exact Rat.one_mul _
  | true => exact (Rat.neg_mul 1 _).trans (congrArg _ (Rat.one_mul _))

/-- A finite value has the value of its dyadic. -/
theorem FVal.rat_fin (neg : Bool) (m : Nat) (e : Int) : (FVal.fin neg m e).rat = (FVal.fin neg m e).dy.rat :=
  congrArg (· * (2 : Rat) ^ e) (sign_mul_natCast neg m)

/-- The sign and the magnitude of a dyadic are those of its integer, whatever sign a zero takes. -/
theorem Dy.signed_toEx (a : Dy) (zeroNeg : Bool) :
    (if (a.toEx zeroNeg).neg then -((a.toEx zeroNeg).m : Int) else (a.toEx zeroNeg).m) = a.n := by
  simp only [Dy.toEx, beq_iff_eq]
  by_cases h0 : a.n = 0
  · rw [h0]
    cases zeroNeg <;> rfl
  · simp only [h0, if_false, decide_eq_true_eq]
    omega

theorem Dy.rat_toEx (a : Dy) (zeroNeg : Bool) : (a.toEx zeroNeg).rat = a.rat :=
  congrArg (· * (2 : Rat) ^ a.e) ((sign_mul_natCast _ _).trans (congrArg _ (a.signed_toEx zeroNeg)))

theorem FVal.rat_negate_fin (neg : Bool) (m : Nat) (e : Int) : (FVal.fin neg m e).negate.rat = -(FVal.fin neg m e).rat := by
  rw [FVal.negate, FVal.rat_fin, FVal.rat_fin, Dy.rat, Dy.rat, ← Rat.neg_mul, ← Rat.intCast_neg]
  cases neg with
  | false => rfl
  | true => rw [FVal.dy, FVal.dy, if_neg (by decide), if_pos rfl, Int.neg_neg]

/-- What is rounded is the number of exact value r, with no flag raised before. -/
def ExactlyRat (z : RV × Flags) (r : Rat) : Prop := ∃ v : Ex, z = (.num v, 0) ∧ v.sticky = false ∧ v.rat = r

theorem fpAdd_exact (rm : RMode) (n1 n2 : Bool) (m1 m2 : Nat) (e1 e2 : Int) :
    ExactlyRat (fpAdd rm (.fin n1 m1 e1) (.fin n2 m2 e2)) ((FVal.fin n1 m1 e1).rat + (FVal.fin n2 m2 e2).rat) :=
  ⟨_, rfl, rfl, by rw [Dy.rat_toEx, Dy.rat_add, FVal.rat_fin, FVal.rat_fin]⟩

/-- A difference is the sum with the sign of the second operand inverted. -/
theorem fpSub_exact (rm : RMode) (n1 n2 : Bool) (m1 m2 : Nat) (e1 e2 : Int) :
    ExactlyRat (fpAdd rm (.fin n1 m1 e1) (FVal.fin n2 m2 e2).negate) ((FVal.fin n1 m1 e1).rat - (FVal.fin n2 m2 e2).rat) := by
  rw [Rat.sub_eq_add_neg, ← FVal.rat_negate_fin]
  exact fpAdd_exact rm n1 (!n2) m1 m2 e1 e2

/-- The dyadic of a product of finite operands is the product of theirs. -/
theorem dy_fin_mul (n1 n2 : Bool) (m1 m2 : Nat) (e1 e2 : Int) :
    (FVal.fin (n1 != n2) (m1 * m2) (e1 + e2)).dy = (FVal.fin n1 m1 e1).dy.mul (FVal.fin n2 m2 e2).dy := by
  cases n1 <;> cases n2 <;>
    simp only [FVal.dy, Dy.mul, Int.natCast_mul, Int.neg_mul, Int.mul_neg, Int.neg_neg, bne_self_eq_false, Bool.false_eq_true, ↓reduceIte,
      Bool.true_bne, Bool.false_bne, Bool.not_false]

theorem rat_fin_mul (n1 n2 : Bool) (m1 m2 : Nat) (e1 e2 : Int) :
    (FVal.fin (n1 != n2) (m1 * m2) (e1 + e2)).rat = (FVal.fin n1 m1 e1).rat * (FVal.fin n2 m2 e2).rat := by
  rw [FVal.rat_fin, FVal.rat_fin, FVal.rat_fin, dy_fin_mul, Dy.rat_mul]

theorem fpMul_exact (n1 n2 : Bool) (m1 m2 : Nat) (e1 e2 : Int) :
    ExactlyRat (fpMul (.fin n1 m1 e1) (.fin n2 m2 e2)) ((FVal.fin n1 m1 e1).rat * (FVal.fin n2 m2 e2).rat) :=
  ⟨_, rfl, rfl, rat_fin_mul n1 n2 m1 m2 e1 e2⟩

/-- The product of a fused multiply-add goes unrounded into the sum. -/
theorem fpFma_exact (rm : RMode) (n1 n2 n3 : Bool) (m1 m2 m3 : Nat) (e1 e2 e3 : Int) :
    ExactlyRat (fpFma rm (.fin n1 m1 e1) (.fin n2 m2 e2) (.fin n3 m3 e3))
      ((FVal.fin n1 m1 e1).rat * (FVal.fin n2 m2 e2).rat + (FVal.fin n3 m3 e3).rat) := by
  rw [← rat_fin_mul]
  exact fpAdd_exact rm (n1 != n2) n3 (m1 * m2) m3 (e1 + e2) e3

/-- Settles O14: the patterns of a format by their fields, the exact operations by the sum of dyadics. -/
theorem exactBeforeRounding : Obligations.ExactBeforeRounding := by
  unfold Obligations.ExactBeforeRounding
  refine ⟨fun t rm sat x hx hnan => Fp.round_value (by cases t <;> decide) rm sat hx hnan, ?_⟩
  intro rm n1 n2 n3 m1 m2 m3 e1 e2 e3
  exact ⟨fpAdd_exact rm n1 n2 m1 m2 e1 e2, fpSub_exact rm n1 n2 m1 m2 e1 e2, fpMul_exact n1 n2 m1 m2 e1 e2,
    fpFma_exact rm n1 n2 n3 m1 m2 m3 e1 e2 e3⟩

/-! ### The machine after reset (27 R398) -/

@[simp] theorem State.plane_reset (p : PlaneId) : State.reset.plane p = Plane.reset := Vector.getElem_replicate p.isLt

@[simp] theorem Plane.getX_reset (r : XReg) : Plane.reset.getX r = 0 := by
  unfold Plane.getX
  split
  case isTrue => rfl
  case isFalse => exact Vector.getElem_replicate r.toFin.isLt

@[simp] theorem State.timeline_reset (p : PlaneId) (n : TReg) : State.reset.timeline p n = ⟨0, 0, []⟩ := by
  rw [State.timeline, State.plane_reset]
  exact Vector.getElem_replicate n.toFin.isLt

@[simp] theorem State.wm_reset (w : WReg) : State.reset.wm w = ⟨0, 0, []⟩ := Vector.getElem_replicate w.toFin.isLt

@[simp] theorem State.group_reset (e : Nat) : State.reset.group e = ⟨none, [], 0, [], false⟩ :=
  Vector.getElem_replicate (Nat.mod_lt e (by decide))

@[simp] theorem State.regions_reset (j : Nat) : (State.reset.regions[j]?).join = none := by
  rw [State.reset, Vector.getElem?_replicate]
  split <;> rfl

@[simp] theorem State.byte_reset (a : Nat) : State.reset.byte a = 0 := rfl

/-- No byte is listed, so both memories are in canonical form (log 1, log 12). -/
theorem State.memInv_reset : State.reset.MemInv := ⟨rfl, rfl⟩

/-- Settles O55: what is read of the reset state is what it was filled with, and its other fields are literals. -/
theorem resetValues : Obligations.ResetValues := by
  unfold Obligations.ResetValues
  refine ⟨State.memInv_reset, ?_⟩
  simp only [State.byte_reset, State.wm_reset, State.group_reset, State.regions_reset, State.plane_reset, Plane.getX_reset,
    State.timeline_reset, forall_const, and_self, true_and]
  and_intros <;> rfl

end Sys2Proof.Machine
end

section
/-! PROOFS of what a scalar access reads and writes (O10): the byte of each store operation, then of a list of places, then of the accesses. -/
namespace Sys2Proof.Machine

/-! ### The bytes that each store writes -/

/-- Bytes written from an address on change no other address. -/
theorem Memory.get_write_of_outside {cs : List Host.Cell} (bs : List Byte) {a x : Nat} (h : Memory.wf cs = true) (hx : ∀ i < bs.length, x ≠ a + i) :
    Memory.get (bs.foldl (fun (y : Nat × List Host.Cell) b => (y.1 + 1, Memory.set y.2 y.1 b)) (a, cs)).2 x = Memory.get cs x := by
  induction bs generalizing a cs with
  | nil => rfl
  | cons b bs ih =>
    have hne : x ≠ a := hx 0 (Nat.zero_lt_succ _)
    have hrest : ∀ i < bs.length, x ≠ a + 1 + i := fun i hi => by
      have := hx (i + 1) (Nat.succ_lt_succ hi)
      omega
    rw [List.foldl_cons, ih (Memory.wf_set a b h) hrest, Memory.get_set h, if_neg hne]

theorem byte_physWrite_of_outside {s : State} {pa x : Nat} {bs : List Byte} (h : Memory.wf s.mem = true) (hx : ∀ i < bs.length, x ≠ pa + i) :
    (s.physWrite pa bs).byte x = s.byte x :=
  Memory.get_write_of_outside bs h hx

theorem byte_setByte {s : State} (h : Memory.wf s.mem = true) (a : Nat) (b : Byte) (x : Nat) :
    (s.setByte a b).byte x = if x = a then b else s.byte x :=
  Memory.get_set h a b x

/-- A zero-summary bit is in memory only for a place of a saved partition (07 R83, R88). -/
theorem byte_zsSet_of_notMem {s : State} {p : Place} (v : Bool) {x : Nat} (h : Memory.wf s.mem = true) (hx : x ∉ summaryBytes [p]) :
    (s.zsSet p v).byte x = s.byte x := by
  unfold State.zsSet
  split
  · rfl
  · rfl
  next fe zs hk =>
    have hne : x ≠ zs + p.off / 2048 := by simpa [summaryBytes, hk] using hx
    rw [byte_setByte h, if_neg hne]

theorem byte_putByte_of_notMem {s : State} {p : Place} (b : Byte) {x : Nat} (h : Memory.wf s.mem = true) (hx : x ∉ summaryBytes [p]) :
    (s.putByte p b).byte x = if x = p.pa then b else s.byte x := by
  unfold State.putByte
  simp only
  split
  · rw [byte_zsSet_of_notMem false (Memory.wf_set _ _ h) hx, byte_setByte h]
  · exact byte_setByte h _ _ _

/-! ### Lists of places -/

theorem length_leBytes (n v : Nat) : (leBytes n v).length = n := by
  induction n generalizing v with
  | zero => rfl
  | succ n ih => rw [leBytes, List.length_cons, ih]

theorem getElem?_leBytes {n i : Nat} (v : Nat) (h : i < n) : (leBytes n v)[i]? = some (BitVec.ofNat 8 (v / 256 ^ i % 256)) := by
  induction n generalizing v i with
  | zero => exact absurd h (Nat.not_lt_zero i)
  | succ n ih =>
    cases i with
    | zero => rw [leBytes, List.getElem?_cons_zero, Nat.pow_zero, Nat.div_one]
    | succ i => rw [leBytes, List.getElem?_cons_succ, ih _ (Nat.lt_of_succ_lt_succ h), Nat.div_div_eq_div_mul, Nat.pow_succ']

/-- One place for each byte. -/
theorem length_places {s : State} {ag : Agent} {acc : Acc} {fe : Bool} {n va : Nat} {last : Option (Nat × Frame)} {ps : List Place}
    (h : s.places ag acc fe n va last = .ok ps) : ps.length = n := by
  induction n generalizing va last ps with
  | zero => cases h; rfl
  | succ n ih =>
    unfold State.places at h
    simp only at h
    split at h
    · cases h
    · split at h
      · cases h
      next qs hqs => cases h; rw [List.length_cons, ih hqs]

theorem summaryBytes_cons (p : Place) (ps : List Place) : summaryBytes (p :: ps) = summaryBytes [p] ++ summaryBytes ps := by
  unfold summaryBytes
  rw [← List.filterMap_append, List.singleton_append]

/-- Bytes put at places: of a state in canonical form they change only those places and their zero-summary bytes. -/
theorem byte_putBytes_of_notMem (xs : List (Place × Byte)) {s : State} {x : Nat} (h : Memory.wf s.mem = true)
    (hpa : x ∉ xs.map (·.1.pa)) (hzs : x ∉ summaryBytes (xs.map (·.1))) :
    (xs.foldl (fun s y => s.putByte y.1 y.2) s).byte x = s.byte x := by
  induction xs generalizing s with
  | nil => rfl
  | cons y xs ih =>
    rw [List.map_cons, List.mem_cons, not_or] at hpa
    rw [List.map_cons, summaryBytes_cons, List.mem_append, not_or] at hzs
    rw [List.foldl_cons, ih (wf_putByte _ _ h) hpa.2 hzs.2, byte_putByte_of_notMem _ h hzs.1, if_neg hpa.1]

/-- A byte put at one of distinct places, none of a saved partition, stays there. -/
theorem byte_putBytes_of_mem (xs : List (Place × Byte)) {s : State} {p : Place} {b : Byte} (h : Memory.wf s.mem = true)
    (hnodup : (xs.map (·.1.pa)).Nodup) (hzs : summaryBytes (xs.map (·.1)) = []) (hmem : (p, b) ∈ xs) :
    (xs.foldl (fun s y => s.putByte y.1 y.2) s).byte p.pa = b := by
  induction xs generalizing s with
  | nil => cases hmem
  | cons y xs ih =>
    rw [List.map_cons, List.nodup_cons] at hnodup
    rw [List.map_cons, summaryBytes_cons, List.append_eq_nil_iff] at hzs
    rw [List.foldl_cons]
    rcases List.mem_cons.1 hmem with rfl | hin
    · rw [byte_putBytes_of_notMem xs (wf_putByte _ _ h) hnodup.1 (by rw [hzs.2]; exact List.not_mem_nil),
        byte_putByte_of_notMem _ h (by rw [hzs.1]; exact List.not_mem_nil), if_pos rfl]
    · exact ih (wf_putByte _ _ h) hnodup.2 hzs.2 hin

/-- Poison cleared leaves every byte. -/
theorem byte_clearPoison (s : State) (ps : List Place) (x : Nat) : (s.clearPoison ps).byte x = s.byte x := by
  unfold State.clearPoison
  split <;> rfl

theorem byte_writePlaces_of_notMem {s : State} {ps : List Place} {bs : List Byte} {x : Nat} (h : Memory.wf s.mem = true)
    (hlen : ps.length = bs.length) (hpa : x ∉ ps.map (·.pa)) (hzs : x ∉ summaryBytes ps) : (s.writePlaces ps bs).byte x = s.byte x := by
  have hfst : (ps.zip bs).map (·.1) = ps := List.map_fst_zip (Nat.le_of_eq hlen)
  refine (byte_clearPoison _ _ _).trans (byte_putBytes_of_notMem _ h ?_ (by rwa [hfst]))
  rwa [← hfst, List.map_map] at hpa

theorem byte_writePlaces_of_getElem? {s : State} {ps : List Place} {bs : List Byte} (h : Memory.wf s.mem = true)
    (hlen : ps.length = bs.length) (hnodup : (ps.map (·.pa)).Nodup) (hzs : summaryBytes ps = []) {i : Nat} {p : Place} {b : Byte}
    (hp : ps[i]? = some p) (hb : bs[i]? = some b) : (s.writePlaces ps bs).byte p.pa = b := by
  have hfst : (ps.zip bs).map (·.1) = ps := List.map_fst_zip (Nat.le_of_eq hlen)
  refine (byte_clearPoison _ _ _).trans (byte_putBytes_of_mem _ h ?_ (by rwa [hfst]) ?_)
  · rwa [← hfst, List.map_map] at hnodup
  · exact List.mem_of_getElem? (List.getElem?_zip_eq_some.2 ⟨hp, hb⟩)

/-! ### Pending pairs (23 R343) -/

/-- The bytes that applying one pending key writes. -/
def State.bytesOfKey (s : State) (k : PendKey) : List Nat :=
  match s.regions[k.reg]? with
  | some (some g) => (List.range (tagBytes g.tag)).map fun i => k.pa + i
  | _ => []

theorem State.mem_keyBytes {s : State} {sel : PendKey → Bool} {x : Nat} : x ∈ s.keyBytes sel ↔ ∃ k ∈ s.pend.filter sel, x ∈ s.bytesOfKey k :=
  List.mem_flatMap

theorem byte_applyKey_of_notMem {s : State} {k : PendKey} {x : Nat} (h : Memory.wf s.mem = true) (hx : x ∉ s.bytesOfKey k) :
    (s.applyKey k).byte x = s.byte x := by
  unfold State.bytesOfKey at hx
  unfold State.applyKey
  split
  next g hg =>
    simp only [hg, List.mem_map, List.mem_range, not_exists, not_and] at hx
    exact byte_physWrite_of_outside h fun i hi => by
      rw [length_leBytes] at hi
      exact fun e => hx i hi e.symm
  next => rfl

theorem regions_applyKey (s : State) (k : PendKey) : (s.applyKey k).regions = s.regions := by
  unfold State.applyKey
  split <;> rfl

theorem byte_applyEach_of_notMem (ks : List PendKey) {s : State} {x : Nat} (h : Memory.wf s.mem = true) (hx : ∀ k ∈ ks, x ∉ s.bytesOfKey k) :
    (ks.foldl (fun s k => s.applyKey k) s).byte x = s.byte x := by
  induction ks generalizing s with
  | nil => rfl
  | cons k ks ih =>
    have hrest : ∀ j ∈ ks, x ∉ (s.applyKey k).bytesOfKey j := fun j hj => by
      unfold State.bytesOfKey
      rw [regions_applyKey]
      exact hx j (List.mem_cons_of_mem k hj)
    rw [List.foldl_cons, ih (wf_applyKey k h) hrest, byte_applyKey_of_notMem h (hx k List.mem_cons_self)]

theorem byte_applyKeys_of_notMem {s : State} {sel : PendKey → Bool} {x : Nat} (h : Memory.wf s.mem = true) (hx : x ∉ s.keyBytes sel) :
    (s.applyKeys sel).byte x = s.byte x := by
  unfold State.applyKeys
  split
  · refine byte_applyEach_of_notMem _ h fun k hk hin => hx (State.mem_keyBytes.2 ⟨k, hk, hin⟩)
  · rfl

theorem pressTouch_of_noPending {s : State} (h : s.pend = []) (ps : List Place) : s.pressTouch ps = s := by
  unfold State.pressTouch State.applyKeys
  rw [h]
  rfl

theorem wf_pressTouch {s : State} (ps : List Place) (h : Memory.wf s.mem = true) : Memory.wf (s.pressTouch ps).mem = true :=
  wf_applyKeys _ h

/-! ### Translations held (07 R77) -/

/-- An access changes only what its plane holds of its stream. -/
theorem leavePage_others (s : State) (ag : Agent) (va n : Nat) :
    { s.leavePage ag va n with planes := s.planes } = s ∧ ∀ p, { (s.leavePage ag va n).plane p with held := (s.plane p).held } = s.plane p := by
  rcases leavePage_only s ag va n with h | ⟨f, h⟩
  · rw [h]; exact ⟨rfl, fun _ => rfl⟩
  · rw [h]
    refine ⟨rfl, fun p => ?_⟩
    by_cases hp : p = ag.plane
    · rw [hp, State.plane_modPlane_self]
    · rw [State.plane_modPlane_ne _ _ hp]

/-- A held translation goes where it is of the agent's stream and the access is not wholly in its page. -/
theorem mem_held_leavePage (s : State) (ag : Agent) (va n : Nat) (p : PlaneId) (h : Held) :
    h ∈ ((s.leavePage ag va n).plane p).held ↔ h ∈ (s.plane p).held ∧
      ¬ (p = ag.plane ∧ ag.stream = some h.stream ∧ n ≠ 0 ∧ va / 2 ^ 63 ≠ 1 ∧ ¬ (h.covers va = true ∧ h.covers (va + (n - 1)) = true)) := by
  unfold State.leavePage
  split
  next hnone => simp [hnone]
  next k hk =>
    split
    next hskip =>
      simp only [Bool.or_eq_true, List.isEmpty_iff, beq_iff_eq] at hskip
      refine ⟨fun hin => ⟨hin, fun ⟨hp, _, hn, hva, _⟩ => ?_⟩, And.left⟩
      rcases hskip with (hempty | h0) | h1
      · rw [hp, hempty] at hin; cases hin
      · exact hn h0
      · exact hva h1
    next hskip =>
      simp only [Bool.or_eq_true, List.isEmpty_iff, beq_iff_eq, not_or] at hskip
      obtain ⟨⟨-, hn⟩, hva⟩ := hskip
      by_cases hp : p = ag.plane
      · rw [hp, State.plane_modPlane_self]
        simp only [List.mem_filter, Bool.or_eq_true, bne_iff_ne, Bool.and_eq_true, hk, Option.some.injEq, true_and, ne_eq, hn, not_false_eq_true,
          hva, and_congr_right_iff]
        rw [eq_comm (a := k), Classical.not_and_iff_not_or_not, Classical.not_not]
        exact fun _ => Iff.rfl
      · rw [State.plane_modPlane_ne _ _ hp]
        simp only [hp, false_and, not_false_eq_true, and_true]

@[simp] theorem pend_leavePage (s : State) (ag : Agent) (va n : Nat) : (s.leavePage ag va n).pend = s.pend := by
  obtain ⟨h, -⟩ := leavePage_others s ag va n
  exact (congrArg State.pend h :)

@[simp] theorem watching_leavePage (s : State) (ag : Agent) (va n : Nat) : (s.leavePage ag va n).watching = s.watching := by
  obtain ⟨h, -⟩ := leavePage_others s ag va n
  exact (congrArg State.watching h :)

@[simp] theorem byte_leavePage (s : State) (ag : Agent) (va n x : Nat) : (s.leavePage ag va n).byte x = s.byte x :=
  congrArg (Memory.get · x) (mem_leavePage s ag va n)

@[simp] theorem pendingBytes_leavePage (s : State) (ag : Agent) (va n : Nat) (ps : List Place) :
    (s.leavePage ag va n).pendingBytes ps = s.pendingBytes ps := by
  obtain ⟨h, -⟩ := leavePage_others s ag va n
  exact (congrArg (State.pendingBytes · ps) h :)

/-! ### Lines noted while a strand sleeps in GCSLEEP (15 R234) -/

theorem SortedNat.mem_insert {xs : List Nat} {a x : Nat} : x ∈ SortedNat.insert xs a ↔ x = a ∨ x ∈ xs := by
  induction xs with
  | nil => simp [SortedNat.insert]
  | cons b xs ih =>
    unfold SortedNat.insert
    split
    · exact List.mem_cons
    · split
      next hab => simp [beq_iff_eq.1 hab]
      next => simp only [List.mem_cons, ih, or_left_comm]

/-- One byte noted: its line joins those noted before. -/
theorem mem_wrote_setByte {s : State} (h : s.watching ≠ []) (a : Nat) (b : Byte) (l : Nat) :
    l ∈ (s.setByte a b).wrote ↔ l = a / 64 ∨ l ∈ s.wrote := by
  have hlines : linesOf a 1 = [a / 64] := by simp [linesOf]
  have hempty : s.watching.isEmpty = false := List.isEmpty_eq_false_iff.2 h
  simp only [State.setByte, State.noteWrite, hempty, hlines, Bool.false_eq_true, ↓reduceIte, List.foldl_cons, List.foldl_nil]
  exact SortedNat.mem_insert

theorem watching_zsSet (s : State) (p : Place) (v : Bool) : (s.zsSet p v).watching = s.watching := by
  unfold State.zsSet
  split <;> rfl

theorem watching_putByte (s : State) (p : Place) (b : Byte) : (s.putByte p b).watching = s.watching := by
  unfold State.putByte
  simp only
  split
  · exact watching_zsSet _ _ _
  · rfl

theorem mem_wrote_zsSet {s : State} (h : s.watching ≠ []) (p : Place) (v : Bool) {l : Nat} (hl : l ∈ s.wrote) : l ∈ (s.zsSet p v).wrote := by
  unfold State.zsSet
  split
  · exact hl
  · exact hl
  · exact (mem_wrote_setByte h _ _ l).2 (.inr hl)

theorem mem_wrote_putByte {s : State} (h : s.watching ≠ []) (p : Place) (b : Byte) {l : Nat} (hl : l = p.pa / 64 ∨ l ∈ s.wrote) :
    l ∈ (s.putByte p b).wrote := by
  have hset : l ∈ (s.setByte p.pa b).wrote := (mem_wrote_setByte h _ _ l).2 hl
  unfold State.putByte
  simp only
  split
  · exact mem_wrote_zsSet (s := s.setByte p.pa b) h _ _ hset
  · exact hset

theorem mem_wrote_putBytes (xs : List (Place × Byte)) {s : State} (h : s.watching ≠ []) {l : Nat}
    (hl : (∃ y ∈ xs, l = y.1.pa / 64) ∨ l ∈ s.wrote) : l ∈ (xs.foldl (fun s y => s.putByte y.1 y.2) s).wrote := by
  induction xs generalizing s with
  | nil => exact hl.resolve_left fun ⟨_, hy, _⟩ => nomatch hy
  | cons y xs ih =>
    refine ih (by rwa [watching_putByte]) ?_
    rcases hl with ⟨z, hz, hlz⟩ | hl
    · rcases List.mem_cons.1 hz with rfl | hz
      · exact .inr (mem_wrote_putByte h _ _ (.inl hlz))
      · exact .inl ⟨z, hz, hlz⟩
    · exact .inr (mem_wrote_putByte h _ _ (.inr hl))

theorem mem_wrote_writePlaces {s : State} {ps : List Place} {bs : List Byte} (h : s.watching ≠ []) (hlen : ps.length = bs.length) {p : Place}
    (hp : p ∈ ps) : p.pa / 64 ∈ (s.writePlaces ps bs).wrote := by
  have hfst : (ps.zip bs).map (·.1) = ps := List.map_fst_zip (Nat.le_of_eq hlen)
  rw [← hfst, List.mem_map] at hp
  obtain ⟨y, hy, rfl⟩ := hp
  have hput := mem_wrote_putBytes (ps.zip bs) (s := s) (l := y.1.pa / 64) h (.inl ⟨y, hy, rfl⟩)
  unfold State.writePlaces State.clearPoison
  split
  · exact hput
  · exact hput

theorem watching_of_touched {s t : State} (h : OnlyTouched s t) : t.watching = s.watching :=
  (congrArg State.watching h :)

/-! ### The accesses -/

/-- What a read that is performed consists of. -/
theorem State.read_ok {s s' : State} {ag : Agent} {va : Word} {n v : Nat} {acc : Acc} (h : s.read ag va n acc = .ok (v, s')) :
    ∃ ps, s.places ag acc false n va.toNat none = .ok ps ∧ s' = (s.leavePage ag va.toNat n).pressTouch ps ∧
      v = leNat (ps.map fun p => s'.byte p.pa) := by
  unfold State.read at h
  split at h
  · cases h
  next ps hps =>
    refine ⟨ps, hps, ?_⟩
    simp only [State.readPlaces] at h
    split at h
    · cases h
    next bs hbs =>
      split at hbs
      · cases hbs
      · cases hbs; cases h; exact ⟨rfl, rfl⟩

/-- What a write that is performed consists of. -/
theorem State.write_ok {s t : State} {ag : Agent} {va : Word} {n d : Nat} {acc : Acc} (h : s.write ag va n d acc = .ok t) :
    ∃ ps, s.places ag acc false n va.toNat none = .ok ps ∧
      t = ((s.leavePage ag va.toNat n).pressTouch ps).writePlaces ps (leBytes n d) := by
  unfold State.write at h
  split at h
  · cases h
  next ps hps =>
    split at h
    · cases h
    · cases h; exact ⟨ps, hps, rfl⟩

/-- The state in which an access finds its bytes differs only in those that pending pairs of its lines write. -/
theorem byte_reached {s : State} (ag : Agent) (va n : Nat) {ps : List Place} {x : Nat} (h : Memory.wf s.mem = true) (hx : x ∉ s.pendingBytes ps) :
    ((s.leavePage ag va n).pressTouch ps).byte x = s.byte x :=
  calc ((s.leavePage ag va n).pressTouch ps).byte x = (s.leavePage ag va n).byte x :=
        byte_applyKeys_of_notMem (by rwa [mem_leavePage]) (by rwa [← pendingBytes_leavePage s ag va n] at hx)
    _ = s.byte x := byte_leavePage s ag va n x

/-- Settles O10: a read and a write are the translation, the pending pairs applied and the bytes of the places in turn. -/
theorem memoryAccesses : Obligations.MemoryAccesses := by
  unfold Obligations.MemoryAccesses
  refine ⟨?_, ?_, ?_⟩
  · intro s s' ag va n v acc hwf h
    have htouched := onlyTouched_read h
    have hwf' := wf_read h hwf
    obtain ⟨ps, hps, rfl, hv⟩ := State.read_ok h
    exact ⟨ps, hps, length_places hps, hv, htouched, hwf', fun a ha => byte_reached ag _ _ hwf ha,
      fun hpend => pressTouch_of_noPending (by rwa [pend_leavePage]) ps⟩
  · intro s ag va n
    exact ⟨(leavePage_others s ag va n).1, (leavePage_others s ag va n).2, mem_held_leavePage s ag va n⟩
  · intro s t ag va n d acc hwf h
    have hstored := onlyStored_write h
    have hwf' := wf_stored h hwf
    obtain ⟨ps, hps, rfl⟩ := State.write_ok h
    have hlen : ps.length = (leBytes n d).length := by rw [length_leBytes, length_places hps]
    have hreached : Memory.wf ((s.leavePage ag va.toNat n).pressTouch ps).mem = true := wf_pressTouch ps (by rwa [mem_leavePage])
    refine ⟨ps, hps, length_places hps, hstored, hwf', ?_, ?_, ?_⟩
    · intro a hpa hzs hpend
      rw [byte_writePlaces_of_notMem hreached hlen hpa hzs, byte_reached ag _ _ hwf hpend]
    · intro hwatch p hp
      refine mem_wrote_writePlaces ?_ hlen hp
      rwa [watching_of_touched (onlyTouched_pressTouch _ ps), watching_leavePage]
    · intro hnodup hzs i p hp
      have hi : i < n := by
        rw [← length_places hps]
        exact (List.getElem?_eq_some_iff.1 hp).1
      exact byte_writePlaces_of_getElem? hreached hlen hnodup hzs hp (getElem?_leBytes d hi)

end Sys2Proof.Machine
end

section
/-! PROOFS that every step keeps both memories in their canonical form (O56): a rule for each function of the model that answers a state, in
the model's order. A function that touches neither memory needs none: its result has the fields of its argument, and `h` itself proves it. -/
namespace Sys2Proof.Machine

/-! ### Answers, and the shapes of definitions -/

/-- Where a meaning answers a next state, that state's memory has the canonical form. -/
def Out.MemInv : Out → Prop
  | .next t => t.MemInv
  | _ => True

/-- Where a turn of the vector unit does something, it leaves the canonical form. -/
def VTurn.MemInv : VTurn → Prop
  | .went t => t.MemInv
  | .idle => True

/-- Where an X-writing function answers a state, it has the canonical form. -/
def XRes.MemInv : XRes → Prop
  | .done t _ => t.MemInv
  | _ => True

theorem State.MemInv.ite {c : Prop} {_ : Decidable c} {t u : State} (ht : t.MemInv) (hu : u.MemInv) : (if c then t else u).MemInv := by
  split
  · exact ht
  · exact hu

theorem Out.MemInv.ite {c : Prop} {_ : Decidable c} {t u : Out} (ht : Out.MemInv t) (hu : Out.MemInv u) : Out.MemInv (if c then t else u) := by
  split
  · exact ht
  · exact hu

theorem VTurn.MemInv.ite {c : Prop} {_ : Decidable c} {t u : VTurn} (ht : t.MemInv) (hu : u.MemInv) : (if c then t else u).MemInv := by
  split
  · exact ht
  · exact hu

theorem XRes.MemInv.ite {c : Prop} {_ : Decidable c} {t u : XRes} (ht : t.MemInv) (hu : u.MemInv) : (if c then t else u).MemInv := by
  split
  · exact ht
  · exact hu

theorem State.MemInv.foldl {α : Type} {s : State} {f : State → α → State} {l : List α} (h : s.MemInv) (hf : ∀ t x, t.MemInv → (f t x).MemInv) :
    (l.foldl f s).MemInv := by
  induction l generalizing s with
  | nil => exact h
  | cons x l ih => exact ih (hf s x h)

theorem State.MemInv.getD {o : Option State} {s : State} (h : s.MemInv) (ho : ∀ t, o = some t → t.MemInv) : (o.getD s).MemInv := by
  cases o with
  | none => exact h
  | some t => exact ho t rfl

theorem Out.MemInv.next {o : Out} {t : State} (h : Out.MemInv o) (ho : o = .next t) : t.MemInv := by
  subst ho
  exact h

theorem VTurn.MemInv.went {v : VTurn} {t : State} (h : v.MemInv) (hv : v = .went t) : t.MemInv := by
  subst hv
  exact h

theorem XRes.MemInv.done {x : XRes} {t : State} {v : Word} (h : x.MemInv) (hx : x = .done t v) : t.MemInv := by
  subst hx
  exact h

/-- A fold that stops at the first `none` keeps the canonical form where each of its steps does. -/
theorem memInv_of_foldlM {α : Type} {f : State → α → Option State} {l : List α} {s s' : State} (h : s.MemInv)
    (hf : ∀ t x t', t.MemInv → f t x = some t' → t'.MemInv) (hr : l.foldlM f s = some s') : s'.MemInv := by
  induction l generalizing s with
  | nil =>
    cases hr
    exact h
  | cons x l ih =>
    rw [List.foldlM_cons] at hr
    obtain ⟨t, ht, hr⟩ := Option.bind_eq_some_iff.1 hr
    exact ih (hf _ _ _ h ht) hr

/-- The same of a fold that is written with `bind`. -/
theorem memInv_of_foldl_bind {α : Type} {f : State → α → Option State} {l : List α} {o : Option State} {s' : State}
    (h : ∀ t, o = some t → t.MemInv) (hf : ∀ t x t', t.MemInv → f t x = some t' → t'.MemInv)
    (hr : l.foldl (fun o x => o.bind fun t => f t x) o = some s') : s'.MemInv := by
  induction l generalizing o with
  | nil => exact h _ hr
  | cons x l ih =>
    refine ih (fun t ht => ?_) hr
    obtain ⟨u, hu, ht⟩ := Option.bind_eq_some_iff.1 ht
    exact hf _ _ _ (h u hu) ht

/-! ### Memory -/

theorem State.MemInv.modPlane {s : State} {p f} (h : s.MemInv) : (s.modPlane p f).MemInv :=
  h

theorem State.MemInv.leavePage {s : State} {ag va n} (h : s.MemInv) : (s.leavePage ag va n).MemInv := by
  unfold State.leavePage
  split
  · exact h
  · exact .ite h h

theorem State.MemInv.setByte {s : State} {pa b} (h : s.MemInv) : (s.setByte pa b).MemInv :=
  ⟨Memory.wf_set pa b h.1, h.2⟩

theorem State.MemInv.feSet {s : State} {pl v} (h : s.MemInv) : (s.feSet pl v).MemInv := by
  unfold State.feSet
  split
  · exact h
  · exact h
  · exact h.setByte

theorem State.MemInv.zsSet {s : State} {pl v} (h : s.MemInv) : (s.zsSet pl v).MemInv := by
  unfold State.zsSet
  split
  · exact h
  · exact h
  · exact h.setByte

theorem State.MemInv.putByte {s : State} {pl b} (h : s.MemInv) : (s.putByte pl b).MemInv :=
  .ite h.setByte.zsSet h.setByte

theorem State.MemInv.physWrite {s : State} {pa bs} (h : s.MemInv) : (s.physWrite pa bs).MemInv :=
  ⟨wf_physWrite pa bs h.1, h.2⟩

theorem State.MemInv.applyKey {s : State} {k} (h : s.MemInv) : (s.applyKey k).MemInv := by
  unfold State.applyKey
  split
  · exact h.physWrite
  · exact h

theorem State.MemInv.applyKeys {s : State} {sel} (h : s.MemInv) : (s.applyKeys sel).MemInv :=
  .ite (.foldl h fun _ _ h => h.applyKey) h

theorem State.MemInv.pressTouch {s : State} {ps} (h : s.MemInv) : (s.pressTouch ps).MemInv :=
  h.applyKeys

theorem State.MemInv.spill {s : State} {reg pa} (h : s.MemInv) : (s.spill reg pa).MemInv :=
  .ite h.applyKeys h

theorem State.MemInv.applyLargest {s : State} {stack n} (h : s.MemInv) : (s.applyLargest stack n).MemInv := by
  induction n generalizing s with
  | zero => exact h
  | succ n ih =>
    unfold State.applyLargest
    split
    · exact h
    · split
      · exact h
      · exact ih h.applyKeys

theorem State.MemInv.makeRoom {s : State} {stack} (h : s.MemInv) : (s.makeRoom stack).MemInv :=
  h.applyLargest

theorem State.MemInv.acceptPair {s : State} {p n seq x} (h : s.MemInv) : (s.acceptPair p n seq x).MemInv :=
  .spill h.makeRoom

theorem State.MemInv.acceptOf {s : State} {sel} (h : s.MemInv) : (s.acceptOf sel).MemInv :=
  h.foldl fun _ _ h => .ite (h.foldl fun _ _ h => h.acceptPair) h

theorem State.MemInv.clearPoison {s : State} {ps} (h : s.MemInv) : (s.clearPoison ps).MemInv :=
  .ite h h

theorem State.MemInv.writePlaces {s : State} {ps bs} (h : s.MemInv) : (s.writePlaces ps bs).MemInv :=
  .clearPoison (h.foldl fun _ _ h => h.putByte)

theorem State.MemInv.zeroBlocks {s : State} {ps bs} (h : s.MemInv) : (s.zeroBlocks ps bs).MemInv :=
  h.foldl fun _ _ h => .ite h.zsSet h

theorem State.MemInv.read {s : State} {ag va n acc} (h : s.MemInv) {r s'} (hr : s.read ag va n acc = .ok (r, s')) : s'.MemInv := by
  unfold State.read at hr
  dsimp only at hr
  split at hr
  · cases hr
  · split at hr
    · cases hr
    · cases hr
      exact h.leavePage.pressTouch

theorem State.MemInv.write {s : State} {ag va n d acc} (h : s.MemInv) {s'} (hr : s.write ag va n d acc = .ok s') : s'.MemInv := by
  unfold State.write at hr
  split at hr
  · cases hr
  · split at hr
    · cases hr
    · cases hr
      exact h.leavePage.pressTouch.writePlaces

/-! ### Retirement, traps and cohorts -/

theorem State.MemInv.writeWord {s : State} {pa v} (h : s.MemInv) : (s.writeWord pa v).MemInv := by
  unfold State.writeWord
  split
  · exact h
  · exact .ite h h.pressTouch.writePlaces

theorem State.MemInv.nextSeq {s : State} {num} (h : s.MemInv) : (s.nextSeq num).2.MemInv := by
  unfold State.nextSeq
  split
  · exact h
  · exact h

theorem State.MemInv.report {s : State} {k} (h : s.MemInv) : (s.report k).MemInv := by
  unfold State.report
  split
  · split
    · exact h.writeWord.foldl fun _ _ h => h
    · exact h.foldl fun _ _ h => h
  · exact .ite h h.nextSeq

theorem State.MemInv.withdrawLaunch {s : State} {k} (h : s.MemInv) : (s.withdrawLaunch k).MemInv :=
  .report h

theorem State.MemInv.endCohort {s : State} {num outcome cause} (h : s.MemInv) : (s.endCohort num outcome cause).MemInv := by
  unfold State.endCohort
  extract_lets all note held stop accepted stopped
  have haccepted : accepted.MemInv := h.acceptOf
  exact .foldl (s := stopped) haccepted fun _ _ h => h.withdrawLaunch

theorem State.MemInv.takeTrap {s : State} {p cause tpc tval vtrap entries} (h : s.MemInv) : (s.takeTrap p cause tpc tval vtrap entries).MemInv :=
  .ite (.endCohort h) h

theorem State.MemInv.trapAt {s : State} {cause tpc tval} (h : s.MemInv) : (s.trapAt cause tpc tval).MemInv :=
  .ite h.takeTrap h

theorem State.MemInv.trap {s : State} {cause tval} (h : s.MemInv) : (s.trap cause tval).MemInv :=
  h.trapAt

theorem State.MemInv.illInsn {s : State} {w} (h : s.MemInv) : (s.illInsn w).MemInv :=
  h.trap

theorem State.MemInv.privTrap {s : State} {w} (h : s.MemInv) : (s.privTrap w).MemInv :=
  h.trap

theorem State.MemInv.illOp {s : State} {w} (h : s.MemInv) : (s.illOp w).MemInv :=
  h.trap

theorem State.MemInv.memTrap {s : State} {e} (h : s.MemInv) : (s.memTrap e).MemInv := by
  unfold State.memTrap
  split
  · exact h.trapAt
  · exact h.trapAt
  · exact h.endCohort
  · exact h

theorem State.MemInv.atS {s : State} {w f} (h : s.MemInv) (hf : ∀ t, t.MemInv → (f t).MemInv) : (s.atS w f).MemInv :=
  .ite (hf _ h) h.privTrap

theorem State.MemInv.returnFromTrap {s : State} (h : s.MemInv) : s.returnFromTrap.MemInv :=
  .ite h h

/-! ### Flags and their traps -/

theorem State.MemInv.retFlags {s s' : State} {fl w} (h : s.MemInv) (h1 : s'.MemInv) : (s.retFlags s' fl w).MemInv :=
  .ite h1 (.ite (.takeTrap h1) h)

/-! ### Scalar loads and stores -/

theorem State.MemInv.loading {s : State} {addr n acc k} (h : s.MemInv) (hk : ∀ x0 t, t.MemInv → (k x0 t).MemInv) :
    (s.loading addr n acc k).MemInv := by
  unfold State.loading
  split
  · exact h
  · split
    · exact h.memTrap
    next he => exact hk _ _ (h.read he)

theorem State.MemInv.storing {s : State} {addr n d acc k} (h : s.MemInv) (hk : ∀ t, t.MemInv → (k t).MemInv) :
    (s.storing addr n d acc k).MemInv := by
  unfold State.storing
  split
  · exact h
  · split
    · exact h.memTrap
    next he => exact hk _ (h.write he)

theorem State.MemInv.opLd {s : State} {d a z e len} (h : s.MemInv) : (opLd d a z e len s).MemInv :=
  h.loading fun _ _ h => h

theorem State.MemInv.opLdz {s : State} {d a z e len} (h : s.MemInv) : (opLdz d a z e len s).MemInv :=
  h.loading fun _ _ h => h

theorem State.MemInv.opSt {s : State} {d a z e len} (h : s.MemInv) : (opSt d a z e len s).MemInv :=
  h.storing fun _ h => h

theorem State.MemInv.opFldw {s : State} {d a e len} (h : s.MemInv) : (opFldw d a e len s).MemInv :=
  h.loading fun _ _ h => h

theorem State.MemInv.opFldd {s : State} {d a e len} (h : s.MemInv) : (opFldd d a e len s).MemInv :=
  h.loading fun _ _ h => h

theorem State.MemInv.opFstw {s : State} {d a e len} (h : s.MemInv) : (opFstw d a e len s).MemInv :=
  h.storing fun _ h => h

theorem State.MemInv.opFstd {s : State} {d a e len} (h : s.MemInv) : (opFstd d a e len s).MemInv :=
  h.storing fun _ h => h

/-! ### Atomic instructions -/

theorem State.MemInv.aligned {s k : State} {addr n} (h : s.MemInv) (h1 : k.MemInv) : (aligned addr n s k).MemInv :=
  .ite h.trap h1

theorem State.MemInv.amo {s : State} {d a o z signed f} (h : s.MemInv) : (amo d a o z signed f s).MemInv :=
  h.aligned <| .ite h <| h.loading fun old t ht => by
    cases f old with
    | none => exact ht
    | some v =>
      dsimp only
      split
      · exact h.memTrap
      next he =>
        have hs := ht.write he
        exact hs

theorem State.MemInv.opAmo {s : State} {fn d a b o z} (h : s.MemInv) : (opAmo fn d a b o z s).MemInv :=
  h.amo

/-! ### Floating point -/

theorem State.MemInv.fpRound {s : State} {w d srcs t r f} (h : s.MemInv) : (fpRound w d srcs t r f s).MemInv := by
  unfold Machine.fpRound
  split
  · exact h.illOp
  · split
    · exact h.illInsn
    · exact h.retFlags h

theorem State.MemInv.fpPattern {s : State} {w d srcs t v} (h : s.MemInv) : (fpPattern w d srcs t v s).MemInv :=
  .ite h.illOp (h.retFlags h)

theorem State.MemInv.fpToX {s : State} {w d srcs t v} (h : s.MemInv) : (fpToX w d srcs t v s).MemInv :=
  .ite h.illOp (h.retFlags h)

theorem State.MemInv.fcvtToInt {s : State} {w d a t r signed bits} (h : s.MemInv) : (fcvtToInt w d a t r signed bits s).MemInv := by
  unfold Machine.fcvtToInt
  split
  · exact h.illOp
  · split
    · exact h.illInsn
    · exact h.retFlags h

theorem State.MemInv.execFcvt {s : State} {k t r} (h : s.MemInv) : Out.MemInv (execFcvt k t r s) := by
  unfold Machine.execFcvt
  split
  · exact h.fpRound
  · exact h.fpRound
  · exact h.fpRound
  · exact h.fcvtToInt
  · exact h.fcvtToInt
  · exact h.fcvtToInt
  · exact h.fcvtToInt

/-! ### Timelines, groups, watermarks and events -/

theorem State.MemInv.waitTl {s : State} {n v} (h : s.MemInv) : (waitTl n v s).MemInv :=
  .ite h h

theorem State.MemInv.opWaittl {s : State} {w n v} (h : s.MemInv) : (opWaittl w n v s).MemInv :=
  .ite h.illOp h.waitTl

theorem State.MemInv.arrive {s : State} {e} (h : s.MemInv) : (s.arrive e).MemInv :=
  .ite h h

theorem State.MemInv.execGarrive {s : State} {d k} (h : s.MemInv) : Out.MemInv (execGarrive d k s) := by
  unfold Machine.execGarrive
  split
  · exact h.illOp
  · exact State.MemInv.ite h h.arrive

theorem State.MemInv.groupWait {s : State} {e gen w} (h : s.MemInv) : (groupWait e gen w s).MemInv :=
  .ite h h

theorem State.MemInv.execGwait {s : State} {a k} (h : s.MemInv) : Out.MemInv (execGwait a k s) := by
  unfold Machine.execGwait
  split
  · exact h.illOp
  · exact h.groupWait

theorem State.MemInv.execGbar {s : State} {k} (h : s.MemInv) : Out.MemInv (execGbar k s) := by
  unfold Machine.execGbar
  split
  · split
    · exact h.groupWait
    · exact h.illOp
  · split
    · exact h.illOp
    · exact State.MemInv.ite h h.arrive.groupWait

theorem State.MemInv.readSpad {s : State} {ag va n} (h : s.MemInv) {r s'} (hr : s.readSpad ag va n = .ok (r, s')) : s'.MemInv := by
  unfold State.readSpad at hr
  split at hr
  · cases hr
  · split at hr
    · cases hr
    · cases hr
      exact h.leavePage

theorem State.MemInv.acWait {s : State} {d addr thr} (h : s.MemInv) : (acWait d addr thr s).MemInv := by
  unfold Machine.acWait
  split
  · exact h.memTrap
  next he =>
    have hs := h.readSpad he
    exact .ite hs hs

theorem State.MemInv.opWmpub {s : State} {iw w v} (h : s.MemInv) : (opWmpub iw w v s).MemInv :=
  .ite h.illOp (.ite h h)

theorem State.MemInv.sleepWait {s : State} {d mask deadline} (h : s.MemInv) : (sleepWait d mask deadline s).MemInv := by
  unfold Machine.sleepWait
  split
  · exact .ite h (.ite h h)
  · exact .ite h h

theorem State.MemInv.execSleep {s : State} {d a b} (h : s.MemInv) : Out.MemInv (execSleep d a b s) := by
  unfold Machine.execSleep
  split
  · exact h.sleepWait
  · exact State.MemInv.ite h.illOp h.sleepWait

theorem State.MemInv.post {s : State} {k rank bits} (h : s.MemInv) : (s.post k rank bits).MemInv := by
  unfold State.post
  split
  · exact h
  · exact h

theorem State.MemInv.execEvpost {s : State} {d a b} (h : s.MemInv) : Out.MemInv (execEvpost d a b s) := by
  unfold Machine.execEvpost
  extract_lets x num own num'
  refine State.MemInv.ite h.illOp (.ite h ?_)
  split
  · exact h
  · exact .ite h h.post

theorem State.MemInv.asPlane {s : State} {p f} (h : s.MemInv) (hf : ∀ t, t.MemInv → (f t).MemInv) : (s.asPlane p f).MemInv :=
  hf _ h

theorem State.MemInv.execWaittlWake {s : State} {p} (h : s.MemInv) : Out.MemInv (execWaittlWake p s) := by
  unfold Machine.execWaittlWake
  split
  · exact h.asPlane fun _ h => h.waitTl
  · exact h

theorem State.MemInv.execSleepWake {s : State} {p} (h : s.MemInv) : Out.MemInv (execSleepWake p s) := by
  unfold Machine.execSleepWake
  split
  · exact State.MemInv.ite (h.asPlane fun _ h => h.sleepWait) h
  · exact h

theorem State.MemInv.execSleepTimeout {s : State} {p} (h : s.MemInv) : Out.MemInv (execSleepTimeout p s) := by
  unfold Machine.execSleepTimeout
  split
  · exact State.MemInv.ite (h.asPlane fun _ h => h.sleepWait) h
  · exact h

theorem State.MemInv.execBarrierWake {s : State} {p} (h : s.MemInv) : Out.MemInv (execBarrierWake p s) := by
  unfold Machine.execBarrierWake
  split
  · exact h.asPlane fun _ h => h.groupWait
  · exact h.asPlane fun _ h => h.groupWait
  · exact h

theorem State.MemInv.execAcwaitWake {s : State} {p} (h : s.MemInv) : Out.MemInv (execAcwaitWake p s) := by
  unfold Machine.execAcwaitWake
  split
  · exact h.asPlane fun _ h => h.acWait
  · exact h

theorem State.MemInv.execQdrainRelease {s : State} {p} (h : s.MemInv) : Out.MemInv (execQdrainRelease p s) := by
  unfold Machine.execQdrainRelease
  split
  · exact h.asPlane fun _ h => .ite h h
  · exact h

/-! ### Control registers and translations -/

theorem State.MemInv.crStep {s : State} {d c v} (h : s.MemInv) : (crStep d c v s).MemInv := by
  unfold Machine.crStep
  split
  · split
    · exact h
    · exact h
  · split
    · exact h
    · exact h

theorem State.MemInv.crAccess {s : State} {w d c v} (h : s.MemInv) : (crAccess w d c v s).MemInv :=
  .ite h.privTrap (.ite h h.crStep)

theorem State.MemInv.execFcsrAccess {s : State} {p} (h : s.MemInv) : Out.MemInv (execFcsrAccess p s) := by
  unfold Machine.execFcsrAccess
  split
  · exact State.MemInv.ite (h.asPlane fun _ h => h.crStep) h
  · exact h

theorem State.MemInv.opXinv {s : State} {w c sel} (h : s.MemInv) : (opXinv w c sel s).MemInv :=
  h.atS fun _ h => .ite h h

theorem State.MemInv.execWalkRefill {s : State} {p va} (h : s.MemInv) : Out.MemInv (execWalkRefill p va s) := by
  unfold Machine.execWalkRefill
  dsimp only
  split
  · exact h
  · split
    · exact h
    · exact State.MemInv.ite h h

theorem State.MemInv.execTset {s : State} {a b} (h : s.MemInv) : Out.MemInv (execTset a b s) := by
  unfold Machine.execTset
  dsimp only
  split
  · exact h
  · exact h.illOp

theorem State.MemInv.execTinv {s : State} {d a} (h : s.MemInv) : Out.MemInv (execTinv d a s) := by
  unfold Machine.execTinv
  dsimp only
  split
  · exact h
  · exact h.illOp

theorem State.MemInv.granule {s : State} {a acc k} (h : s.MemInv) (hk : ∀ x0 t, t.MemInv → (k x0 t).MemInv) : (s.granule a acc k).MemInv := by
  unfold State.granule
  split
  · exact h
  · split
    · exact hk _ _ h.leavePage
    · exact h
    · exact h.memTrap

theorem State.MemInv.execZscan {s : State} {d a b} (h : s.MemInv) : Out.MemInv (execZscan d a b s) := by
  unfold Machine.execZscan
  dsimp only
  split
  · exact h.illOp
  · split
    · exact h
    · split
      · exact h.memTrap
      · split
        · exact h.memTrap
        · refine State.MemInv.foldl h.leavePage fun t ps ht => ?_
          split
          · exact ht.zsSet
          · exact ht

/-! ### Elements of vector loads and stores -/

/-- What one element of a queued memory instruction does keeps the canonical form. -/
def KeepsElems (f : Nat → Run → Except Stop Run) : Prop := ∀ i r r', r.s.MemInv → f i r = .ok r' → r'.s.MemInv

theorem keepsElems_loadElem (e : VEntry) : KeepsElems (loadElem e) := by
  intro i r r' h hr
  unfold loadElem at hr
  dsimp only at hr
  split at hr
  · cases hr
  next he =>
    cases hr
    have hs := h.read he
    exact hs

theorem keepsElems_loadMarked (e : VEntry) : KeepsElems (loadMarked e) := by
  intro i r r' h hr
  unfold loadMarked at hr
  split at hr
  · cases hr
  · exact keepsElems_loadElem e i r r' h hr

theorem keepsElems_loadWindow (e : VEntry) : KeepsElems (loadWindow e) := by
  intro i r r' h hr
  unfold loadWindow at hr
  extract_lets p s ofs j len at hr
  split at hr
  · exact keepsElems_loadElem e i r r' h hr
  · cases hr
    exact h

theorem State.MemInv.readFields {s : State} {e mt base n f} (h : s.MemInv) {r s'} (hr : readFields e mt base n f s = .ok (r, s')) :
    s'.MemInv := by
  induction n generalizing f s r s' with
  | zero =>
    cases hr
    exact h
  | succ n ih =>
    unfold Machine.readFields at hr
    split at hr
    · cases hr
    next he =>
      split at hr
      · cases hr
      next he2 =>
        cases hr
        exact ih (h.read he) he2

theorem keepsElems_loadRecord (e : VEntry) : KeepsElems (loadRecord e) := by
  intro i r r' h hr
  unfold loadRecord at hr
  dsimp only at hr
  split at hr
  · cases hr
  next he =>
    cases hr
    exact List.foldlRecOn (motive := fun r : Run => r.s.MemInv) _ _ (h.readFields he) fun _ h _ _ => h

theorem keepsElems_loadFE (e : VEntry) : KeepsElems (loadFE e) := by
  intro i r r' h hr
  unfold loadFE at hr
  dsimp only at hr
  split at hr
  · cases hr
  · split at hr
    · cases hr
      exact h
    · split at hr
      · cases hr
      · split at hr
        · cases hr
        · cases hr
          exact State.MemInv.ite h.feSet h

theorem keepsElems_loadOne (e : VEntry) : KeepsElems (loadOne e) := by
  unfold loadOne
  split
  · exact keepsElems_loadRecord e
  · exact keepsElems_loadMarked e
  · exact keepsElems_loadWindow e
  · exact keepsElems_loadFE e
  · exact keepsElems_loadElem e

/-- A run of elements keeps the canonical form, wherever it stops. -/
theorem memInv_runElems {f : Nat → Run → Except Stop Run} (hf : KeepsElems f) (l : List Nat) {r : Run} (h : r.s.MemInv) :
    (runElems f l r).1.s.MemInv := by
  induction l generalizing r with
  | nil => exact h
  | cons i l ih =>
    unfold runElems
    split
    next he => exact ih (hf _ _ _ h he)
    · exact h

theorem State.MemInv.storeValues {s : State} {e n vs a} (h : s.MemInv) {s'} (hr : storeValues e n vs a s = .ok s') : s'.MemInv := by
  induction vs generalizing a s with
  | nil =>
    cases hr
    exact h
  | cons v vs ih =>
    unfold Machine.storeValues at hr
    split at hr
    · cases hr
    next he => exact ih (h.write he) hr

theorem keepsElems_storeElem (e : VEntry) (vl : Nat) : KeepsElems (storeElem e vl) := by
  intro i r r' h hr
  unfold storeElem at hr
  dsimp only at hr
  split at hr
  · cases hr
  next he =>
    have hs := h.storeValues he
    split at hr
    · split at hr
      · cases hr
        exact hs.feSet
      · cases hr
        exact hs
    · cases hr
      exact hs

theorem keepsElems_loadSuper (e : VEntry) (vl : Nat) : KeepsElems (loadSuper e vl) := by
  intro i r r' h hr
  unfold loadSuper at hr
  dsimp only at hr
  split at hr
  · cases hr
  next he =>
    split at hr
    · cases hr
    next he2 =>
      cases hr
      have hs := (h.read he).read he2
      exact hs

theorem keepsElems_storeSuper (e : VEntry) (vl : Nat) : KeepsElems (storeSuper e vl) := by
  intro i r r' h hr
  unfold storeSuper at hr
  dsimp only at hr
  split at hr
  · cases hr
  next he =>
    split at hr
    · cases hr
    next he2 =>
      cases hr
      exact (h.write he).write he2

/-- A check reads nothing and writes nothing. -/
theorem eq_of_checkSuper {e : VEntry} {vl k : Nat} {r r' : Run} (hr : checkSuper e vl k r = .ok r') : r' = r := by
  unfold checkSuper at hr
  dsimp only at hr
  split at hr
  · cases hr
  · split at hr
    · cases hr
    · cases hr
      rfl

theorem memInv_runSuper {e : VEntry} {lo hi : Nat} {r : Run} (h : r.s.MemInv) : (runSuper e lo hi r).1.s.MemInv := by
  unfold runSuper
  dsimp only
  split
  · exact memInv_runElems (keepsElems_loadSuper e e.vl) _ h
  · refine memInv_runElems (fun k r r' h hr => ?_) _ h
    split at hr
    · cases hr
    next he =>
      rw [eq_of_checkSuper he] at hr
      exact keepsElems_storeSuper e e.vl k r r' h hr

theorem memInv_runLoad {e : VEntry} {lo hi : Nat} {r : Run} (h : r.s.MemInv) : (runLoad e lo hi r).1.s.MemInv := by
  have hrun := memInv_runElems (keepsElems_loadOne e) (r.s.active e lo hi) h
  unfold runLoad
  dsimp only
  split
  · exact memInv_runSuper h
  · split
    · split
      · exact hrun
      · exact hrun
    · exact hrun

theorem memInv_runStore {e : VEntry} {lo hi : Nat} {r : Run} (h : r.s.MemInv) : (runStore e lo hi r).1.s.MemInv := by
  unfold runStore
  split
  · exact memInv_runSuper h
  · extract_lets act chk todo src x
    have hrun : x.1.s.MemInv := memInv_runElems (keepsElems_storeElem e e.vl) _ h
    split
    · exact hrun
    · exact hrun

/-! ### The Press -/

theorem memInv_of_emitAt {e : VEntry} {reg a v : Nat} {r r' : Run} (h : r.s.MemInv) (hr : emitAt e reg a v r = .ok r') : r'.s.MemInv := by
  unfold emitAt at hr
  split at hr
  · cases hr
  · cases hr
    exact h

theorem keepsElems_updElem (e : VEntry) : KeepsElems (updElem e) := by
  intro i r r' h hr
  unfold updElem at hr
  dsimp only at hr
  split at hr
  · cases hr
  · split at hr
    · cases hr
    · exact memInv_of_emitAt h hr

theorem keepsElems_updaElem (e : VEntry) : KeepsElems (updaElem e) := by
  intro i r r' h hr
  unfold updaElem at hr
  dsimp only at hr
  split at hr
  · cases hr
  · split at hr
    · cases hr
    · exact memInv_of_emitAt h hr

theorem memInv_runUpd {e : VEntry} {lo hi : Nat} {r : Run} (h : r.s.MemInv) : (runUpd e lo hi r).1.s.MemInv := by
  unfold runUpd
  split
  · exact memInv_runElems (keepsElems_updElem e) _ h
  · exact memInv_runElems (keepsElems_updaElem e) _ h

theorem memInv_runUacc {e : VEntry} {per lo hi : Nat} {r : Run} (h : r.s.MemInv) : (runUacc e per lo hi r).1.s.MemInv := by
  unfold runUacc
  split
  · exact h
  · exact h

theorem keepsElems_mergeElem (e : VEntry) : KeepsElems (mergeElem e) := by
  intro i r r' h hr
  unfold mergeElem at hr
  dsimp only at hr
  split at hr
  · cases hr
    exact h
  · split at hr
    · cases hr
    · split at hr
      · cases hr
      next he =>
        split at hr
        · cases hr
        next he2 =>
          cases hr
          have hs := (h.read he).write he2
          exact hs

theorem memInv_runUmerge {e : VEntry} {lo hi : Nat} {r : Run} (h : r.s.MemInv) : (runUmerge e lo hi r).1.s.MemInv :=
  memInv_runElems (keepsElems_mergeElem e) _ h

theorem State.MemInv.readBytes {s : State} {va n} (h : s.MemInv) {r s'} (hr : s.readBytes va n = .ok (r, s')) : s'.MemInv := by
  unfold State.readBytes at hr
  split at hr
  · cases hr
  · split at hr
    · cases hr
    next he =>
      cases hr
      exact h.read he

theorem State.MemInv.uwin {s : State} {xa} (h : s.MemInv) : (s.uwin xa).MemInv := by
  unfold State.uwin
  split
  · trivial
  · split
    · trivial
    next he =>
      have hs := h.readBytes he
      split
      · trivial
      · exact .ite trivial (.ite hs hs)

theorem State.MemInv.uwinRel {s : State} (h : s.MemInv) : s.uwinRel.MemInv :=
  .ite h h

/-- A walk of a region's extent that stops answers a trap, and no state. -/
theorem memInv_of_regionFrames {s : State} {n va : Nat} {x : XRes} (hx : s.regionFrames n va = .inl x) : x.MemInv := by
  induction n generalizing va with
  | zero => cases hx
  | succ n ih =>
    unfold State.regionFrames at hx
    split at hx
    · cases hx
      trivial
    · split at hx
      · cases hx
        trivial
      · split at hx
        next he =>
          cases hx
          exact ih he
        · cases hx

theorem State.MemInv.uregion {s : State} {xa} (h : s.MemInv) : (s.uregion xa).MemInv := by
  unfold State.uregion
  dsimp only
  split
  · trivial
  · split
    · trivial
    next he =>
      have hs := h.readBytes he
      split
      · trivial
      · split
        · trivial
        · split
          next he2 => exact memInv_of_regionFrames he2
          · split
            · exact hs
            · split
              · exact hs
              · exact hs

theorem State.MemInv.freeRegion {s : State} {r} (h : s.MemInv) : (s.freeRegion r).MemInv :=
  h.applyKeys

theorem State.MemInv.uregionRel {s : State} {r} (h : s.MemInv) : (s.uregionRel r).MemInv := by
  unfold State.uregionRel
  split
  · exact h
  · exact .ite trivial h.freeRegion

theorem State.MemInv.execPressAccept {s : State} {p n seq k} (h : s.MemInv) : Out.MemInv (execPressAccept p n seq k s) := by
  unfold Machine.execPressAccept
  split
  · split
    · split
      · exact State.MemInv.acceptPair h
      · exact h
    · exact h
  · exact h

theorem State.MemInv.execEagerApply {s : State} {r pa} (h : s.MemInv) : Out.MemInv (execEagerApply r pa s) := by
  unfold Machine.execEagerApply
  split
  · exact State.MemInv.ite h.applyKeys h
  · exact h

theorem State.MemInv.execUpdComplete {s : State} {p n seq} (h : s.MemInv) : Out.MemInv (execUpdComplete p n seq s) := by
  unfold Machine.execUpdComplete
  split
  · split
    · exact h
    · exact h
  · exact h

theorem State.MemInv.execUflushComplete {s : State} {p n seq} (h : s.MemInv) : Out.MemInv (execUflushComplete p n seq s) := by
  unfold Machine.execUflushComplete
  split
  · split
    · exact State.MemInv.ite h h.applyKeys
    · exact h
  · exact h

theorem State.MemInv.execRegionReleaseApply {s : State} {p} (h : s.MemInv) : Out.MemInv (execRegionReleaseApply p s) := by
  unfold Machine.execRegionReleaseApply
  split
  · refine State.MemInv.asPlane h fun t ht => ?_
    split
    next he =>
      have hs := ht.uregionRel.done he
      exact hs
    · exact ht
  · exact h

/-! ### The vector queue -/

theorem State.MemInv.consume {s : State} {e tv} (h : s.MemInv) {s'} (hr : s.consume e tv = some s') : s'.MemInv := by
  unfold State.consume at hr
  refine memInv_of_foldl_bind (fun t ht => ?_) (fun t k t' ht htk => ?_) hr
  · cases ht
    exact h
  · split at htk
    · cases htk
      exact ht
    · split at htk
      · cases htk
        exact ht
      · obtain ⟨xs, _, rfl⟩ := Option.map_eq_some_iff.1 htk
        exact ht

theorem State.MemInv.contribute {s : State} {e dst} (h : s.MemInv) : (s.contribute e dst).MemInv := by
  refine h.foldl fun t k ht => ?_
  split
  · exact ht
  · split
    · exact ht
    · exact ht.modPlane

theorem State.MemInv.vtrap {s : State} {cause tval entries} (h : s.MemInv) : (s.vtrap cause tval entries).MemInv :=
  .takeTrap (.ite h h)

theorem State.MemInv.vcomplete {s : State} {e} (h : s.MemInv) : (s.vcomplete e).MemInv :=
  .ite h (.vtrap h)

theorem State.MemInv.vstop {s : State} {left moved why} (h : s.MemInv) : (s.vstop left moved why).MemInv := by
  unfold State.vstop
  split
  · exact .ite h trivial
  · exact .ite h trivial
  · exact State.MemInv.vtrap h
  · exact State.MemInv.vtrap h
  · exact State.MemInv.vtrap h
  · exact State.MemInv.endCohort h

theorem State.MemInv.runComputeHead {s : State} {e pl whole budget} (h : s.MemInv) : (s.runComputeHead e pl whole budget).MemInv :=
  .ite (State.MemInv.vcomplete (.contribute h)) h

theorem State.MemInv.trackRange {s : State} {e} (h : s.MemInv) {s'} (hr : s.trackRange e = some s') : s'.MemInv := by
  unfold State.trackRange at hr
  dsimp only at hr
  split at hr
  · cases hr
    exact h
  · split at hr
    · cases hr
      exact h
    · split at hr
      · cases hr
        exact h
      · cases hr

theorem State.MemInv.runElemsHead {s0 s : State} {e pl bound budget} (h : s0.MemInv) (h1 : s.MemInv) :
    (s0.runElemsHead s e pl bound budget).MemInv := by
  unfold State.runElemsHead
  extract_lets p t per groups total lo hi r0 x e' after stop
  have hx : x.1.s.MemInv := by
    unfold x
    split
    · exact memInv_runLoad h1
    · exact memInv_runStore h1
    · split
      · exact memInv_runUacc h1
      · exact memInv_runUmerge h1
      · exact memInv_runUpd h1
  have hafter : after.MemInv := hx
  have hstop (k why) : (stop k why).MemInv := .ite h.vstop hafter.vstop
  split
  · exact hstop _ _
  · split
    · exact hafter
    · split
      · split
        next he => exact (hafter.trackRange he).contribute.vcomplete
        · exact hstop _ _
      · split
        · exact .vcomplete hafter
        · exact hafter.contribute.vcomplete

theorem State.MemInv.watched {s : State} {e l} (h : s.MemInv) {r s'} (hr : s.watched e l = .ok (r, s')) : s'.MemInv := by
  induction l generalizing s r s' with
  | nil =>
    cases hr
    exact h
  | cons i l ih =>
    unfold State.watched at hr
    dsimp only at hr
    split at hr
    · cases hr
    next he =>
      split at hr
      · cases hr
      next he2 =>
        cases hr
        exact ih (h.read he) he2

theorem State.MemInv.endGcsleep {s : State} {e on} (h : s.MemInv) : (s.endGcsleep e on).MemInv :=
  .vcomplete h

theorem State.MemInv.runGcsleep {s0 s : State} {e} (h : s0.MemInv) (h1 : s.MemInv) : (s0.runGcsleep s e).MemInv := by
  unfold State.runGcsleep
  dsimp only
  split
  · exact h1.endGcsleep
  · split
    · trivial
    · split
      · exact h.vstop
      · split
        · exact h.vstop
        next he =>
          have hs := h1.watched he
          split
          · exact hs.endGcsleep
          · exact hs

theorem State.MemInv.vturn {s : State} {budget} (h : s.MemInv) : (s.vturn budget).MemInv := by
  unfold State.vturn
  dsimp only
  split
  · trivial
  · split
    · exact h.vtrap
    · split
      · trivial
      next he =>
        have hs := h.consume he
        split
        · exact h.runElemsHead hs
        · exact h.runElemsHead hs
        · exact .ite (State.MemInv.vcomplete hs) (h.runElemsHead hs)
        · exact h.runGcsleep hs
        · exact hs.runComputeHead

theorem State.MemInv.watchPlane {s : State} {lines p} (h : s.MemInv) : (s.watchPlane lines p).MemInv := by
  unfold State.watchPlane
  extract_lets s1
  split
  · exact h
  · extract_lets tv
    split
    · exact h
    · split
      · exact h
      next s2 he =>
        have hs2 : s2.MemInv := State.MemInv.consume (s := s1) h he
        extract_lets act written
        split
        · exact h
        · split
          · exact h.modPlane
          next s3 he2 =>
            extract_lets s4
            have hs4 : s4.MemInv := (hs2.watched he2 : s3.MemInv)
            split
            · exact hs4.modPlane
            · exact hs4

theorem State.MemInv.watchRounds {s : State} {n} (h : s.MemInv) : (s.watchRounds n).MemInv := by
  induction n generalizing s with
  | zero => exact h
  | succ n ih =>
    unfold State.watchRounds
    split
    · exact h
    · exact ih (.foldl h fun _ _ h => h.watchPlane)

theorem State.MemInv.watch {s : State} (h : s.MemInv) : s.watch.MemInv :=
  .ite h (.watchRounds h)

theorem State.MemInv.drain {s : State} {n} (h : s.MemInv) : (s.drain n).MemInv := by
  induction n generalizing s with
  | zero => exact h
  | succ n ih =>
    unfold State.drain
    split
    · exact h
    next he =>
      have hs := h.vturn.went he
      exact .ite hs (ih hs.watch)

theorem State.MemInv.keepUp {s : State} (h : s.MemInv) : s.keepUp.MemInv :=
  .ite h h.drain

theorem State.MemInv.vcheck {s : State} {e k} (h : s.MemInv) (hk : ∀ x0, (k x0).MemInv) : (s.vcheck e k).MemInv := by
  unfold State.vcheck
  dsimp only
  split
  · exact h.illInsn
  · exact h.illOp
  · exact .ite h.illOp (.ite h.illInsn (hk _))

theorem State.MemInv.takeSeq {s : State} {e} (h : s.MemInv) : (s.takeSeq e).1.MemInv := by
  unfold State.takeSeq
  split
  · exact h
  · exact h

theorem State.MemInv.vissue {s : State} {w pfx len} (h : s.MemInv) : (s.vissue w pfx len).MemInv :=
  h.vcheck fun _ => .ite h (.keepUp h.takeSeq)

theorem State.MemInv.retX {s : State} {d : XReg} {v n} (h : s.MemInv) : (s.retX d v n).MemInv :=
  h

theorem State.MemInv.vissueX {s : State} {w f busy} (h : s.MemInv) (hf : ∀ e t, t.MemInv → (f e t).MemInv) :
    (s.vissueX w f busy).MemInv := by
  refine h.vcheck fun pl => ?_
  split
  · exact h
  · split
    · exact h
    next s' he =>
      have hs : s'.MemInv := h.consume he
      extract_lets took
      have htook (t : State) (ht : t.MemInv) : (took t).MemInv := ht.modPlane
      split
      next he2 => exact .retX (.contribute (htook _ ((hf _ _ hs).done he2)))
      · exact .vtrap (htook _ h)
      · exact .vtrap (htook _ h)
      · exact h.endCohort
      · exact h
      · exact .vtrap (htook _ h)
      · exact h

theorem State.MemInv.vissueToX {s : State} {w} (h : s.MemInv) : (s.vissueToX w).MemInv :=
  h.vissueX fun _ _ h => h

theorem State.MemInv.vectorTurn {s : State} {p groups} (h : s.MemInv) : (s.vectorTurn p groups).MemInv := by
  refine .ite (h.asPlane fun t ht => .ite ht.drain ?_) h
  split
  · exact ht
  next he => exact ht.vturn.went he

/-! ### The copy engine -/

theorem State.MemInv.engineRead {s : State} {xl vas} (h : s.MemInv) {r s'} (hr : s.engineRead xl vas = some (r, s')) : s'.MemInv := by
  unfold State.engineRead at hr
  dsimp only at hr
  split at hr
  · cases hr
  · split at hr
    · cases hr
    · cases hr
      exact h.pressTouch

theorem State.MemInv.engineWrite {s : State} {xl vas bs} (h : s.MemInv) {s'} (hr : s.engineWrite xl vas bs = some s') : s'.MemInv := by
  unfold State.engineWrite at hr
  split at hr
  · cases hr
  · split at hr
    · cases hr
    · cases hr
      exact h.pressTouch.writePlaces.foldl fun _ _ h => .ite h h.feSet

theorem State.MemInv.unitWrite {s : State} {xl vas bs} (h : s.MemInv) {s'} (hr : s.unitWrite xl vas bs = some s') : s'.MemInv := by
  unfold State.unitWrite at hr
  split at hr
  · cases hr
  · split at hr
    · cases hr
    · cases hr
      exact h.pressTouch.writePlaces

theorem State.MemInv.partialCount {s : State} {n} (h : s.MemInv) : (s.partialCount n).2.MemInv :=
  h

theorem State.MemInv.unaliased {s : State} {xl dst src bs} (h : s.MemInv) : (s.unaliased xl dst src bs).2.MemInv := by
  unfold State.unaliased
  dsimp only
  split
  · split
    · exact h
    · exact h
  · exact h

theorem State.MemInv.engineMove {s : State} {xl dst src ext} (h : s.MemInv) : (s.engineMove xl dst src ext).MemInv := by
  unfold State.engineMove
  dsimp only
  split
  next he =>
    have hs := h.engineRead he
    exact hs.unaliased.getD fun _ he => hs.unaliased.engineWrite he
  · split
    next he =>
      have hs := h.partialCount.engineRead he
      exact hs.unaliased.getD fun _ he => hs.unaliased.engineWrite he
    · exact h.partialCount

theorem State.MemInv.copyJob {s : State} {xl job} (h : s.MemInv) : (s.copyJob xl job).MemInv := by
  unfold State.copyJob
  split
  · exact h.engineMove
  · exact h.engineMove
  · dsimp only
    split
    next he _ =>
      have hs := h.engineWrite he
      exact .ite hs.zeroBlocks hs
    · exact h
  · split
    · exact h
    next he =>
      have hs := h.engineRead he
      dsimp only
      split
      · exact hs.unaliased
      next he2 => exact .getD (hs.unaliased.engineWrite he2) fun _ he3 => (hs.unaliased.engineWrite he2).engineWrite he3
  · split
    · exact h
    next he =>
      have hs := h.engineRead he
      exact hs.unaliased.getD fun _ he2 => hs.unaliased.engineWrite he2
  · split
    · exact h
    next he =>
      have hs := h.engineRead he
      exact ⟨hs.1, Memory.wf_write _ _ _ hs.2⟩
  · exact h.getD fun _ he => h.engineWrite he

theorem State.MemInv.copyIssue {s : State} {w n walks ok job} (h : s.MemInv) : (copyIssue w n walks ok job s).MemInv := by
  unfold Machine.copyIssue
  split
  · exact h.memTrap
  · exact .ite h.illOp (.ite h h)

theorem State.MemInv.execXcopyt {s : State} {d a b z n} (h : s.MemInv) : Out.MemInv (execXcopyt d a b z n s) := by
  unfold Machine.execXcopyt
  split
  · exact h.illOp
  · split
    · exact h.memTrap
    next he => exact State.MemInv.ite h.illOp ((h.readBytes he).copyIssue)

theorem State.MemInv.withTensor {s : State} {w a k} (h : s.MemInv) (hk : ∀ x0 x1 t, t.MemInv → (k x0 x1 t).MemInv) :
    (withTensor w a s k).MemInv := by
  unfold Machine.withTensor
  dsimp only
  split
  · exact h.illOp
  · split
    · exact h.memTrap
    next he =>
      split
      · exact h.illOp
      · split
        · exact h.illOp
        · split
          · exact h.memTrap
          next he2 => exact .ite h.illOp (hk _ _ _ ((h.readBytes he).readBytes he2))

theorem State.MemInv.opXhost {s : State} {w d a b n toh} (h : s.MemInv) : (opXhost w d a b n toh s).MemInv := by
  unfold Machine.opXhost
  dsimp only
  split
  · exact h.illOp
  · exact .ite h.illOp h.copyIssue

theorem State.MemInv.execCopyComplete {s : State} {p n seq} (h : s.MemInv) : Out.MemInv (execCopyComplete p n seq s) := by
  unfold Machine.execCopyComplete
  split
  · split
    · exact h.copyJob
    · exact h
  · exact h

/-! ### Runs of stream programs -/

theorem State.MemInv.unitReads {s : State} {xl ass} (h : s.MemInv) {r s'} (hr : s.unitReads xl ass = some (r, s')) : s'.MemInv := by
  induction ass generalizing s r s' with
  | nil =>
    cases hr
    exact h
  | cons as rest ih =>
    unfold State.unitReads at hr
    split at hr
    · cases hr
    next he =>
      split at hr
      · cases hr
      next he2 =>
        cases hr
        exact ih (h.engineRead he) he2

theorem State.MemInv.fireIn {s : State} {p n seq r m c slot} (h : s.MemInv) : (s.fireIn p n seq r m c slot).MemInv := by
  unfold State.fireIn
  split
  · extract_lets rel tile parts grans mine byte data
    have hdata (bss s1) (he : data = some (bss, s1)) : s1.MemInv := by
      unfold data at he
      split at he
      · cases he
        exact h
      · exact h.unitReads he
    clear_value data
    refine .ite h (.ite h ?_)
    split
    · exact h
    · have hs1 := hdata _ _ rfl
      split
      · exact hs1
      next he =>
        have hs2 := hs1.unitReads he
        exact hs2
  · exact h

theorem State.MemInv.fireNode {s : State} {p n seq r m c k} (h : s.MemInv) : (s.fireNode p n seq r m c k).MemInv := by
  unfold State.fireNode
  split
  · exact .ite h (.ite h h)
  · exact h

theorem State.MemInv.portWrites {s : State} {r d t c fr parts} (h : s.MemInv) {v s'} (hr : s.portWrites r d t c fr parts = some (s', v)) :
    s'.MemInv := by
  induction parts generalizing s v s' with
  | nil =>
    cases hr
    exact h
  | cons x rest ih =>
    unfold State.portWrites at hr
    dsimp only at hr
    split at hr
    · exact ih h hr
    · split at hr
      · cases hr
      next he =>
        split at hr
        next he2 _ =>
          have hs := (h.unitWrite he).unitWrite he2
          obtain ⟨z, hz, hz'⟩ := Option.map_eq_some_iff.1 hr
          cases hz'
          exact ih (.ite (hs.foldl fun _ _ h => .ite h h.feSet) hs) hz
        · cases hr

theorem State.MemInv.fireOut {s : State} {p n seq r m c slot} (h : s.MemInv) : (s.fireOut p n seq r m c slot).MemInv := by
  unfold State.fireOut
  dsimp only
  split
  · split
    · exact h
    · split
      · exact h
      next he =>
        have hs := h.portWrites he
        exact hs
  · exact h

theorem State.MemInv.execNodeFire {s : State} {p n seq u} (h : s.MemInv) : Out.MemInv (execNodeFire p n seq u s) := by
  unfold Machine.execNodeFire
  split
  · exact h
  · split
    · exact h
    · split
      · exact h.fireNode
      · exact h.fireIn
      · exact h.fireOut

theorem State.MemInv.execInputPortFeRead {s : State} {p n seq slot g} (h : s.MemInv) : Out.MemInv (execInputPortFeRead p n seq slot g s) := by
  unfold Machine.execInputPortFeRead
  dsimp only
  split
  · exact h
  · split
    · exact h
    · split
      · split
        · exact h
        · split
          · exact h
          · split
            · exact h
            · split
              · exact h
              · split
                · exact h
                next he => exact State.MemInv.ite ((h.engineRead he).feSet) (h.engineRead he)
      · exact h

theorem State.MemInv.execSectionRunComplete {s : State} {p n seq} (h : s.MemInv) : Out.MemInv (execSectionRunComplete p n seq s) := by
  unfold Machine.execSectionRunComplete
  split
  · exact h
  · split
    · exact h
    · exact State.MemInv.ite h h

/-! ### Stream programs -/

theorem State.MemInv.execSload {s : State} {a n} (h : s.MemInv) : Out.MemInv (execSload a n s) := by
  unfold Machine.execSload
  dsimp only
  split
  · exact h.trap
  · split
    · exact h.memTrap
    next he =>
      have hs := h.readBytes he
      split
      · exact h.illOp
      · split
        · exact h.memTrap
        next he2 =>
          have hs2 := h.readBytes he2
          split
          · exact h.illOp
          · exact State.MemInv.ite h.trap (.ite h.illOp (.ite h hs2))

theorem State.MemInv.execSloadInstall {s : State} {p} (h : s.MemInv) : Out.MemInv (execSloadInstall p s) := by
  unfold Machine.execSloadInstall
  split
  · split
    · exact State.MemInv.ite h h
    · exact h
  · exact h

theorem State.MemInv.execTwload {s : State} {a b n} (h : s.MemInv) : Out.MemInv (execTwload a b n s) := by
  unfold Machine.execTwload
  split
  · exact h.illOp
  · split
    · exact h.illOp
    · split
      · exact h.illOp
      · split
        · exact h.memTrap
        next he =>
          have hs := h.readBytes he
          exact State.MemInv.ite h.illOp (.ite h hs)

theorem State.MemInv.execTwloadApply {s : State} {p} (h : s.MemInv) : Out.MemInv (execTwloadApply p s) := by
  unfold Machine.execTwloadApply
  split
  · split
    · exact State.MemInv.ite h h
    · exact h
  · exact h

theorem State.MemInv.execSport {s : State} {a b} (h : s.MemInv) : Out.MemInv (execSport a b s) := by
  unfold Machine.execSport
  dsimp only
  split
  · exact h.illOp
  · split
    · exact h.illOp
    · split
      · exact h.illOp
      · split
        · exact h.illOp
        · split
          · exact h.memTrap
          next he =>
            have hs := h.readBytes he
            split
            · exact h.illOp
            · exact hs

theorem State.MemInv.execSarm {s : State} {d a b n} (h : s.MemInv) : Out.MemInv (execSarm d a b n s) := by
  unfold Machine.execSarm
  dsimp only
  split
  · exact h.illOp
  · split
    · exact h.illOp
    · split
      · exact h.memTrap
      · exact State.MemInv.ite h.illOp (.ite h h)

theorem State.MemInv.execSgrow {s : State} {a g} (h : s.MemInv) : Out.MemInv (execSgrow a g s) := by
  unfold Machine.execSgrow
  split
  · exact h.illOp
  · exact State.MemInv.ite h.illOp h

theorem State.MemInv.modcfgWait {s : State} {q roots} (h : s.MemInv) : (modcfgWait q roots s).MemInv :=
  .ite h h

theorem State.MemInv.execModcfg {s : State} {a} (h : s.MemInv) : Out.MemInv (execModcfg a s) := by
  unfold Machine.execModcfg
  split
  · exact h.modcfgWait
  · split
    · exact h.illOp
    · split
      · exact h.memTrap
      next he =>
        split
        · exact h.illOp
        · split
          · exact h.memTrap
          next he2 => exact State.MemInv.ite h.illOp (((h.readBytes he).readBytes he2).modcfgWait)

theorem State.MemInv.execModcfgApply {s : State} {p} (h : s.MemInv) : Out.MemInv (execModcfgApply p s) := by
  unfold Machine.execModcfgApply
  split
  · exact h.asPlane fun _ h => h.modcfgWait
  · exact h

theorem State.MemInv.execModchk {s : State} {d a c b} (h : s.MemInv) : Out.MemInv (execModchk d a c b s) := by
  unfold Machine.execModchk
  split
  · exact h
  · exact State.MemInv.ite h h

theorem State.MemInv.execSstat {s : State} {d a} (h : s.MemInv) : Out.MemInv (execSstat d a s) := by
  unfold Machine.execSstat
  split
  · exact h
  · exact h

theorem State.MemInv.stopEnded {s : State} (h : s.MemInv) : s.stopEnded.MemInv :=
  .ite h h

theorem State.MemInv.abandon {s : State} {sec m c} (h : s.MemInv) : (s.abandon sec m c).MemInv := by
  refine h.foldl fun t o ht => ?_
  split
  · exact .ite ht ht
  · exact ht

theorem State.MemInv.execSabort {s : State} {d a} (h : s.MemInv) : Out.MemInv (execSabort d a s) := by
  unfold Machine.execSabort
  split
  · exact h
  · exact State.MemInv.abandon h

theorem State.MemInv.execFabricRelease {s : State} {p} (h : s.MemInv) : Out.MemInv (execFabricRelease p s) := by
  unfold Machine.execFabricRelease
  split
  · exact State.MemInv.ite h (h.asPlane fun _ h => h)
  · exact h

/-! ### The matrix unit -/

theorem State.MemInv.execMgrp {s : State} {d a} (h : s.MemInv) : Out.MemInv (execMgrp d a s) := by
  unfold Machine.execMgrp
  extract_lets w x slot solo rm1 cm1 others zero go
  have hgo (t entry members) : (go t entry members).MemInv := .ite h (.ite h h)
  split
  · exact h.illOp
  · refine State.MemInv.ite h.illOp (.ite (.ite h.illOp (hgo _ _ _)) ?_)
    split
    · exact h.illOp
    · exact .ite h.illOp (hgo _ _ _)

theorem State.MemInv.matIssueThen {s : State} {w n walks job fin} (h : s.MemInv) (hfin : ∀ t, t.MemInv → (fin t).MemInv) :
    (matIssueThen w n walks job fin s).MemInv := by
  unfold Machine.matIssueThen
  split
  · exact h.memTrap
  · split
    · exact h.illOp
    · split
      · exact h
      · split
        · exact h
        · exact hfin _ h

theorem State.MemInv.matIssue {s : State} {w n walks job} (h : s.MemInv) : (matIssue w n walks job s).MemInv :=
  h.matIssueThen fun _ h => h

theorem State.MemInv.withBinding {s : State} {w k} (h : s.MemInv) (hk : ∀ x0, (k x0).MemInv) : (withBinding w s k).MemInv := by
  unfold Machine.withBinding
  split
  · exact h.illOp
  · exact hk _

theorem State.MemInv.execMwload {s : State} {a n} (h : s.MemInv) : Out.MemInv (execMwload a n s) := by
  refine State.MemInv.withBinding h fun b => .ite h.illOp ?_
  split
  · exact h.memTrap
  next he => exact .ite h.illOp (h.readBytes he).matIssue

theorem State.MemInv.execMma {s : State} {a b c n} (h : s.MemInv) : Out.MemInv (execMma a b c n s) := by
  refine State.MemInv.withBinding h fun bd => .ite h.illOp (.ite h.matIssue (.ite h.illOp ?_))
  split
  · exact h.memTrap
  · exact h.matIssue

theorem State.MemInv.execMaccst {s : State} {a b c n} (h : s.MemInv) : Out.MemInv (execMaccst a b c n s) := by
  refine State.MemInv.withBinding h fun bd => ?_
  split
  · exact h.illOp
  · extract_lets walks
    split
    · exact .ite h.matIssue h.illInsn
    · exact h.matIssue

theorem State.MemInv.execMaccld {s : State} {a b c n} (h : s.MemInv) : Out.MemInv (execMaccld a b c n s) := by
  refine State.MemInv.withBinding h fun bd => ?_
  split
  · exact h.illOp
  · exact .ite h.illOp h.matIssue

theorem State.MemInv.execMaload {s : State} {d a b k f n} (h : s.MemInv) : Out.MemInv (execMaload d a b k f n s) := by
  refine State.MemInv.withBinding h fun bd => .ite h.illOp ?_
  split
  · exact h.memTrap
  next s' he =>
    have hs : s'.MemInv := h.readBytes he
    extract_lets q4 src pitch ssrc spitch dst npanel klen size g issue
    have hissue : issue.MemInv := hs.matIssueThen fun _ h => h
    refine .ite h.illOp ?_
    split
    · exact .ite h.memTrap hissue
    · exact hissue

theorem State.MemInv.readRows {s : State} {xl t col klen width row ms} (h : s.MemInv) {r s'}
    (hr : s.readRows xl t col klen width row ms = some (r, s')) : s'.MemInv := by
  induction ms generalizing s r s' with
  | nil =>
    cases hr
    exact h
  | cons m rest ih =>
    unfold State.readRows at hr
    split at hr
    · cases hr
    next he =>
      dsimp only at hr
      split at hr
      · cases hr
      next he2 =>
        cases hr
        exact ih (h.unitReads he) he2

theorem State.MemInv.storeRows {s : State} {xl dst pitch m bss} (h : s.MemInv) {s'} (hr : s.storeRows xl dst pitch m bss = some s') :
    s'.MemInv := by
  induction bss generalizing s m with
  | nil =>
    cases hr
    exact h
  | cons bs rest ih =>
    unfold State.storeRows at hr
    split at hr
    · cases hr
    next he => exact ih (h.unitWrite he) hr

theorem State.MemInv.matLocal {s : State} {p b m} (h : s.MemInv) : (s.matLocal p b m).2.2.MemInv := by
  unfold State.matLocal
  dsimp only
  split
  · exact h
  · split
    · exact h
    · split
      next he =>
        have hs := h.storeRows he
        exact hs
      · exact h
  · split
    · exact h
    next he =>
      have hs := h.unitReads he
      exact hs
  · split
    · exact h
    next he =>
      have hs := h.readRows he
      split
      next he2 _ =>
        have hs2 := hs.unitWrite he2
        exact hs2.zeroBlocks
      · exact hs
  · exact h

theorem State.MemInv.weights {s : State} {t m} (h : s.MemInv) {r s'} (hr : s.weights t m = some (r, s')) : s'.MemInv := by
  unfold State.weights at hr
  dsimp only at hr
  split at hr
  · split at hr
    · cases hr
    next he =>
      cases hr
      exact h.readRows he
  · cases hr

theorem State.MemInv.groupMember {s : State} {members x ord} (h : s.MemInv) : (State.groupMember members x ord s).MemInv := by
  unfold State.groupMember
  dsimp only
  split
  · exact h
  · split
    · exact h
    · split
      · split
        · exact h
        next he =>
          have hs := h.weights he
          exact hs
      · split
        · exact h
        · split
          · exact h
          next he =>
            have hs := h.engineRead he
            exact hs
      · exact h

theorem State.MemInv.execMatrixGroupStart {s : State} {p} (h : s.MemInv) : Out.MemInv (execMatrixGroupStart p s) := by
  unfold Machine.execMatrixGroupStart
  dsimp only
  split
  · split
    · exact h
    · exact State.MemInv.ite h (.ite (h.foldl fun _ _ h => h.groupMember) (h.foldl fun _ _ h => h))
  · exact h

theorem State.MemInv.execMatrixOpComplete {s : State} {p n seq} (h : s.MemInv) : Out.MemInv (execMatrixOpComplete p n seq s) := by
  unfold Machine.execMatrixOpComplete
  split
  · exact h
  · split
    · split
      · exact h
      · split
        · exact h
        · split
          · exact h
          · split
            · exact h
            · exact h.matLocal
    · exact h

theorem State.MemInv.unbind {s : State} {p} (h : s.MemInv) : (s.unbind p).MemInv := by
  unfold State.unbind
  split
  · exact h
  · exact h.foldl fun _ _ h => .ite (h.foldl fun _ _ h => h) h

theorem State.MemInv.execMgrpReleaseDone {s : State} {p} (h : s.MemInv) : Out.MemInv (execMgrpReleaseDone p s) := by
  unfold Machine.execMgrpReleaseDone
  split
  · exact State.MemInv.ite (h.asPlane fun _ h => h.unbind) h
  · exact h

/-! ### Adder graphs -/

theorem State.MemInv.execGload {s : State} {a n} (h : s.MemInv) : Out.MemInv (execGload a n s) := by
  unfold Machine.execGload
  dsimp only
  split
  · exact h.illOp
  · split
    · exact h.memTrap
    next he =>
      have hs := h.readBytes he
      split
      · exact h.illOp
      · split
        · exact h.memTrap
        next he2 =>
          have hs2 := h.readBytes he2
          split
          · exact h.illOp
          · exact State.MemInv.ite h.trap (.ite h.illOp (.ite h hs2))

theorem State.MemInv.execGloadInstall {s : State} {p} (h : s.MemInv) : Out.MemInv (execGloadInstall p s) := by
  unfold Machine.execGloadInstall
  split
  · split
    · exact h
    · exact h
  · exact h

theorem State.MemInv.execGrun {s : State} {d a b n} (h : s.MemInv) : Out.MemInv (execGrun d a b n s) := by
  unfold Machine.execGrun
  dsimp only
  split
  · exact h.illOp
  · split
    · exact h.illOp
    · split
      · exact h.memTrap
      · exact State.MemInv.ite h.illOp (.ite h h)

theorem State.MemInv.graphSteps {s : State} {n r} (h : s.MemInv) : (s.graphSteps n r).1.MemInv := by
  induction n generalizing s r with
  | zero => exact h
  | succ n ih =>
    unfold State.graphSteps
    split
    · exact h
    · dsimp only
      split
      · exact h
      next he =>
        have hs := h.engineRead he
        split
        · exact hs
        next he2 => exact ih (hs.unitWrite he2)

theorem State.MemInv.execGraphRunComplete {s : State} {p n seq k} (h : s.MemInv) : Out.MemInv (execGraphRunComplete p n seq k s) := by
  unfold Machine.execGraphRunComplete
  split
  · exact h
  · split
    · exact State.MemInv.ite h (.ite h.graphSteps h.graphSteps)
    · exact h

theorem State.MemInv.execGraphRelease {s : State} {p} (h : s.MemInv) : Out.MemInv (execGraphRelease p s) := by
  unfold Machine.execGraphRelease
  split
  · exact State.MemInv.ite h (h.asPlane fun _ h => h)
  · exact h

/-! ### Collectives -/

theorem State.MemInv.execCcomm {s : State} {d a} (h : s.MemInv) : Out.MemInv (execCcomm d a s) := by
  unfold Machine.execCcomm
  split
  · exact h.illOp
  · split
    · exact h.memTrap
    next he =>
      have hs := h.readBytes he
      split
      · exact h.illOp
      · split
        · exact h.illOp
        · split
          · exact h.illOp
          · split
            · exact State.MemInv.ite hs hs
            · split
              · exact hs
              · exact hs
              · exact State.MemInv.ite hs hs

theorem State.MemInv.execCstart {s : State} {d a b n} (h : s.MemInv) : Out.MemInv (execCstart d a b n s) := by
  unfold Machine.execCstart
  dsimp only
  split
  · exact h.illOp
  · split
    · exact h.illOp
    · split
      · exact h.memTrap
      next he =>
        have hs := h.readBytes he
        split
        · exact h.illOp
        · split
          · exact h.memTrap
          · exact State.MemInv.ite h.illOp (.ite h hs)

theorem State.MemInv.readyQueues {s : State} (h : s.MemInv) : s.readyQueues.MemInv :=
  .ite h h

theorem State.MemInv.sendChunk {s : State} {c ord} (h : s.MemInv) : (s.sendChunk c ord).MemInv := by
  unfold State.sendChunk
  split
  · exact h
  · extract_lets lo fails sent
    have hsent : sent.MemInv := h
    refine .ite hsent (.foldl hsent fun t p ht => ?_)
    split
    · exact ht
    · refine .ite ht ?_
      split
      · exact ht
      next he =>
        have hs := ht.engineRead he
        exact hs

theorem State.MemInv.sendStream {s : State} {c p k hi} (h : s.MemInv) : (s.sendStream c p k hi).MemInv := by
  unfold State.sendStream
  split
  · exact h
  · exact .ite h (.foldl h fun _ _ h => h)

theorem State.MemInv.execChunkSend {s : State} {die} (h : s.MemInv) : Out.MemInv (execChunkSend die s) := by
  unfold Machine.execChunkSend
  dsimp only
  split
  · exact h
  · split
    · exact h
    · split
      · exact State.MemInv.sendChunk h
      · exact State.MemInv.sendStream h

theorem State.MemInv.execChunkArrival {s : State} {c msg} (h : s.MemInv) : Out.MemInv (execChunkArrival c msg s) := by
  unfold Machine.execChunkArrival
  dsimp only
  split
  · exact h
  · split
    · exact State.MemInv.ite h h
    · exact State.MemInv.ite h h
    · exact h
    · split
      · split
        · exact State.MemInv.ite h h
        · exact h
      · exact h
    · exact State.MemInv.ite h h
    · exact h

theorem State.MemInv.bump {s : State} {xl acnt} (h : s.MemInv) {s'} (hr : s.bump xl acnt = some s') : s'.MemInv := by
  unfold State.bump at hr
  split at hr
  · cases hr
  next he => exact (h.engineRead he).engineWrite hr

theorem State.MemInv.execTileLand {s : State} {p n seq tile} (h : s.MemInv) : Out.MemInv (execTileLand p n seq tile s) := by
  unfold Machine.execTileLand
  split
  · exact h
  · split
    · split
      · exact h
      · split
        · exact h
        · extract_lets es lo hi s1 fail
          refine State.MemInv.ite h ?_
          split
          · exact h
          · have hs1 : s1.MemInv := h
            have hfail : fail.MemInv := h
            split
            · exact hfail
            next s2 he =>
              have hs2 : s2.MemInv := hs1.engineWrite he
              extract_lets cs written
              have hwritten (t) (ht : written = some t) : t.MemInv := by
                unfold written at ht
                split at ht
                · cases ht
                  exact hs2
                · refine memInv_of_foldl_bind (fun u hu => ?_) (fun u x u' hu hux => hu.engineWrite hux) ht
                  cases hu
                  exact hs2
              split
              · exact hfail
              next s3 he2 =>
                obtain ⟨t, ht, hbump⟩ := Option.bind_eq_some_iff.1 he2
                have hs3 : s3.MemInv := by
                  split at hbump
                  · cases hbump
                    exact hwritten _ ht
                  · exact (hwritten _ ht).bump hbump
                exact hs3
    · exact h

theorem State.MemInv.execCbind {s : State} {d a b} (h : s.MemInv) : Out.MemInv (execCbind d a b s) := by
  unfold Machine.execCbind
  extract_lets w num
  refine State.MemInv.ite h.illOp ?_
  split
  · exact h.memTrap
  next he =>
    have hs := h.readBytes he
    refine .ite h ?_
    split
    · exact hs
    · extract_lets rank
      split
      · exact h.illOp
      · extract_lets bad
        refine .ite h.illOp ?_
        split
        · exact hs
        · exact State.MemInv.retX (.ite hs hs)

theorem State.MemInv.opPiece {s : State} {w a b n send} (h : s.MemInv) : (opPiece w a b n send s).MemInv := by
  unfold Machine.opPiece
  dsimp only
  split
  · exact h.illOp
  · split
    · exact h.illOp
    · split
      · exact h.memTrap
      · exact .ite h.illOp (.ite h h)

theorem State.MemInv.execStreamPieceDeliver {s : State} {p k} (h : s.MemInv) : Out.MemInv (execStreamPieceDeliver p k s) := by
  unfold Machine.execStreamPieceDeliver
  split
  · exact h
  · split
    · exact h
    · split
      · exact h
      · split
        · exact h
        · exact h

theorem State.MemInv.dropShut {s : State} {p} (h : s.MemInv) : (s.dropShut p).MemInv :=
  .ite h h

theorem State.MemInv.execCstartComplete {s : State} {p n seq} (h : s.MemInv) : Out.MemInv (execCstartComplete p n seq s) := by
  unfold Machine.execCstartComplete
  split
  · exact h
  · split
    · split
      · exact h
      · split
        · exact h
        · extract_lets fin
          have hfin (st) : (fin st).MemInv := h
          split
          · exact hfin _
          · exact State.MemInv.ite (hfin _) h
    · split
      · exact h
      · refine State.MemInv.ite h (.ite (.dropShut h) ?_)
        split
        · exact h
        next he =>
          have hs := h.engineRead he
          exact hs
    · split
      · exact h
      · refine State.MemInv.ite h (.ite (.dropShut h) ?_)
        split
        · exact h
        · extract_lets taken
          have htaken : taken.MemInv := h.modPlane
          split
          · exact htaken
          next he =>
            have hs := htaken.engineWrite he
            exact hs
    · exact h

theorem State.MemInv.cunbindWait {s : State} {d k} (h : s.MemInv) : (cunbindWait d k s).MemInv := by
  unfold Machine.cunbindWait
  split
  · exact h
  · exact .ite h h

theorem State.MemInv.execCunbind {s : State} {d a} (h : s.MemInv) : Out.MemInv (execCunbind d a s) := by
  unfold Machine.execCunbind
  split
  · exact h.cunbindWait
  · exact State.MemInv.ite h.illOp h.cunbindWait

theorem State.MemInv.execCunbindClose {s : State} {p} (h : s.MemInv) : Out.MemInv (execCunbindClose p s) := by
  unfold Machine.execCunbindClose
  split
  · exact h.asPlane fun _ h => h.cunbindWait
  · exact h

theorem State.MemInv.cfreeWait {s : State} {d num} (h : s.MemInv) : (cfreeWait d num s).MemInv := by
  unfold Machine.cfreeWait
  split
  · exact h
  · exact .ite h h

theorem State.MemInv.execCfree {s : State} {d a} (h : s.MemInv) : Out.MemInv (execCfree d a s) := by
  unfold Machine.execCfree
  split
  · exact h.cfreeWait
  · exact State.MemInv.ite h.illOp h.cfreeWait

theorem State.MemInv.execCfreeWithdraw {s : State} {p} (h : s.MemInv) : Out.MemInv (execCfreeWithdraw p s) := by
  unfold Machine.execCfreeWithdraw
  split
  · exact h.asPlane fun _ h => h.cfreeWait
  · exact h

theorem State.MemInv.stopMember {s : State} {c m streams st} (h : s.MemInv) : (s.stopMember c m streams st).MemInv :=
  .foldl h fun _ _ h => h

theorem State.MemInv.execCcancel {s : State} {d a} (h : s.MemInv) : Out.MemInv (execCcancel d a s) := by
  unfold Machine.execCcancel
  extract_lets num streams shut
  split
  · exact h
  · extract_lets k stopped closed
    have hstopped : stopped.MemInv := h.stopMember
    have hclosed : closed.MemInv := State.MemInv.dropShut (s := stopped.modMe _) hstopped
    exact State.MemInv.retX hclosed

/-! ### Routing -/

theorem State.MemInv.execRtcfg {s : State} {d a} (h : s.MemInv) : Out.MemInv (execRtcfg d a s) := by
  unfold Machine.execRtcfg
  dsimp only
  split
  · exact h.illOp
  · split
    · exact h.memTrap
    next he =>
      have hs := h.readBytes he
      split
      · exact h.illOp
      · split
        · exact h.memTrap
        next he2 =>
          have hs2 := hs.readBytes he2
          split
          · exact h.illOp
          · split
            · exact hs2
            · exact State.MemInv.ite hs2 hs2

theorem State.MemInv.execRtcfgRel {s : State} {d a} (h : s.MemInv) : Out.MemInv (execRtcfgRel d a s) := by
  unfold Machine.execRtcfgRel
  dsimp only
  split
  · exact h
  · exact h

theorem State.MemInv.execRtupd {s : State} {d a b} (h : s.MemInv) : Out.MemInv (execRtupd d a b s) := by
  unfold Machine.execRtupd
  dsimp only
  split
  · exact h.illOp
  · split
    · exact h
    · split
      · exact h.memTrap
      next he =>
        have hs := h.readBytes he
        split
        · exact h.illOp
        · split
          · exact hs
          · split
            · exact hs
            · exact hs

theorem State.MemInv.execRhot {s : State} {d a} (h : s.MemInv) : Out.MemInv (execRhot d a s) := by
  unfold Machine.execRhot
  dsimp only
  split
  · exact h
  · split
    · exact h
    · exact h

theorem State.MemInv.hit {s : State} {k gen id} (h : s.MemInv) : (s.hit k gen id).MemInv := by
  unfold State.hit
  dsimp only
  split
  · split
    · exact h
    · split
      · exact h
      · split
        · exact .ite (.post h) h
        · exact h
  · exact h

theorem State.MemInv.emptyAll {s : State} {ps} (h : s.MemInv) : (s.emptyAll ps).MemInv :=
  h.foldl fun _ _ h => .ite h.feSet h

theorem State.MemInv.execRscfgInbox {s : State} {a b} (h : s.MemInv) : Out.MemInv (execRscfgInbox a b s) := by
  unfold Machine.execRscfgInbox
  extract_lets w x y nslot sz busy
  refine State.MemInv.ite h.illOp (.ite h (.ite h.illOp ?_))
  split
  · exact h.memTrap
  · exact h.memTrap
  · exact h.emptyAll

theorem State.MemInv.opRecv {s : State} {d} (h : s.MemInv) : (opRecv d s).MemInv := by
  unfold Machine.opRecv
  split
  · exact h.illOp
  · exact .ite h h

theorem State.MemInv.execRecvNb {s : State} {d} (h : s.MemInv) : Out.MemInv (execRecvNb d s) := by
  unfold Machine.execRecvNb
  split
  · exact h.illOp
  · exact State.MemInv.ite h h

theorem State.MemInv.execRecvWake {s : State} {p} (h : s.MemInv) : Out.MemInv (execRecvWake p s) := by
  unfold Machine.execRecvWake
  split
  · exact h.asPlane fun _ h => h.opRecv
  · exact h

theorem State.MemInv.execRoute {s : State} {d a b n} (h : s.MemInv) : Out.MemInv (execRoute d a b n s) := by
  unfold Machine.execRoute
  dsimp only
  split
  · exact h.illOp
  · split
    · exact h.memTrap
    next he =>
      have hs := h.readBytes he
      split
      · exact h.illOp
      · split
        · exact h.illOp
        · split
          · exact h.memTrap
          · split
            · exact h.illOp
            · split
              · exact h
              · split
                · exact h
                · exact hs

theorem State.MemInv.putInbox {s : State} {p va bs} (h : s.MemInv) : (s.putInbox p va bs).MemInv := by
  unfold State.putInbox
  split
  · exact h.writePlaces.foldl fun _ _ h => .ite h h.feSet
  · exact h

theorem State.MemInv.putSlot {s : State} {p b k x row} (h : s.MemInv) : (s.putSlot p b k x row).MemInv :=
  h.putInbox.putInbox

theorem State.MemInv.deliver {s : State} {p x row} (h : s.MemInv) : (s.deliver p x row).MemInv := by
  unfold State.deliver
  split
  · exact h
  · exact .modPlane h.putSlot

theorem State.MemInv.deliverAway {s : State} {coh idx p x row} (h : s.MemInv) : (s.deliverAway coh idx p x row).MemInv := by
  unfold State.deliverAway
  split
  · exact h
  · exact h

theorem State.MemInv.clearOut {s : State} {r} (h : s.MemInv) : (s.clearOut r).MemInv := by
  unfold State.clearOut
  dsimp only
  split
  · exact h.writePlaces
  · exact h

theorem State.MemInv.routeRead {s : State} {r va n} (h : s.MemInv) {v s'} (hr : s.routeRead r va n = some (v, s')) : s'.MemInv :=
  h.engineRead hr

theorem State.MemInv.deliverChoice {s : State} {r c p w id ver} (h : s.MemInv) : (s.deliverChoice r c p w id ver).1.MemInv := by
  unfold State.deliverChoice
  split
  · exact h
  next he => exact ((h.routeRead he).deliver).hit

theorem State.MemInv.deliverHeld {s : State} {r p coh idx w id ver} (h : s.MemInv) : (s.deliverHeld r p coh idx w id ver).1.MemInv := by
  unfold State.deliverHeld
  split
  · exact h
  next he => exact ((h.routeRead he).deliverAway).hit

theorem State.MemInv.landAway {s : State} {coh p} (h : s.MemInv) : (s.landAway coh p).MemInv := by
  unfold State.landAway
  extract_lets mine xs landed
  have hlanded : landed.MemInv := h.foldl fun t x ht => by
    split
    · exact ht.putSlot
    · exact ht
  exact hlanded

theorem State.MemInv.placeOne {s : State} {r pick} (h : s.MemInv) : (s.placeOne r pick).MemInv := by
  unfold State.placeOne
  split
  · exact h
  next he =>
    have hs := h.routeRead he
    split
    · exact hs
    · exact hs
    · exact hs.deliverChoice
    · exact hs.deliverHeld
    · exact hs
    · split
      · exact hs
      · split
        · exact hs.deliverChoice
        · exact hs
      · exact hs

theorem State.MemInv.releaseRoute {s : State} {r} (h : s.MemInv) : (s.releaseRoute r).MemInv :=
  .ite h h.clearOut

theorem State.MemInv.execRoutePlacement {s : State} {core e pick} (h : s.MemInv) : Out.MemInv (execRoutePlacement core e pick s) := by
  unfold Machine.execRoutePlacement
  split
  · exact h
  · exact State.MemInv.ite h (.ite h.releaseRoute (.ite h.clearOut (.ite h h.placeOne)))

theorem State.MemInv.execRouteWaitDelivery {s : State} {core e pick} (h : s.MemInv) : Out.MemInv (execRouteWaitDelivery core e pick s) := by
  unfold Machine.execRouteWaitDelivery
  split
  · exact h
  · split
    · exact h
    · split
      · exact h.releaseRoute
      · split
        · exact h
        next he =>
          split
          · exact (h.routeRead he).deliverChoice
          · exact h

theorem State.MemInv.execRouteTimeout {s : State} {core e} (h : s.MemInv) : Out.MemInv (execRouteTimeout core e s) := by
  unfold Machine.execRouteTimeout
  split
  · exact h
  · exact State.MemInv.ite h.releaseRoute h

theorem State.MemInv.execRouteComplete {s : State} {core e} (h : s.MemInv) : Out.MemInv (execRouteComplete core e s) := by
  unfold Machine.execRouteComplete
  split
  · exact h
  · split
    · exact h
    · split
      · exact h.pressTouch.writePlaces
      · exact h

theorem State.MemInv.opRret {s : State} {w a b n} (h : s.MemInv) : (opRret w a b n s).MemInv := by
  unfold Machine.opRret
  dsimp only
  split
  · exact h.illOp
  · split
    · exact h.illOp
    · split
      · exact h.memTrap
      · split
        · exact h.illOp
        · split
          · exact h
          · split
            · exact h.memTrap
            · exact h.emptyAll

theorem State.MemInv.applyReturn {s : State} {r o vals} (h : s.MemInv) : (s.applyReturn r o vals).MemInv := by
  unfold State.applyReturn
  split
  · exact h
  · exact h.writePlaces

theorem State.MemInv.execReturnApply {s : State} {p n seq} (h : s.MemInv) : Out.MemInv (execReturnApply p n seq s) := by
  unfold Machine.execReturnApply
  split
  · exact h
  · split
    · extract_lets bytes late
      have hlate (t) (ht : t.MemInv) : (late t).MemInv := .ite ht.modPlane ht
      split
      · exact h
      next s1 he =>
        have hs1 : s1.MemInv := by
          split at he
          · cases he
            exact h
          · exact h.engineRead he
        refine State.MemInv.ite h ?_
        split
        · exact hlate _ hs1
        · extract_lets s2 r
          have hs2 : s2.MemInv := .ite hs1.releaseRoute hs1
          split
          · exact hlate _ hs2
          · extract_lets s3 r'
            have hs3 : s3.MemInv := .ite hs2 hs2.applyReturn
            exact hs3
    · exact h

/-! ### Cohorts and saved contexts -/

theorem State.MemInv.submit {s : State} {r l} (h : s.MemInv) {v s'} (hr : s.submit r l = some (v, s')) : s'.MemInv := by
  obtain ⟨n, _, hn⟩ := Option.map_eq_some_iff.1 hr
  cases hn
  exact h

theorem State.MemInv.execLaunch {s : State} {d a b n} (h : s.MemInv) : Out.MemInv (execLaunch d a b n s) := by
  unfold Machine.execLaunch
  extract_lets xa st
  have hst (c t) (ht : t.MemInv) : (st c t).MemInv := ht
  refine State.MemInv.ite h (.ite (hst _ _ h) ?_)
  split
  · exact h
  · exact hst _ _ h
  next he =>
    have hs1 := h.readBytes he
    split
    · exact h
    · exact hst _ _ h
    next he2 =>
      have hs2 := hs1.readBytes he2
      split
      · exact hst _ _ hs2
      · extract_lets c
        refine State.MemInv.ite (hst _ _ hs2) ?_
        split
        · exact hst _ _ hs2
        · refine .ite (hst _ _ hs2) (.ite h.illOp ?_)
          split
          · exact hst _ _ hs2
          next he3 =>
            have hs3 := hs2.submit he3
            exact hst _ _ hs3

theorem State.MemInv.putPartition {s : State} {c base size bs full clear} (h : s.MemInv) :
    (s.putPartition c base size bs full clear).MemInv :=
  ⟨Memory.wf_putBlock _ _ h.1, h.2⟩

theorem State.MemInv.resetMarks {s : State} {r} (h : s.MemInv) : (s.resetMarks r).MemInv :=
  h.foldl fun _ _ h => .ite h h

theorem State.MemInv.setPlane {s : State} {p pl} (h : s.MemInv) : (s.setPlane p pl).MemInv :=
  h

theorem State.MemInv.admitCohort {s : State} {k ps bs} (h : s.MemInv) : (s.admitCohort k ps bs).MemInv := by
  unfold State.admitCohort
  extract_lets free grouped marked placed admitted
  have hgrouped : grouped.MemInv := h.foldl fun _ _ h => h
  have hplaced : placed.MemInv := .foldl (s := marked) hgrouped.resetMarks fun _ _ h => .setPlane h.putPartition
  exact hplaced

theorem State.MemInv.execAdmission {s : State} {planes bases} (h : s.MemInv) : Out.MemInv (execAdmission planes bases s) := by
  unfold Machine.execAdmission
  split
  · exact h
  · exact State.MemInv.ite h.admitCohort h

theorem State.MemInv.frameTouched {s : State} {f} (h : s.MemInv) : (s.frameTouched f).MemInv :=
  h.applyKeys

theorem State.MemInv.writeFrame {s : State} {f bs} (h : s.MemInv) : (s.writeFrame f bs).MemInv := by
  unfold State.writeFrame
  extract_lets t
  have ht : t.MemInv := h.frameTouched
  split
  · exact ⟨Memory.wf_putBlock _ _ ht.1, ht.2⟩
  · exact ht.writePlaces

theorem State.MemInv.readFrame {s : State} {va f} (h : s.MemInv) {r s'} (hr : s.readFrame va f = .ok (r, s')) : s'.MemInv := by
  unfold State.readFrame at hr
  cases hp : (s.frameTouched f).readPlaces va f.places with
  | error e =>
    rw [hp] at hr
    cases hr
  | ok bs =>
    rw [hp] at hr
    cases hr
    exact h.frameTouched

theorem State.MemInv.advance {s : State} {n} (h : s.MemInv) : (s.advance n).MemInv :=
  h

theorem State.MemInv.saveTo {s : State} {fs p id ops routes} (h : s.MemInv) : (s.saveTo fs p id ops routes).1.MemInv :=
  .foldl h fun _ _ h => h.writeFrame

theorem State.MemInv.restorePartition {s : State} {id p frames} (h : s.MemInv) : (s.restorePartition id p frames).MemInv :=
  h.putPartition

theorem State.MemInv.restoreOps {s : State} {id qbase ops} (h : s.MemInv) : (s.restoreOps id qbase ops).MemInv :=
  .foldl h fun _ _ h => h

theorem State.MemInv.restore {s : State} {id own e frames} (h : s.MemInv) : (s.restore id own e frames).MemInv :=
  .restoreOps h.restorePartition

theorem State.MemInv.readArea {s : State} {area fs} (h : s.MemInv) {r s'} (hr : s.readArea area fs = .ok (r, s')) : s'.MemInv := by
  suffices ∀ (l : List (Frame × Nat)) (x y : List (List Byte) × State), x.2.MemInv →
      l.foldlM (fun x f => (x.2.readFrame (area + f.2 * 65536) f.1).map fun y => (x.1 ++ [y.1], y.2)) x = .ok y → y.2.MemInv from
    this _ _ _ h hr
  intro l
  induction l with
  | nil =>
    intro x y hx hy
    cases hy
    exact hx
  | cons f l ih =>
    intro x y hx hy
    rw [List.foldlM_cons] at hy
    cases hf : x.2.readFrame (area + f.2 * 65536) f.1 with
    | error e =>
      rw [hf] at hy
      cases hy
    | ok z =>
      rw [hf] at hy
      exact ih _ _ (hx.readFrame hf) hy

theorem State.MemInv.saveStrandTo {s : State} {k p fs} (h : s.MemInv) : (s.saveStrandTo k p fs).MemInv :=
  h.acceptOf.saveTo

theorem State.MemInv.saveStrand {s : State} {k rank p} (h : s.MemInv) {s'} (hr : s.saveStrand k rank p = some s') : s'.MemInv := by
  unfold State.saveStrand at hr
  split at hr
  · cases hr
  · obtain ⟨fs, _, rfl⟩ := Option.map_eq_some_iff.1 hr
    exact h.saveStrandTo

theorem State.MemInv.saveStrands {s : State} {k xs} (h : s.MemInv) {s'} (hr : s.saveStrands k xs = some s') : s'.MemInv :=
  memInv_of_foldlM h (fun _ _ _ ht hu => ht.saveStrand hu) hr

theorem State.MemInv.evict {s : State} {k} (h : s.MemInv) : (s.evict k).MemInv := by
  unfold State.evict
  extract_lets s0
  have hs0 : s0.MemInv := h
  split
  · exact h.endCohort
  next he =>
    have hs := hs0.saveStrands he
    exact hs

theorem State.MemInv.execEviction {s : State} {coh} (h : s.MemInv) : Out.MemInv (execEviction coh s) := by
  unfold Machine.execEviction
  split
  · exact h
  · exact State.MemInv.ite h.evict h

theorem State.MemInv.execConsumerEviction {s : State} {coh} (h : s.MemInv) : Out.MemInv (execConsumerEviction coh s) := by
  unfold Machine.execConsumerEviction
  split
  · exact h
  · exact State.MemInv.ite h.evict h

theorem State.MemInv.restoreFrom {s : State} {k p base rank frames} (h : s.MemInv) {s'} (hr : s.restoreFrom k p base rank frames = some s') :
    s'.MemInv := by
  obtain ⟨e, _, rfl⟩ := Option.map_eq_some_iff.1 hr
  exact h.restore

theorem State.MemInv.restoreStrand {s : State} {k p base rank} (h : s.MemInv) {s'} (hr : s.restoreStrand k p base rank = some s') :
    s'.MemInv := by
  obtain ⟨x, hx, hr⟩ := Option.bind_eq_some_iff.1 hr
  obtain ⟨fs, _, hread⟩ := Option.bind_eq_some_iff.1 hx
  obtain ⟨t, ht, rfl⟩ := Option.map_eq_some_iff.1 hr
  cases he : s.readArea (k.rcd.savearea.toNat + rank * areaSpan) fs with
  | error e =>
    rw [he] at hread
    cases hread
  | ok y =>
    rw [he] at hread
    cases hread
    exact ((h.readArea he).restoreFrom ht).landAway

theorem State.MemInv.restoreStrands {s : State} {k xs} (h : s.MemInv) {s'} (hr : s.restoreStrands k xs = some s') : s'.MemInv :=
  memInv_of_foldlM h (fun _ _ _ ht hu => ht.restoreStrand hu) hr

theorem State.MemInv.resumeCohort {s : State} {k} (h : s.MemInv) : (s.resumeCohort k).MemInv := by
  unfold State.resumeCohort
  split
  · exact h.endCohort
  next he => exact (h.restoreStrands he).foldl fun _ _ h => h

theorem State.MemInv.execResumption {s : State} {coh} (h : s.MemInv) : Out.MemInv (execResumption coh s) := by
  unfold Machine.execResumption
  split
  · exact h
  · exact State.MemInv.ite h.resumeCohort h

theorem State.MemInv.spoil {s : State} {area} (h : s.MemInv) : (s.spoil area).MemInv := by
  refine h.foldl fun t k ht => ?_
  split
  · exact ht.writeFrame
  · exact ht

theorem State.MemInv.execCtxsv {s : State} {a} (h : s.MemInv) : Out.MemInv (execCtxsv a s) := by
  refine State.MemInv.atS h fun t ht => .ite ht.illOp (.ite ht ?_)
  split
  · exact .ite ht.spoil.memTrap ht
  · refine .ite ht.memTrap ?_
    split
    · exact ht.memTrap
    · refine .ite ht ?_
      exact .advance (.saveTo ht.acceptOf)

theorem State.MemInv.execCtxld {s : State} {a} (h : s.MemInv) : Out.MemInv (execCtxld a s) := by
  refine State.MemInv.atS h fun t ht => .ite ht.illOp (.ite ht ?_)
  split
  · exact ht.memTrap
  · split
    · exact ht.memTrap
    next s1 he =>
      have hs1 : s1.MemInv := ht.readArea he
      extract_lets first
      refine .ite ht.illOp ?_
      split
      · exact ht.trap
      · extract_lets others
        split
        · exact hs1.restore
        · exact ht

theorem State.MemInv.withdrawAll {s : State} {k} (h : s.MemInv) : (s.withdrawAll k).MemInv :=
  h.foldl fun _ _ h => h.foldl fun _ _ h => .ite h.stopMember h

theorem State.MemInv.retire {s : State} {k} (h : s.MemInv) : (s.retire k).MemInv :=
  .report (.foldl (.withdrawAll (h.foldl fun _ _ h => h.freeRegion)) fun _ _ h => h.unbind)

theorem State.MemInv.execRetirement {s : State} {coh} (h : s.MemInv) : Out.MemInv (execRetirement coh s) := by
  unfold Machine.execRetirement
  split
  · exact h
  · exact State.MemInv.ite h.retire h

/-! ### The host -/

theorem State.MemInv.respond {s : State} {num req status data} (h : s.MemInv) : (s.respond num req status data).MemInv :=
  h.nextSeq

theorem State.MemInv.command {s : State} {e sup f} (h : s.MemInv) (hf : ∀ x0 t, t.MemInv → (f x0 t).2.2.MemInv) :
    (State.command e sup f s).MemInv := by
  unfold State.command
  split
  · exact h
  · split
    · exact h
    · split
      · split
        · exact h
        · exact h
      · exact .ite (.respond h) (.respond (hf _ _ h))

theorem State.MemInv.windowRead {s : State} {key off n} (h : s.MemInv) {r s'} (hr : s.windowRead key off n = some (r, s')) : s'.MemInv := by
  unfold State.windowRead at hr
  dsimp only at hr
  split at hr
  · cases hr
  · split at hr
    · cases hr
    · cases hr
      exact h.pressTouch

theorem State.MemInv.execRdmaWrite {s : State} {key off data} (h : s.MemInv) : Out.MemInv (execRdmaWrite key off data s) := by
  unfold Machine.execRdmaWrite
  split
  · exact h
  · exact State.MemInv.ite h h.pressTouch.writePlaces

theorem State.MemInv.execRdmaRead {s : State} {key off len} (h : s.MemInv) : Out.MemInv (execRdmaRead key off len s) := by
  unfold Machine.execRdmaRead
  split
  · exact h
  next he =>
    have hs := h.windowRead he
    exact hs

theorem State.MemInv.execMapwin {s : State} {env num root base len r w} (h : s.MemInv) :
    Out.MemInv (execMapwin env num root base len r w s) := by
  refine State.MemInv.command h fun x t ht => ?_
  split
  · exact ht
  · exact ht

theorem State.MemInv.execUnmapwin {s : State} {env num} (h : s.MemInv) : Out.MemInv (execUnmapwin env num s) := by
  refine State.MemInv.command h fun x t ht => ?_
  split
  · exact ht
  · exact ht

theorem State.MemInv.execRegion {s : State} {env num key base len toh fromh} (h : s.MemInv) :
    Out.MemInv (execRegion env num key base len toh fromh s) := by
  refine State.MemInv.command h fun x t ht => ?_
  split
  · exact ht
  · exact ht

theorem State.MemInv.execUnregion {s : State} {env num} (h : s.MemInv) : Out.MemInv (execUnregion env num s) := by
  refine State.MemInv.command h fun x t ht => ?_
  split
  · exact ht
  · exact ht

theorem State.MemInv.execLaunchCommand {s : State} {env key off} (h : s.MemInv) : Out.MemInv (execLaunchCommand env key off s) := by
  refine State.MemInv.command h fun x t ht => ?_
  extract_lets no
  have hno (st t) (ht : t.MemInv) : (no st t).2.2.MemInv := ht
  split
  · exact hno _ _ ht
  · split
    · exact hno _ _ ht
    · split
      · exact hno _ _ ht
      · split
        · exact hno _ _ ht
        next he =>
          have hs1 := ht.windowRead he
          split
          · exact hno _ _ hs1
          next he2 =>
            have hs2 := hs1.windowRead he2
            split
            · exact hno _ _ hs2
            · extract_lets c
              split
              · exact hno _ _ hs2
              · split
                · exact hno _ _ hs2
                · split
                  · exact hno _ _ hs2
                  next he3 => exact hs2.submit he3

theorem State.MemInv.execCancel {s : State} {env coh} (h : s.MemInv) : Out.MemInv (execCancel env coh s) := by
  refine State.MemInv.command h fun x t ht => ?_
  split
  · split
    · exact ht
    · split
      · exact ht
      · exact ht.endCohort
  · split
    · split
      · exact ht
      · exact ht
    · exact ht

theorem State.MemInv.execPost {s : State} {env coh rank bits} (h : s.MemInv) : Out.MemInv (execPost env coh rank bits s) := by
  refine State.MemInv.command h fun x t ht => ?_
  split
  · exact ht
  · split
    · exact ht
    · split
      · exact ht
      · exact ht.post

theorem State.MemInv.setMode {s : State} {m} (h : s.MemInv) : (s.setMode m).2.MemInv := by
  unfold State.setMode
  split
  · split
    · exact h
    · exact h
  · split
    · exact h
    · exact h
  · split
    · exact h
    · split
      · exact h
      · exact h
  · split
    · exact h
    · exact h
  · split
    · exact h
    · exact h
  · exact h

theorem State.MemInv.execVerifierCiphertext {s : State} {session ct signer} (h : s.MemInv) :
    Out.MemInv (execVerifierCiphertext session ct signer s) := by
  unfold Machine.execVerifierCiphertext
  split
  · exact h
  · split
    · exact h
    · exact h
    · exact State.MemInv.ite h h

theorem State.MemInv.execFwupdate {s : State} {env key off len mgmt} (h : s.MemInv) : Out.MemInv (execFwupdate env key off len mgmt s) := by
  refine State.MemInv.command h fun x t ht => ?_
  split
  · exact ht
  next he =>
    have hs := ht.windowRead he
    split
    · exact hs
    · exact State.MemInv.ite hs hs

theorem State.MemInv.scrub {s : State} (h : s.MemInv) : s.scrub.MemInv :=
  ⟨wf_scrub h.1, h.2⟩

theorem State.MemInv.releaseOwner {s : State} (h : s.MemInv) : s.releaseOwner.MemInv := by
  unfold State.releaseOwner
  extract_lets ended retired cleared
  have hended : ended.MemInv := h.foldl fun _ _ h => h.endCohort
  have hretired : retired.MemInv := hended.foldl fun t k ht => by
    split
    · exact ht.retire
    · exact ht
  exact State.MemInv.scrub (s := cleared) hretired

theorem State.MemInv.execPackageReset {s : State} {pkg domain trained} (h : s.MemInv) :
    Out.MemInv (execPackageReset pkg domain trained s) := by
  unfold Machine.execPackageReset
  extract_lets old reset fresh hold
  have hold' : old.MemInv := h.releaseOwner
  have hfresh : fresh.MemInv := ⟨hold'.1, h.2⟩
  have hheld (code) : (hold code).MemInv := hfresh
  exact State.MemInv.ite (hheld _) (.ite (hheld _) (.ite (hheld _) (.ite (hheld _) ⟨Memory.wfFrom_filter _ hfresh.1, hfresh.2⟩)))

theorem State.MemInv.execTroiqueMessage {s : State} {msg} (h : s.MemInv) : Out.MemInv (execTroiqueMessage msg s) := by
  unfold Machine.execTroiqueMessage
  dsimp only
  split
  · split
    · exact h
    · split
      · exact h.pressTouch
      · exact h.pressTouch
  · split
    · exact h
    · split
      · exact h
      · exact State.MemInv.ite h (.ite (h.pressTouch.writePlaces.foldl fun _ _ h => .ite h h.feSet) h.pressTouch.writePlaces)
  · split
    · exact h
    · split
      · exact h
      · split
        · exact h.pressTouch
        · split
          · exact h.pressTouch.writePlaces
          · exact h.pressTouch

/-! ### Prefixed instructions -/

theorem State.MemInv.pfxFmem {s : State} {k w} (h : s.MemInv) : (pfxFmem k w s).MemInv := by
  unfold Machine.pfxFmem
  split
  · exact h.illInsn
  · split
    · exact h.opFldw
    · exact h.opFldd
    · exact h.opFstw
    · exact h.opFstd

theorem State.MemInv.execPfx {s : State} {k w} (h : s.MemInv) : Out.MemInv (execPfx k w s) := by
  unfold Machine.execPfx
  split
  · exact h
  · exact h
  · exact h
  · exact h
  · exact h
  · exact h
  · exact h.opLd
  · exact h.opLdz
  · exact h.opSt
  · exact h.pfxFmem
  · exact h
  · exact State.MemInv.ite h.vissue h.illInsn
  · exact h.illInsn

/-! ### Every instruction and event -/

/-- What an instruction or an event does keeps the canonical form: those that write no memory leave both as they were. -/
theorem State.MemInv.exec {s : State} {i} (h : s.MemInv) : Out.MemInv (exec i s) := by
  cases i with
  | ld => exact h.opLd
  | ldz => exact h.opLdz
  | st => exact h.opSt
  | fldw => exact h.opFldw
  | fldd => exact h.opFldd
  | fstw => exact h.opFstw
  | fstd => exact h.opFstd
  | pfx => exact h.execPfx
  | fadd | fsub | fmul | fdiv | fsqrt | fma => exact h.fpRound
  | fmin | fmax | fneg | fabs | fcps => exact h.fpPattern
  | feq | flt | fle | fclass => exact h.fpToX
  | fcvt => exact h.execFcvt
  | amoswap | amocas | amoadd | amoand | amoor | amoxor | amomin | amomax | amominz | amomaxz => exact h.opAmo
  | ldacq => exact h.aligned (h.loading fun _ _ h => h)
  | strel => exact h.aligned (.ite h (h.storing fun _ h => h))
  | fence | qdrain | halts | ifence | vdrain | sfree | gfree | slotBoundary | workPacing | attest => exact State.MemInv.ite h h
  | waittl | waittlImm => exact h.opWaittl
  | tlbump => exact State.MemInv.ite h.illOp (.ite h (.ite h h))
  | gbar => exact h.execGbar
  | garrive => exact h.execGarrive
  | gwait => exact h.execGwait
  | acwait => exact h.aligned (.ite h h.acWait)
  | wmpub | wmpubImm => exact h.opWmpub
  | sleep => exact h.execSleep
  | evpost => exact h.execEvpost
  | launch d a b n => exact h.execLaunch (d := d) (a := a) (b := b) (n := n)
  | crget | crput | crswap => exact h.crAccess
  | ecall | ebreak => exact h.trap
  | rte => exact h.atS fun _ h => h.returnFromTrap
  | xinv | xinvPage => exact h.opXinv
  | ctxsv => exact h.execCtxsv
  | ctxld => exact h.execCtxld
  | tset => exact h.execTset
  | tinv => exact h.execTinv
  | feget => exact h.granule fun _ _ h => h
  | feset => exact State.MemInv.ite (h.granule fun _ _ h => h.feSet) h
  | feclr => exact h.granule fun _ _ h => h.feSet
  | zscan => exact h.execZscan
  | vadd | vsub | vmul | vdiv | vmin | vmax | vabs | vneg | vsqrt | vfma | vfms | vfnma | vand | vor | vxor | vnot | vsll | vsrl | vsra
  | vmulh | vsadd | vssub | vclz | vpopc | vmov | vmerge | vcps | vclass | vmodmul | vmodadd | vmodsub | vtag | vaddVs | vsubVs | vmulVs
  | vdivVs | vminVs | vmaxVs | vfmaVs | vfmsVs | vfnmaVs | vandVs | vorVs | vxorVs | vsllVs | vsrlVs | vsraVs | vmulhVs | vsaddVs | vssubVs
  | vmergeVs | vcpsVs | vmodmulVs | vmodaddVs | vmodsubVs | vcmpeq | vcmpne | vcmplt | vcmple | vcmpun | mand | mor | mxor | mandn | mnot
  | mset | mfromv | vredsum | vredsumo | vredmin | vredmax | vredand | vredor | vredxor | vdot | vxacc | vxrnd | vxrndClr | vcvth | vcvtd
  | vcvtf4 | vcvti | vcvtf | vquant | vdeq | vscale | vpacks | vbfpn | vgathr | vslideup | vslidedn | vcompr | vexpnd | viota | vid
  | vbcast | vinsrt | vrev | vzip | vunzip | vstrp | vconfd | vld | vlds | vldseg | vldx | vldff | vldw | vgwin | vldfe | vst | vsts
  | vstseg | vstx | vstxo | vstfe | vstwm | upd | upda | uacc | umerge | uflush | gcsleep => exact h.vissue
  | mpopc | mfirst | vextr => exact h.vissueToX
  | uwin => exact h.vissueX fun _ _ h => h.uwin
  | uwinRel => exact h.vissueX fun _ _ h => h.uwinRel
  | uregion => exact h.vissueX fun _ _ h => h.uregion
  | uregionRel => exact h.vissueX fun _ _ h => h.uregionRel
  | uquery => exact h.vissueX fun _ _ h => h
  | sload => exact h.execSload
  | sarm => exact h.execSarm
  | sport => exact h.execSport
  | twload => exact h.execTwload
  | sgrow => exact h.execSgrow
  | modcfg => exact h.execModcfg
  | modchk => exact h.execModchk
  | sstat => exact h.execSstat
  | sabort => exact h.execSabort
  | mgrp => exact h.execMgrp
  | mgrpRel => exact State.MemInv.ite h h.unbind
  | mwload => exact h.execMwload
  | mma => exact h.execMma
  | maccz => exact h.withBinding fun _ => h.matIssue
  | maccst => exact h.execMaccst
  | maccld => exact h.execMaccld
  | maload => exact h.execMaload
  | gload => exact h.execGload
  | grun => exact h.execGrun
  | rtcfg => exact h.execRtcfg
  | rtcfgRel => exact h.execRtcfgRel
  | rtupd => exact h.execRtupd
  | route => exact h.execRoute
  | recv => exact h.opRecv
  | recvNb => exact h.execRecvNb
  | rret | rretErr => exact h.opRret
  | rhot => exact h.execRhot
  | rscfg => exact State.MemInv.ite h.illOp h
  | rscfgInbox => exact h.execRscfgInbox
  | ccomm => exact h.execCcomm
  | cfree => exact h.execCfree
  | cbind => exact h.execCbind
  | cunbind => exact h.execCunbind
  | cstart => exact h.execCstart
  | csend | cfetch => exact h.opPiece
  | ccancel => exact h.execCcancel
  | xcopy | xfill => exact State.MemInv.ite h.illOp h.copyIssue
  | xcopyt => exact h.execXcopyt
  | xdecode => exact State.MemInv.ite h.illOp (h.withTensor fun _ _ _ ht => .ite h.illOp ht.copyIssue)
  | xexport => exact h.withTensor fun _ _ _ ht => .ite h.illOp ht.copyIssue
  | xhost | xhostToh => exact h.opXhost
  | fcsrAccess => exact h.execFcsrAccess
  | vectorExecute => exact h.vectorTurn
  | walkRefill => exact h.execWalkRefill
  | admission => exact h.execAdmission
  | eviction => exact h.execEviction
  | consumerEviction => exact h.execConsumerEviction
  | resumption => exact h.execResumption
  | retirement => exact h.execRetirement
  | waittlWake => exact h.execWaittlWake
  | sleepWake => exact h.execSleepWake
  | sleepTimeout => exact h.execSleepTimeout
  | barrierWake => exact h.execBarrierWake
  | acwaitWake => exact h.execAcwaitWake
  | gcsleepWake | vldwRelease | consumingLoadWake | vstwmComplete => exact State.MemInv.ite h.vectorTurn h
  | qdrainRelease => exact h.execQdrainRelease
  | recvWake => exact h.execRecvWake
  | copyComplete => exact h.execCopyComplete
  | sloadInstall => exact h.execSloadInstall
  | twloadApply => exact h.execTwloadApply
  | modcfgApply => exact h.execModcfgApply
  | nodeFire => exact h.execNodeFire
  | inputPortFeRead => exact h.execInputPortFeRead
  | sectionRunComplete => exact h.execSectionRunComplete
  | matrixGroupStart => exact h.execMatrixGroupStart
  | matrixOpComplete => exact h.execMatrixOpComplete
  | mgrpReleaseDone => exact h.execMgrpReleaseDone
  | gloadInstall => exact h.execGloadInstall
  | graphRunComplete => exact h.execGraphRunComplete
  | fabricRelease => exact h.execFabricRelease
  | graphRelease => exact h.execGraphRelease
  | pressAccept => exact h.execPressAccept
  | eagerApply => exact h.execEagerApply
  | updComplete => exact h.execUpdComplete
  | uflushComplete => exact h.execUflushComplete
  | regionReleaseApply => exact h.execRegionReleaseApply
  | routePlacement => exact h.execRoutePlacement
  | routeWaitDelivery => exact h.execRouteWaitDelivery
  | returnApply => exact h.execReturnApply
  | routeTimeout => exact h.execRouteTimeout
  | routeComplete => exact h.execRouteComplete
  | chunkSend => exact h.execChunkSend
  | chunkArrival => exact h.execChunkArrival
  | tileLand => exact h.execTileLand
  | cstartComplete => exact h.execCstartComplete
  | streamPieceDeliver => exact h.execStreamPieceDeliver
  | cfreeWithdraw => exact h.execCfreeWithdraw
  | cunbindClose => exact h.execCunbindClose
  | packageReset => exact h.execPackageReset
  | ownerRelease => exact h.releaseOwner
  | troiqueMessage => exact h.execTroiqueMessage
  | rdmaWrite => exact h.execRdmaWrite
  | rdmaRead => exact h.execRdmaRead
  | launchCommand => exact h.execLaunchCommand
  | cancel => exact h.execCancel
  | query | modeget | ack | unknownOpcode => exact h.command fun _ _ h => h
  | mapwin => exact h.execMapwin
  | unmapwin => exact h.execUnmapwin
  | region => exact h.execRegion
  | unregion => exact h.execUnregion
  | modeset => exact h.command fun _ _ h => h.setMode
  | fwupdate => exact h.execFwupdate
  | post => exact h.execPost
  | illegalInstruction => exact h.illInsn
  | instructionFetchFault => exact h.trapAt
  | verifierCiphertext => exact h.execVerifierCiphertext
  | _ => exact h

/-! ### Steps -/

theorem State.MemInv.fetch {s : State} {va} (h : s.MemInv) {r s'} (hr : s.fetch va = .ok (r, s')) : s'.MemInv := by
  unfold State.fetch at hr
  split at hr
  next he =>
    cases hr
    exact h.read he
  · cases hr

theorem State.MemInv.fetchFault {s : State} {e} (h : s.MemInv) : Out.MemInv (s.fetchFault e) := by
  unfold State.fetchFault
  split
  · exact h.exec
  · exact h.memTrap

theorem State.MemInv.runBytes {s : State} {bs} (h : s.MemInv) : Out.MemInv (s.runBytes bs) := by
  unfold State.runBytes
  split
  · exact h.exec
  · exact h.exec
  · exact h

theorem State.MemInv.issue {s : State} (h : s.MemInv) : Out.MemInv s.issue := by
  unfold State.issue
  split
  · exact h.fetchFault
  next he =>
    split
    · split
      · exact (h.fetch he).fetchFault
      next he2 => exact ((h.fetch he).fetch he2).runBytes
    · exact (h.fetch he).runBytes

theorem State.MemInv.strandTurn {s : State} {p} (h : s.MemInv) : Out.MemInv (s.strandTurn p) := by
  unfold State.strandTurn
  extract_lets s1
  have hs1 : s1.MemInv := h
  have hturn : (if s1.vectorKeepsUp p then s1.vturn 0 else .idle).MemInv := .ite hs1.vturn trivial
  split
  next he => exact hturn.went he
  · exact .ite hs1.issue (.ite hs1 hs1)

theorem State.MemInv.input {s : State} {i} (h : s.MemInv) : Out.MemInv (s.input i) := by
  cases i with
  | strand p => exact h.strandTurn
  | event i => exact h.exec
  | hostStore a bs => exact ⟨h.1, Memory.wf_write _ _ _ h.2⟩
  | _ => exact h

/-- The clock's part of a step (log 2) keeps the canonical form. -/
theorem Out.MemInv.tick {o : Out} (h : Out.MemInv o) : Out.MemInv (Out.tick o) := by
  cases o with
  | next t => exact State.MemInv.readyQueues (State.MemInv.stopEnded (State.MemInv.watch h))
  | _ => trivial

theorem State.MemInv.step {s : State} (h : s.MemInv) : Out.MemInv (step s) := by
  unfold Machine.step
  split
  · extract_lets s1
    have hs1 : s1.MemInv := h
    exact .ite hs1 (.tick hs1.input)
  · exact .ite trivial (.tick h.strandTurn)

/-! ### The obligation -/

/-- Settles O56: every function of the model that answers a state keeps the canonical form of both memories, `step` the last of them. -/
theorem stepKeepsMemoryForm : Obligations.StepKeepsMemoryForm := by
  unfold Obligations.StepKeepsMemoryForm
  intro s t h hstep
  exact (State.MemInv.step h).next hstep

end Sys2Proof.Machine
end

section
/-! PROOFS of the statements on the encoding (09 R113 to R124): the decoder of an instruction's words gives the instruction (O57), and the
encoding of what bytes decode to gives the bytes (O58). -/
namespace Sys2Proof

/-! ### Joined fields -/

/-- Two joined fields are a word where they are its high and its low bits. -/
theorem append_eq_iff {m n : Nat} (x : BitVec n) (y : BitVec m) (z : BitVec (n + m)) :
    x ++ y = z ↔ z.extractLsb' m n = x ∧ z.extractLsb' 0 m = y := by
  constructor
  · rintro rfl
    exact ⟨BitVec.extractLsb'_append_eq_left, BitVec.extractLsb'_append_eq_right⟩
  · rintro ⟨rfl, rfl⟩
    exact (BitVec.extractLsb'_append_extractLsb'_eq_extractLsb' (Nat.zero_add m).symm).trans BitVec.extractLsb'_eq_self

/-- A field of a field. -/
theorem extractLsb'_extractLsb' {k n s t m : Nat} (h : t + m ≤ n) (x : BitVec k) :
    (x.extractLsb' s n).extractLsb' t m = x.extractLsb' (s + t) m := by
  ext j hj
  simp only [BitVec.getElem_extractLsb', BitVec.getLsbD_extractLsb', Nat.add_assoc]
  grind

/-- The same of three joined fields. -/
theorem append_append_eq_iff {l m n : Nat} (x : BitVec n) (y : BitVec m) (z : BitVec l) (w : BitVec (n + m + l)) :
    x ++ y ++ z = w ↔ w.extractLsb' (l + m) n = x ∧ w.extractLsb' l m = y ∧ w.extractLsb' 0 l = z := by
  rw [append_eq_iff, eq_comm, append_eq_iff, extractLsb'_extractLsb' (by omega), extractLsb'_extractLsb' (by omega), and_assoc,
    Nat.add_zero]

theorem append_eq_2_1 {x : BitVec 2} {y : BitVec 1} {w : BitVec 3} :
    x ++ y = w ↔ w.extractLsb' 1 2 = x ∧ w.extractLsb' 0 1 = y := append_eq_iff x y w

theorem append_eq_1_4 {x : BitVec 1} {y : BitVec 4} {w : BitVec 5} :
    x ++ y = w ↔ w.extractLsb' 4 1 = x ∧ w.extractLsb' 0 4 = y := append_eq_iff x y w

theorem append_eq_3_2 {x : BitVec 3} {y : BitVec 2} {w : BitVec 5} :
    x ++ y = w ↔ w.extractLsb' 2 3 = x ∧ w.extractLsb' 0 2 = y := append_eq_iff x y w

theorem append_eq_1_5 {x : BitVec 1} {y : BitVec 5} {w : BitVec 6} :
    x ++ y = w ↔ w.extractLsb' 5 1 = x ∧ w.extractLsb' 0 5 = y := append_eq_iff x y w

theorem append_eq_2_4 {x : BitVec 2} {y : BitVec 4} {w : BitVec 6} :
    x ++ y = w ↔ w.extractLsb' 4 2 = x ∧ w.extractLsb' 0 4 = y := append_eq_iff x y w

theorem append_eq_3_3 {x : BitVec 3} {y : BitVec 3} {w : BitVec 6} :
    x ++ y = w ↔ w.extractLsb' 3 3 = x ∧ w.extractLsb' 0 3 = y := append_eq_iff x y w

theorem append_eq_4_2 {x : BitVec 4} {y : BitVec 2} {w : BitVec 6} :
    x ++ y = w ↔ w.extractLsb' 2 4 = x ∧ w.extractLsb' 0 2 = y := append_eq_iff x y w

theorem append_eq_5_1 {x : BitVec 5} {y : BitVec 1} {w : BitVec 6} :
    x ++ y = w ↔ w.extractLsb' 1 5 = x ∧ w.extractLsb' 0 1 = y := append_eq_iff x y w

theorem append_eq_5_6 {x : BitVec 5} {y : BitVec 6} {w : BitVec 11} :
    x ++ y = w ↔ w.extractLsb' 6 5 = x ∧ w.extractLsb' 0 6 = y := append_eq_iff x y w

theorem append_eq_10_6 {x : BitVec 10} {y : BitVec 6} {w : BitVec 16} :
    x ++ y = w ↔ w.extractLsb' 6 10 = x ∧ w.extractLsb' 0 6 = y := append_eq_iff x y w

theorem append_eq_6_26 {x : BitVec 6} {y : BitVec 26} {w : BitVec 32} :
    x ++ y = w ↔ w.extractLsb' 26 6 = x ∧ w.extractLsb' 0 26 = y := append_eq_iff x y w

/-- The function or size of an imm16 is compared by its number, as the decoders of majors 0x08 to 0x0C read it. -/
theorem append_eq_2_14 {x : BitVec 2} {y : BitVec 14} {w : BitVec 16} :
    x ++ y = w ↔ (w.extractLsb' 14 2).toNat = x.toNat ∧ w.extractLsb' 0 14 = y := by
  rw [append_eq_iff, BitVec.toNat_inj]

theorem append_eq_2_1_3 {x : BitVec 2} {y : BitVec 1} {z : BitVec 3} {w : BitVec 6} :
    x ++ y ++ z = w ↔ w.extractLsb' 4 2 = x ∧ w.extractLsb' 3 1 = y ∧ w.extractLsb' 0 3 = z := append_append_eq_iff x y z w

theorem append_eq_2_3_1 {x : BitVec 2} {y : BitVec 3} {z : BitVec 1} {w : BitVec 6} :
    x ++ y ++ z = w ↔ w.extractLsb' 4 2 = x ∧ w.extractLsb' 1 3 = y ∧ w.extractLsb' 0 1 = z := append_append_eq_iff x y z w

theorem append_eq_1_1_4 {x : BitVec 1} {y : BitVec 1} {z : BitVec 4} {w : BitVec 6} :
    x ++ y ++ z = w ↔ w.extractLsb' 5 1 = x ∧ w.extractLsb' 4 1 = y ∧ w.extractLsb' 0 4 = z := append_append_eq_iff x y z w

theorem high_5_5 (x y : BitVec 5) : (x ++ y).extractLsb' 5 5 = x := BitVec.extractLsb'_append_eq_left

theorem low_5_5 (x y : BitVec 5) : (x ++ y).extractLsb' 0 5 = y := BitVec.extractLsb'_append_eq_right

/-! ### Which code a field decoder reads -/

@[simp] theorem freg?_eq_some {x : BitVec 5} {d : FReg} : freg? x = some d ↔ x = 0#1 ++ d := by
  rw [eq_comm (a := x), append_eq_1_4]
  simp [freg?]

@[simp] theorem mreg?_eq_some {x : BitVec 6} {d : MReg} : mreg? x = some d ↔ x = 0#3 ++ d := by
  rw [eq_comm (a := x), append_eq_3_3]
  simp [mreg?]

@[simp] theorem xreg?_eq_some {x : BitVec 6} {d : XReg} : xreg? x = some d ↔ x = 0#1 ++ d := by
  rw [eq_comm (a := x), append_eq_1_5]
  simp [xreg?]

@[simp] theorem RMode.ofCode?_eq_some {c : BitVec 3} {r : RMode} : RMode.ofCode? c = some r ↔ c = r.code := by
  cases r <;> revert c <;> decide

@[simp] theorem Scope.ofCode?_eq_some {c : BitVec 3} {s : Scope} : Scope.ofCode? c = some s ↔ c = s.code := by
  cases s <;> revert c <;> decide

@[simp] theorem FFmt.ofCode?_eq_some {c : BitVec 2} {t : FFmt} : FFmt.ofCode? c = some t ↔ c = t.code := by
  cases t <;> revert c <;> decide

@[simp] theorem Size.ofCode?_eq_some {c : BitVec 2} {z : Size} : Size.ofCode? c = some z ↔ c = z.code := by
  cases z <;> revert c <;> decide

@[simp] theorem Growth.ofCode?_eq_some {c : BitVec 2} {g : Growth} : Growth.ofCode? c = some g ↔ c = g.code := by
  cases g <;> revert c <;> decide

@[simp] theorem Tag.ofCode?_eq_some {c : BitVec 5} {t : Tag} : Tag.ofCode? c = some t ↔ c = t.code := by
  cases t <;> revert c <;> decide

@[simp] theorem CReg.ofCode?_eq_some {c : BitVec 11} {r : CReg} : CReg.ofCode? c = some r ↔ c = r.code := by
  constructor
  · intro h
    unfold CReg.ofCode? at h
    split at h
    case h_17 => cases h
    all_goals
      obtain rfl := Option.some.inj h
      exact BitVec.eq_of_toNat_eq ‹_›
  · rintro rfl
    exact CReg.ofCode?_code r

@[simp] theorem Order.code_ofCode (c : BitVec 2) : (Order.ofCode c).code = c := by
  revert c
  decide

@[simp] theorem fcvtKind?_eq_some {d a b : BitVec 5} {k : FcvtKind} :
    fcvtKind? d a b = some k ↔ d = k.dCode ∧ a = k.aCode ∧ b = k.kindCode := by
  constructor
  · intro h
    unfold fcvtKind? at h
    split at h
    next hb =>
      simp only [Option.bind_eq_some_iff, Option.some.injEq, freg?_eq_some, FFmt.ofCode?_eq_some] at h
      obtain ⟨g, hg, d', hd, a', ha, rfl⟩ := h
      exact ⟨hd, ha, (append_eq_3_2.2 ⟨hb, hg⟩).symm⟩
    next =>
      split at h
      case h_7 => cases h
      all_goals
        simp only [Option.bind_eq_some_iff, Option.some.injEq, freg?_eq_some] at h
        obtain ⟨f, hf, rfl⟩ := h
      case h_1 hb | h_2 hb => exact ⟨hf, rfl, BitVec.eq_of_toNat_eq hb⟩
      case h_3 hb | h_4 hb | h_5 hb | h_6 hb => exact ⟨rfl, hf, BitVec.eq_of_toNat_eq hb⟩
  · rintro ⟨rfl, rfl, rfl⟩
    exact fcvtKind?_code k

@[simp] theorem ofBool_beq_one (x : BitVec 1) : BitVec.ofBool (x == 1#1) = x := by
  revert x
  decide

/-! ### Decoding what was encoded -/

/-- Each instruction is decoded from its words by the law of its own; an event has no words. -/
theorem Laws.roundTrip (i : Instr) : Laws.RoundTrip.Statement i := by
  cases i with
  | add => apply RoundTrip.add | sub => apply RoundTrip.sub | and => apply RoundTrip.and | or => apply RoundTrip.or | xor => apply RoundTrip.xor
  | andn => apply RoundTrip.andn | orn => apply RoundTrip.orn | sll => apply RoundTrip.sll | srl => apply RoundTrip.srl | sra => apply RoundTrip.sra
  | ror => apply RoundTrip.ror | mul => apply RoundTrip.mul | mulh => apply RoundTrip.mulh | mulhz => apply RoundTrip.mulhz
  | div => apply RoundTrip.div | divz => apply RoundTrip.divz | rem => apply RoundTrip.rem | remz => apply RoundTrip.remz
  | min => apply RoundTrip.min | max => apply RoundTrip.max | minz => apply RoundTrip.minz | maxz => apply RoundTrip.maxz
  | seq => apply RoundTrip.seq | slt => apply RoundTrip.slt | sltz => apply RoundTrip.sltz | clz => apply RoundTrip.clz | ctz => apply RoundTrip.ctz
  | popc => apply RoundTrip.popc | sext => apply RoundTrip.sext | zext => apply RoundTrip.zext | bfx => apply RoundTrip.bfx
  | bfi => apply RoundTrip.bfi | addi => apply RoundTrip.addi | andi => apply RoundTrip.andi | ori => apply RoundTrip.ori
  | xori => apply RoundTrip.xori | slti => apply RoundTrip.slti | lih => apply RoundTrip.lih | slli => apply RoundTrip.slli
  | srli => apply RoundTrip.srli | srai => apply RoundTrip.srai | rori => apply RoundTrip.rori | ld => apply RoundTrip.ld
  | ldz => apply RoundTrip.ldz | st => apply RoundTrip.st | fldw => apply RoundTrip.fldw | fldd => apply RoundTrip.fldd
  | fstw => apply RoundTrip.fstw | fstd => apply RoundTrip.fstd | beq => apply RoundTrip.beq | bne => apply RoundTrip.bne
  | blt => apply RoundTrip.blt | bge => apply RoundTrip.bge | blo => apply RoundTrip.blo | bhs => apply RoundTrip.bhs | jl => apply RoundTrip.jl
  | jlr => apply RoundTrip.jlr | pfx => apply RoundTrip.pfx | fadd => apply RoundTrip.fadd | fsub => apply RoundTrip.fsub
  | fmul => apply RoundTrip.fmul | fdiv => apply RoundTrip.fdiv | fsqrt => apply RoundTrip.fsqrt | fmin => apply RoundTrip.fmin
  | fmax => apply RoundTrip.fmax | fma => apply RoundTrip.fma | fneg => apply RoundTrip.fneg | fabs => apply RoundTrip.fabs
  | fcps => apply RoundTrip.fcps | feq => apply RoundTrip.feq | flt => apply RoundTrip.flt | fle => apply RoundTrip.fle
  | fcvt => apply RoundTrip.fcvt | fmovxf => apply RoundTrip.fmovxf | fmovfx => apply RoundTrip.fmovfx | fclass => apply RoundTrip.fclass
  | amoswap => apply RoundTrip.amoswap | amocas => apply RoundTrip.amocas | amoadd => apply RoundTrip.amoadd | amoand => apply RoundTrip.amoand
  | amoor => apply RoundTrip.amoor | amoxor => apply RoundTrip.amoxor | amomin => apply RoundTrip.amomin | amomax => apply RoundTrip.amomax
  | amominz => apply RoundTrip.amominz | amomaxz => apply RoundTrip.amomaxz | ldacq => apply RoundTrip.ldacq | strel => apply RoundTrip.strel
  | fence => apply RoundTrip.fence | waittl => apply RoundTrip.waittl | waittlImm => apply RoundTrip.waittlImm | tlread => apply RoundTrip.tlread
  | tlreadIss => apply RoundTrip.tlreadIss | tlbump => apply RoundTrip.tlbump | qdrain => apply RoundTrip.qdrain | gbar => apply RoundTrip.gbar
  | garrive => apply RoundTrip.garrive | gwait => apply RoundTrip.gwait | acwait => apply RoundTrip.acwait | wmpub => apply RoundTrip.wmpub
  | wmpubImm => apply RoundTrip.wmpubImm | wmread => apply RoundTrip.wmread | yield => apply RoundTrip.yield | sleep => apply RoundTrip.sleep
  | evpost => apply RoundTrip.evpost | launch => apply RoundTrip.launch | crget => apply RoundTrip.crget | crput => apply RoundTrip.crput
  | crswap => apply RoundTrip.crswap | ecall => apply RoundTrip.ecall | ebreak => apply RoundTrip.ebreak | rte => apply RoundTrip.rte
  | halts => apply RoundTrip.halts | xinv => apply RoundTrip.xinv | xinvPage => apply RoundTrip.xinvPage | ctxsv => apply RoundTrip.ctxsv
  | ctxld => apply RoundTrip.ctxld | ifence => apply RoundTrip.ifence | tlook => apply RoundTrip.tlook | tset => apply RoundTrip.tset
  | tinv => apply RoundTrip.tinv | tclr => apply RoundTrip.tclr | feget => apply RoundTrip.feget | feset => apply RoundTrip.feset
  | feclr => apply RoundTrip.feclr | zscan => apply RoundTrip.zscan | setvl => apply RoundTrip.setvl | cfgget => apply RoundTrip.cfgget
  | vcpget => apply RoundTrip.vcpget | vadd => apply RoundTrip.vadd | vsub => apply RoundTrip.vsub | vmul => apply RoundTrip.vmul
  | vdiv => apply RoundTrip.vdiv | vmin => apply RoundTrip.vmin | vmax => apply RoundTrip.vmax | vabs => apply RoundTrip.vabs
  | vneg => apply RoundTrip.vneg | vsqrt => apply RoundTrip.vsqrt | vfma => apply RoundTrip.vfma | vfms => apply RoundTrip.vfms
  | vfnma => apply RoundTrip.vfnma | vand => apply RoundTrip.vand | vor => apply RoundTrip.vor | vxor => apply RoundTrip.vxor
  | vnot => apply RoundTrip.vnot | vsll => apply RoundTrip.vsll | vsrl => apply RoundTrip.vsrl | vsra => apply RoundTrip.vsra
  | vmulh => apply RoundTrip.vmulh | vsadd => apply RoundTrip.vsadd | vssub => apply RoundTrip.vssub | vclz => apply RoundTrip.vclz
  | vpopc => apply RoundTrip.vpopc | vmov => apply RoundTrip.vmov | vmerge => apply RoundTrip.vmerge | vcps => apply RoundTrip.vcps
  | vclass => apply RoundTrip.vclass | vmodmul => apply RoundTrip.vmodmul | vmodadd => apply RoundTrip.vmodadd | vmodsub => apply RoundTrip.vmodsub
  | vtag => apply RoundTrip.vtag | vaddVs => apply RoundTrip.vaddVs | vsubVs => apply RoundTrip.vsubVs | vmulVs => apply RoundTrip.vmulVs
  | vdivVs => apply RoundTrip.vdivVs | vminVs => apply RoundTrip.vminVs | vmaxVs => apply RoundTrip.vmaxVs | vfmaVs => apply RoundTrip.vfmaVs
  | vfmsVs => apply RoundTrip.vfmsVs | vfnmaVs => apply RoundTrip.vfnmaVs | vandVs => apply RoundTrip.vandVs | vorVs => apply RoundTrip.vorVs
  | vxorVs => apply RoundTrip.vxorVs | vsllVs => apply RoundTrip.vsllVs | vsrlVs => apply RoundTrip.vsrlVs | vsraVs => apply RoundTrip.vsraVs
  | vmulhVs => apply RoundTrip.vmulhVs | vsaddVs => apply RoundTrip.vsaddVs | vssubVs => apply RoundTrip.vssubVs
  | vmergeVs => apply RoundTrip.vmergeVs | vcpsVs => apply RoundTrip.vcpsVs | vmodmulVs => apply RoundTrip.vmodmulVs
  | vmodaddVs => apply RoundTrip.vmodaddVs | vmodsubVs => apply RoundTrip.vmodsubVs | vcmpeq => apply RoundTrip.vcmpeq
  | vcmpne => apply RoundTrip.vcmpne | vcmplt => apply RoundTrip.vcmplt | vcmple => apply RoundTrip.vcmple | vcmpun => apply RoundTrip.vcmpun
  | mand => apply RoundTrip.mand | mor => apply RoundTrip.mor | mxor => apply RoundTrip.mxor | mandn => apply RoundTrip.mandn
  | mnot => apply RoundTrip.mnot | mpopc => apply RoundTrip.mpopc | mfirst => apply RoundTrip.mfirst | mset => apply RoundTrip.mset
  | mfromv => apply RoundTrip.mfromv | vredsum => apply RoundTrip.vredsum | vredsumo => apply RoundTrip.vredsumo | vredmin => apply RoundTrip.vredmin
  | vredmax => apply RoundTrip.vredmax | vredand => apply RoundTrip.vredand | vredor => apply RoundTrip.vredor | vredxor => apply RoundTrip.vredxor
  | vdot => apply RoundTrip.vdot | vxacc => apply RoundTrip.vxacc | vxrnd => apply RoundTrip.vxrnd | vxrndClr => apply RoundTrip.vxrndClr
  | vcvth => apply RoundTrip.vcvth | vcvtd => apply RoundTrip.vcvtd | vcvtf4 => apply RoundTrip.vcvtf4 | vcvti => apply RoundTrip.vcvti
  | vcvtf => apply RoundTrip.vcvtf | vquant => apply RoundTrip.vquant | vdeq => apply RoundTrip.vdeq | vscale => apply RoundTrip.vscale
  | vpacks => apply RoundTrip.vpacks | vbfpn => apply RoundTrip.vbfpn | vgathr => apply RoundTrip.vgathr | vslideup => apply RoundTrip.vslideup
  | vslidedn => apply RoundTrip.vslidedn | vcompr => apply RoundTrip.vcompr | vexpnd => apply RoundTrip.vexpnd | viota => apply RoundTrip.viota
  | vid => apply RoundTrip.vid | vbcast => apply RoundTrip.vbcast | vextr => apply RoundTrip.vextr | vinsrt => apply RoundTrip.vinsrt
  | vrev => apply RoundTrip.vrev | vzip => apply RoundTrip.vzip | vunzip => apply RoundTrip.vunzip | vstrp => apply RoundTrip.vstrp
  | vconfd => apply RoundTrip.vconfd | vld => apply RoundTrip.vld | vlds => apply RoundTrip.vlds | vldseg => apply RoundTrip.vldseg
  | vldx => apply RoundTrip.vldx | vldff => apply RoundTrip.vldff | vldw => apply RoundTrip.vldw | vgwin => apply RoundTrip.vgwin
  | vldfe => apply RoundTrip.vldfe | vst => apply RoundTrip.vst | vsts => apply RoundTrip.vsts | vstseg => apply RoundTrip.vstseg
  | vstx => apply RoundTrip.vstx | vstxo => apply RoundTrip.vstxo | vstfe => apply RoundTrip.vstfe | vstwm => apply RoundTrip.vstwm
  | upd => apply RoundTrip.upd | upda => apply RoundTrip.upda | uwin => apply RoundTrip.uwin | uwinRel => apply RoundTrip.uwinRel
  | uacc => apply RoundTrip.uacc | umerge => apply RoundTrip.umerge | uflush => apply RoundTrip.uflush | uregion => apply RoundTrip.uregion
  | uregionRel => apply RoundTrip.uregionRel | uquery => apply RoundTrip.uquery | gcsleep => apply RoundTrip.gcsleep
  | vdrain => apply RoundTrip.vdrain | sload => apply RoundTrip.sload | sarm => apply RoundTrip.sarm | sport => apply RoundTrip.sport
  | twload => apply RoundTrip.twload | sgrow => apply RoundTrip.sgrow | modcfg => apply RoundTrip.modcfg | modchk => apply RoundTrip.modchk
  | sstat => apply RoundTrip.sstat | sabort => apply RoundTrip.sabort | sfree => apply RoundTrip.sfree | mgrp => apply RoundTrip.mgrp
  | mgrpRel => apply RoundTrip.mgrpRel | mwload => apply RoundTrip.mwload | mma => apply RoundTrip.mma | maccz => apply RoundTrip.maccz
  | maccst => apply RoundTrip.maccst | maccld => apply RoundTrip.maccld | maload => apply RoundTrip.maload | mstat => apply RoundTrip.mstat
  | gload => apply RoundTrip.gload | grun => apply RoundTrip.grun | gstat => apply RoundTrip.gstat | gfree => apply RoundTrip.gfree
  | rtcfg => apply RoundTrip.rtcfg | rtcfgRel => apply RoundTrip.rtcfgRel | rtupd => apply RoundTrip.rtupd | route => apply RoundTrip.route
  | recv => apply RoundTrip.recv | recvNb => apply RoundTrip.recvNb | rret => apply RoundTrip.rret | rretErr => apply RoundTrip.rretErr
  | rstat => apply RoundTrip.rstat | rstatLate => apply RoundTrip.rstatLate | rhot => apply RoundTrip.rhot | rscfg => apply RoundTrip.rscfg
  | rscfgInbox => apply RoundTrip.rscfgInbox | ccomm => apply RoundTrip.ccomm | cfree => apply RoundTrip.cfree | cbind => apply RoundTrip.cbind
  | cunbind => apply RoundTrip.cunbind | cstart => apply RoundTrip.cstart | csend => apply RoundTrip.csend | cfetch => apply RoundTrip.cfetch
  | cstat => apply RoundTrip.cstat | ccancel => apply RoundTrip.ccancel | xcopy => apply RoundTrip.xcopy | xcopyt => apply RoundTrip.xcopyt
  | xdecode => apply RoundTrip.xdecode | xexport => apply RoundTrip.xexport | xfill => apply RoundTrip.xfill | xhost => apply RoundTrip.xhost
  | xhostToh => apply RoundTrip.xhostToh
  | _ => exact fun _ h => nomatch h

/-- Settles O57: it is the round trip of every instruction. -/
theorem encodedWordsDecode : Obligations.EncodedWordsDecode := Laws.roundTrip

/-! ### Words by their fields

The function number and the major are compared as numbers, as the decoders read them. -/

@[simp] theorem packR_eq_iff {op d a b fn mod} {w : IWord} : packR op d a b fn mod = w ↔
    op.toNat = (fldOp w).toNat ∧ d = fldD w ∧ a = fldA w ∧ b = fldB w ∧ fn.toNat = (fldFn w).toNat ∧ mod = fldMod w := by
  constructor
  · rintro rfl
    simp
  · rintro ⟨hop, rfl, rfl, rfl, hfn, rfl⟩
    obtain rfl := BitVec.eq_of_toNat_eq hop
    obtain rfl := BitVec.eq_of_toNat_eq hfn
    simp only [packR, fldOp, fldD, fldA, fldB, fldFn, fldMod]
    ext j hj
    simp only [BitVec.getElem_append, BitVec.getElem_extractLsb']
    grind

@[simp] theorem packI_eq_iff {op d a imm} {w : IWord} : packI op d a imm = w ↔
    op.toNat = (fldOp w).toNat ∧ d = fldD w ∧ a = fldA w ∧ imm = fldImm w := by
  constructor
  · rintro rfl
    simp
  · rintro ⟨hop, rfl, rfl, rfl⟩
    obtain rfl := BitVec.eq_of_toNat_eq hop
    simp only [packI, fldOp, fldD, fldA, fldImm]
    ext j hj
    simp only [BitVec.getElem_append, BitVec.getElem_extractLsb']
    grind

@[simp] theorem packJ_eq_iff {op d j} {w : IWord} : packJ op d j = w ↔
    op.toNat = (fldOp w).toNat ∧ d = fldD w ∧ j = fldJ w := by
  constructor
  · rintro rfl
    simp
  · rintro ⟨hop, rfl, rfl⟩
    obtain rfl := BitVec.eq_of_toNat_eq hop
    simp only [packJ, fldOp, fldD, fldJ]
    ext j hj
    simp only [BitVec.getElem_append, BitVec.getElem_extractLsb']
    grind

@[simp] theorem packV_eq_iff {op vd va vb m fn} {w : IWord} : packV op vd va vb m fn = w ↔
    op.toNat = (fldOp w).toNat ∧ vd = fldVd w ∧ va = fldVa w ∧ vb = fldVb w ∧ m = fldM w ∧ fn.toNat = (fldVfn w).toNat := by
  constructor
  · rintro rfl
    simp
  · rintro ⟨hop, rfl, rfl, rfl, rfl, hfn⟩
    obtain rfl := BitVec.eq_of_toNat_eq hop
    obtain rfl := BitVec.eq_of_toNat_eq hfn
    simp only [packV, fldOp, fldVd, fldVa, fldVb, fldM, fldVfn]
    ext j hj
    simp only [BitVec.getElem_append, BitVec.getElem_extractLsb']
    grind

@[simp] theorem packS_eq_iff {op vd va xb m i fn} {w : IWord} : packS op vd va xb m i fn = w ↔
    op.toNat = (fldOp w).toNat ∧ vd = fldVd w ∧ va = fldVa w ∧ xb = fldXb w ∧ m = fldSm w ∧ i = fldSi w ∧ fn.toNat = (fldVfn w).toNat := by
  constructor
  · rintro rfl
    simp
  · rintro ⟨hop, rfl, rfl, rfl, rfl, rfl, hfn⟩
    obtain rfl := BitVec.eq_of_toNat_eq hop
    obtain rfl := BitVec.eq_of_toNat_eq hfn
    simp only [packS, fldOp, fldVd, fldVa, fldXb, fldSm, fldSi, fldVfn]
    ext j hj
    simp only [BitVec.getElem_append, BitVec.getElem_extractLsb']
    grind

@[simp] theorem packM_eq_iff {op vd xa b m q fn} {w : IWord} : packM op vd xa b m q fn = w ↔
    op.toNat = (fldOp w).toNat ∧ vd = fldVd w ∧ xa = fldXa w ∧ b = fldMb w ∧ m = fldSm w ∧ q = fldMq w ∧ fn.toNat = (fldMfn w).toNat := by
  constructor
  · rintro rfl
    simp
  · rintro ⟨hop, rfl, rfl, rfl, rfl, rfl, hfn⟩
    obtain rfl := BitVec.eq_of_toNat_eq hop
    obtain rfl := BitVec.eq_of_toNat_eq hfn
    simp only [packM, fldOp, fldVd, fldXa, fldMb, fldSm, fldMq, fldMfn]
    ext j hj
    simp only [BitVec.getElem_append, BitVec.getElem_extractLsb']
    grind

/-! ### What encodes to a word

The rules below follow the shapes of the decoder: a check of reserved fields, an operand field decoded, the operands admitted. What they leave
of a function is that the fields of its encoding are those of the word, from the checks that its decoder made. -/

/-- `i` is an admitted instruction whose encoding is the word `w`. -/
def Encodes (w : IWord) (i : Instr) : Prop := i.wf = true ∧ i.encoded = true ∧ encode i = [w]

/-- What a decoder answers, where it answers an instruction, encodes to `w`. -/
def EncodesBack (o : Option Instr) (w : IWord) : Prop := ∀ i, o = some i → Encodes w i

@[simp] theorem encodesBack_none {w : IWord} : EncodesBack none w := by simp [EncodesBack]

@[simp] theorem encodesBack_some {i : Instr} {w : IWord} : EncodesBack (some i) w ↔ Encodes w i := by simp [EncodesBack]

@[simp] theorem encodesBack_ite {c : Prop} [Decidable c] {o o' : Option Instr} {w : IWord} :
    EncodesBack (if c then o else o') w ↔ (c → EncodesBack o w) ∧ (¬ c → EncodesBack o' w) := by split <;> simp [*]

@[simp] theorem encodesBack_bind {α : Type} {x : Option α} {k : α → Option Instr} {w : IWord} :
    EncodesBack (x.bind k) w ↔ ∀ y, x = some y → EncodesBack (k y) w := by cases x <;> simp

@[simp] theorem encodesBack_guardWf {i : Instr} {w : IWord} : EncodesBack (guardWf i) w ↔ (i.wf = true → Encodes w i) := by simp [guardWf]

/-! ### The decoder of each major -/

theorem encodesBack_decodeInt {w : IWord} (hop : (fldOp w).toNat = 1) :
    EncodesBack (decodeInt (fldD w) (fldA w) (fldB w) (fldFn w) (fldMod w)) w := by
  unfold decodeInt
  split <;> simp +contextual [Encodes, Instr.wf.eq_def, Instr.encoded.eq_def, encode.eq_def, *]

theorem encodesBack_decodeShi {w : IWord} (hop : (fldOp w).toNat = 8) :
    EncodesBack (decodeShi (fldD w) (fldA w) (fldImm w)) w := by
  unfold decodeShi
  split <;> simp +contextual [Encodes, Instr.wf.eq_def, Instr.encoded.eq_def, encode.eq_def, append_eq_10_6, *]

theorem encodesBack_decodeFmem {w : IWord} (hop : (fldOp w).toNat = 12) :
    EncodesBack (decodeFmem (fldD w) (fldA w) (fldImm w)) w := by
  unfold decodeFmem
  split <;> simp +contextual [Encodes, Instr.wf.eq_def, Instr.encoded.eq_def, encode.eq_def, append_eq_2_14, *]

theorem encodesBack_decodeFp {w : IWord} (hop : (fldOp w).toNat = 21) :
    EncodesBack (decodeFp (fldD w) (fldA w) (fldB w) (fldFn w) (fldMod w)) w := by
  unfold decodeFp
  split <;> simp +contextual [Encodes, Instr.wf.eq_def, Instr.encoded.eq_def, encode.eq_def, append_eq_2_1_3, append_eq_3_3, *]

theorem encodesBack_decodeAmo {w : IWord} (hop : (fldOp w).toNat = 22) :
    EncodesBack (decodeAmo (fldD w) (fldA w) (fldB w) (fldFn w) (fldMod w)) w := by
  unfold decodeAmo
  split <;> simp +contextual [Encodes, Instr.wf.eq_def, Instr.encoded.eq_def, encode.eq_def, append_eq_2_3_1, *]

theorem encodesBack_decodeSync {w : IWord} (hop : (fldOp w).toNat = 23) :
    EncodesBack (decodeSync (fldD w) (fldA w) (fldB w) (fldFn w) (fldMod w)) w := by
  unfold decodeSync
  split <;> simp +contextual [Encodes, Instr.wf.eq_def, Instr.encoded.eq_def, encode.eq_def, append_eq_2_3_1, append_eq_1_4, append_eq_1_5,
    append_eq_3_2, append_eq_2_4, high_5_5, low_5_5, *]

theorem encodesBack_decodeSys {w : IWord} (hop : (fldOp w).toNat = 24) :
    EncodesBack (decodeSys (fldD w) (fldA w) (fldB w) (fldFn w) (fldMod w)) w := by
  unfold decodeSys
  split <;> simp +contextual [Encodes, Instr.wf.eq_def, Instr.encoded.eq_def, encode.eq_def, append_eq_5_6, append_eq_2_3_1, *]

theorem encodesBack_decodeTagTable {w : IWord} (hop : (fldOp w).toNat = 25) :
    EncodesBack (decodeTagTable (fldD w) (fldA w) (fldB w) (fldFn w) (fldMod w)) w := by
  unfold decodeTagTable
  split <;> simp +contextual [Encodes, Instr.wf.eq_def, Instr.encoded.eq_def, encode.eq_def, *]

theorem encodesBack_decodeVcfg {w : IWord} (hop : (fldOp w).toNat = 32) :
    EncodesBack (decodeVcfg (fldD w) (fldA w) (fldB w) (fldFn w) (fldMod w)) w := by
  unfold decodeVcfg
  split <;> simp +contextual [Encodes, Instr.wf.eq_def, Instr.encoded.eq_def, encode.eq_def, append_eq_4_2, *]

theorem encodesBack_decodeVarith {w : IWord} (hop : (fldOp w).toNat = 33) :
    EncodesBack (decodeVarith (fldVd w) (fldVa w) (fldVb w) (fldM w) (fldVfn w)) w := by
  unfold decodeVarith
  split <;> simp +contextual [Encodes, Instr.wf.eq_def, Instr.encoded.eq_def, encode.eq_def, append_eq_1_5, *]

theorem encodesBack_decodeVariths {w : IWord} (hop : (fldOp w).toNat = 34) :
    EncodesBack (decodeVariths (fldVd w) (fldVa w) (fldXb w) (fldSm w) (fldSi w) (fldVfn w)) w := by
  unfold decodeVariths
  split <;> simp +contextual [Encodes, Instr.wf.eq_def, Instr.encoded.eq_def, encode.eq_def, *]

theorem encodesBack_decodeVcmp {w : IWord} (hop : (fldOp w).toNat = 35) :
    EncodesBack (decodeVcmp (fldVd w) (fldVa w) (fldVb w) (fldM w) (fldVfn w)) w := by
  unfold decodeVcmp
  split <;> simp +contextual [Encodes, Instr.wf.eq_def, Instr.encoded.eq_def, encode.eq_def, *]

theorem encodesBack_decodeVred {w : IWord} (hop : (fldOp w).toNat = 36) :
    EncodesBack (decodeVred (fldVd w) (fldVa w) (fldVb w) (fldM w) (fldVfn w)) w := by
  unfold decodeVred
  split <;> simp +contextual [Encodes, Instr.wf.eq_def, Instr.encoded.eq_def, encode.eq_def, *]

theorem encodesBack_decodeVconv {w : IWord} (hop : (fldOp w).toNat = 37) :
    EncodesBack (decodeVconv (fldVd w) (fldVa w) (fldVb w) (fldM w) (fldVfn w)) w := by
  unfold decodeVconv
  split <;> simp +contextual [Encodes, Instr.wf.eq_def, Instr.encoded.eq_def, encode.eq_def, append_eq_1_5, append_eq_4_2, *]

theorem encodesBack_decodeVperm {w : IWord} (hop : (fldOp w).toNat = 38) :
    EncodesBack (decodeVperm (fldVd w) (fldVa w) (fldVb w) (fldM w) (fldVfn w)) w := by
  unfold decodeVperm
  split <;> simp +contextual [Encodes, Instr.wf.eq_def, Instr.encoded.eq_def, encode.eq_def, append_eq_5_1, *]

theorem encodesBack_decodeVload {w : IWord} (hop : (fldOp w).toNat = 39) :
    EncodesBack (decodeVload (fldVd w) (fldXa w) (fldMb w) (fldSm w) (fldMq w) (fldMfn w)) w := by
  unfold decodeVload
  split <;> simp +contextual [Encodes, Instr.wf.eq_def, Instr.encoded.eq_def, encode.eq_def, append_eq_1_5, append_eq_2_1, *]

theorem encodesBack_decodeVstore {w : IWord} (hop : (fldOp w).toNat = 40) :
    EncodesBack (decodeVstore (fldVd w) (fldXa w) (fldMb w) (fldSm w) (fldMq w) (fldMfn w)) w := by
  unfold decodeVstore
  split <;> simp +contextual [Encodes, Instr.wf.eq_def, Instr.encoded.eq_def, encode.eq_def, append_eq_1_5, append_eq_2_1, *]

theorem encodesBack_decodeVupd {w : IWord} (hop : (fldOp w).toNat = 41) :
    EncodesBack (decodeVupd (fldVd w) (fldVa w) (fldVb w) (fldM w) (fldVfn w)) w := by
  unfold decodeVupd
  split <;> simp +contextual [Encodes, Instr.wf.eq_def, Instr.encoded.eq_def, encode.eq_def, *]

theorem encodesBack_decodeVsync {w : IWord} (hop : (fldOp w).toNat = 42) :
    EncodesBack (decodeVsync (fldVd w) (fldVa w) (fldVb w) (fldM w) (fldVfn w)) w := by
  unfold decodeVsync
  split <;> simp +contextual [Encodes, Instr.wf.eq_def, Instr.encoded.eq_def, encode.eq_def, *]

theorem encodesBack_decodeTrellis {w : IWord} (hop : (fldOp w).toNat = 48) :
    EncodesBack (decodeTrellis (fldD w) (fldA w) (fldB w) (fldFn w) (fldMod w)) w := by
  unfold decodeTrellis
  split <;> simp +contextual [Encodes, Instr.wf.eq_def, Instr.encoded.eq_def, encode.eq_def, append_eq_2_4, append_eq_1_1_4, *]

theorem encodesBack_decodeMatrix {w : IWord} (hop : (fldOp w).toNat = 49) :
    EncodesBack (decodeMatrix (fldD w) (fldA w) (fldB w) (fldFn w) (fldMod w)) w := by
  unfold decodeMatrix
  split <;> simp +contextual [Encodes, Instr.wf.eq_def, Instr.encoded.eq_def, encode.eq_def, append_eq_2_4, append_eq_1_1_4, *]

theorem encodesBack_decodeGraph {w : IWord} (hop : (fldOp w).toNat = 50) :
    EncodesBack (decodeGraph (fldD w) (fldA w) (fldB w) (fldFn w) (fldMod w)) w := by
  unfold decodeGraph
  split <;> simp +contextual [Encodes, Instr.wf.eq_def, Instr.encoded.eq_def, encode.eq_def, append_eq_2_4, *]

theorem encodesBack_decodeRoute {w : IWord} (hop : (fldOp w).toNat = 51) :
    EncodesBack (decodeRoute (fldD w) (fldA w) (fldB w) (fldFn w) (fldMod w)) w := by
  unfold decodeRoute
  split <;> simp +contextual [Encodes, Instr.wf.eq_def, Instr.encoded.eq_def, encode.eq_def, append_eq_2_4, *]

theorem encodesBack_decodeColl {w : IWord} (hop : (fldOp w).toNat = 52) :
    EncodesBack (decodeColl (fldD w) (fldA w) (fldB w) (fldFn w) (fldMod w)) w := by
  unfold decodeColl
  split <;> simp +contextual [Encodes, Instr.wf.eq_def, Instr.encoded.eq_def, encode.eq_def, append_eq_2_4, *]

theorem encodesBack_decodeCopy {w : IWord} (hop : (fldOp w).toNat = 53) :
    EncodesBack (decodeCopy (fldD w) (fldA w) (fldB w) (fldFn w) (fldMod w)) w := by
  unfold decodeCopy
  split <;> simp +contextual [Encodes, Instr.wf.eq_def, Instr.encoded.eq_def, encode.eq_def, append_eq_2_4, *]

/-- What a word decodes to encodes to it: the decoder of each major says so of the words of that major (09 Table 9-5). -/
theorem encodesBack_decodeWord (w : IWord) : EncodesBack (decodeWord w) w := by
  unfold decodeWord
  match hop : (fldOp w).toNat with
  | 0 | 26 | 27 | 28 | 29 | 30 | 31 | 43 | 44 | 45 | 46 | 47 => exact encodesBack_none
  | 2 | 3 | 4 | 5 | 6 | 7 | 13 | 14 | 15 | 16 | 17 | 18 | 20 =>
    exact encodesBack_some.2 ⟨rfl, rfl, congrArg (fun w => [w]) (packI_eq_iff.2 ⟨hop.symm, rfl, rfl, rfl⟩)⟩
  | 9 | 10 | 11 =>
    simp +contextual [decodeLd, decodeLdz, decodeSt, Encodes, Instr.wf.eq_def, Instr.encoded.eq_def, encode.eq_def, append_eq_2_14, hop]
  | 19 => exact encodesBack_some.2 ⟨rfl, rfl, congrArg (fun w => [w]) (packJ_eq_iff.2 ⟨hop.symm, rfl, rfl⟩)⟩
  | 1 => exact encodesBack_decodeInt hop
  | 8 => exact encodesBack_decodeShi hop
  | 12 => exact encodesBack_decodeFmem hop
  | 21 => exact encodesBack_decodeFp hop
  | 22 => exact encodesBack_decodeAmo hop
  | 23 => exact encodesBack_decodeSync hop
  | 24 => exact encodesBack_decodeSys hop
  | 25 => exact encodesBack_decodeTagTable hop
  | 32 => exact encodesBack_decodeVcfg hop
  | 33 => exact encodesBack_decodeVarith hop
  | 34 => exact encodesBack_decodeVariths hop
  | 35 => exact encodesBack_decodeVcmp hop
  | 36 => exact encodesBack_decodeVred hop
  | 37 => exact encodesBack_decodeVconv hop
  | 38 => exact encodesBack_decodeVperm hop
  | 39 => exact encodesBack_decodeVload hop
  | 40 => exact encodesBack_decodeVstore hop
  | 41 => exact encodesBack_decodeVupd hop
  | 42 => exact encodesBack_decodeVsync hop
  | 48 => exact encodesBack_decodeTrellis hop
  | 49 => exact encodesBack_decodeMatrix hop
  | 50 => exact encodesBack_decodeGraph hop
  | 51 => exact encodesBack_decodeRoute hop
  | 52 => exact encodesBack_decodeColl hop
  | 53 => exact encodesBack_decodeCopy hop
  | _ + 54 => exact encodesBack_none

/-! ### Encoding what was decoded -/

theorem bytesOfWord_wordOfBytes (b0 b1 b2 b3 : Byte) : bytesOfWord (wordOfBytes b0 b1 b2 b3) = [b0, b1, b2, b3] := by
  simp only [bytesOfWord, wordOfBytes, List.cons.injEq, and_true]
  refine ⟨?_, ?_, ?_, ?_⟩
  all_goals
    ext j hj
    simp only [BitVec.getElem_extractLsb', BitVec.getLsbD_append]
    grind

theorem pfx_fields {w : IWord} (h : isPfx w = true) : 63#6 ++ w.extractLsb' 0 26 = w :=
  append_eq_6_26.2 ⟨(beq_iff_eq (a := fldOp w)).1 h, rfl⟩

/-- Settles O58: a PFX has every field of its word in it, and what any other word decodes to encodes to it. -/
theorem decodedWordsEncode : Obligations.DecodedWordsEncode := by
  unfold Obligations.DecodedWordsEncode
  intro bs rest i h
  unfold decode at h
  split at h
  case h_2 => cases h
  next b0 b1 b2 b3 rest' =>
    split at h
    next hpfx =>
      split at h
      next c0 c1 c2 c3 tail =>
        obtain ⟨rfl, rfl⟩ := Prod.mk.inj (Except.ok.inj h)
        refine ⟨rfl, rfl, ?_⟩
        simp [encode.eq_def, pfx_fields hpfx, bytesOfWord_wordOfBytes]
      next => cases h
    next =>
      split at h
      next j hj =>
        obtain ⟨rfl, rfl⟩ := Prod.mk.inj (Except.ok.inj h)
        obtain ⟨hwf, henc, hword⟩ := encodesBack_decodeWord _ _ hj
        exact ⟨hwf, henc, by simp [hword, bytesOfWord_wordOfBytes]⟩
      next => cases h

end Sys2Proof
end

section
/-! PROOFS of the statement on prefixed forms (O25; 09 R121 to R123): PFX with a word of each major is the operation of that major with the
joined immediate, eight bytes long. -/
namespace Sys2Proof.Machine

/-! ### What PFX does with a word of each major -/

section
variable {k : BitVec 26} {w : IWord} {s : State}

theorem exec_pfx (k : BitVec 26) (w : IWord) (s : State) : exec (.pfx k w) s = execPfx k w s := rfl

theorem exec_pfx_addi (h : fldOp w = 0x02) : exec (.pfx k w) s = .next (opAddi (fldD w) (fldA w) (pfxImm k w) 8 s) := by
  simp [exec_pfx, execPfx, h]

theorem exec_pfx_andi (h : fldOp w = 0x03) : exec (.pfx k w) s = .next (opAndi (fldD w) (fldA w) (pfxImm k w) 8 s) := by
  simp [exec_pfx, execPfx, h]

theorem exec_pfx_ori (h : fldOp w = 0x04) : exec (.pfx k w) s = .next (opOri (fldD w) (fldA w) (pfxImm k w) 8 s) := by
  simp [exec_pfx, execPfx, h]

theorem exec_pfx_xori (h : fldOp w = 0x05) : exec (.pfx k w) s = .next (opXori (fldD w) (fldA w) (pfxImm k w) 8 s) := by
  simp [exec_pfx, execPfx, h]

theorem exec_pfx_slti (h : fldOp w = 0x06) : exec (.pfx k w) s = .next (opSlti (fldD w) (fldA w) (pfxImm k w) 8 s) := by
  simp [exec_pfx, execPfx, h]

theorem exec_pfx_lih (h : fldOp w = 0x07) : exec (.pfx k w) s = .next (opLih (fldD w) (fldA w) (pfxImm k w) 8 s) := by
  simp [exec_pfx, execPfx, h]

theorem exec_pfx_ld (h : fldOp w = 0x09) : exec (.pfx k w) s = .next (opLd (fldD w) (fldA w) (fldSize w) (pfxDisp k w) 8 s) := by
  simp [exec_pfx, execPfx, h]

theorem exec_pfx_ldz (h : fldOp w = 0x0A) : exec (.pfx k w) s = .next (opLdz (fldD w) (fldA w) (fldSize w) (pfxDisp k w) 8 s) := by
  simp [exec_pfx, execPfx, h]

theorem exec_pfx_st (h : fldOp w = 0x0B) : exec (.pfx k w) s = .next (opSt (fldD w) (fldA w) (fldSize w) (pfxDisp k w) 8 s) := by
  simp [exec_pfx, execPfx, h]

theorem exec_pfx_fmem (h : fldOp w = 0x0C) : exec (.pfx k w) s = .next (pfxFmem k w s) := by
  simp [exec_pfx, execPfx, h]

theorem exec_pfx_jlr (h : fldOp w = 0x14) : exec (.pfx k w) s = .next (opJlr (fldD w) (fldA w) (pfxImm k w) 8 s) := by
  simp [exec_pfx, execPfx, h]

/-- A vector instruction on an immediate is one that its word alone decodes to, with SI set. -/
theorem exec_pfx_vector {i : Instr} (hi : decodeWord w = some i) (h : fldOp w = 0x22) (hsi : fldSi w = 1#1) :
    exec (.pfx k w) s = .next (s.vissue w (some k) 8) := by
  have hdec : decodeVariths (fldVd w) (fldVa w) (fldXb w) (fldSm w) (fldSi w) (fldVfn w) = some i := by
    simpa [decodeWord, h] using hi
  rw [exec_pfx, execPfx, hdec, hsi, h]
  rfl

theorem exec_pfx_vector_register (h : fldOp w = 0x22) (hsi : fldSi w = 0) : exec (.pfx k w) s = .next (s.illInsn w) := by
  simp [exec_pfx, execPfx, h, hsi]

/-- Every other major takes no PFX (09 R122). -/
theorem exec_pfx_other (h : fldOp w ∉ [(0x02 : BitVec 6), 0x03, 0x04, 0x05, 0x06, 0x07, 0x09, 0x0A, 0x0B, 0x0C, 0x14, 0x22]) :
    exec (.pfx k w) s = .next (s.illInsn w) := by
  simp only [List.mem_cons, List.not_mem_nil, or_false, not_or, ← BitVec.toNat_inj, BitVec.reduceToNat] at h
  rw [exec_pfx, execPfx]
  split
  case h_13 => rfl
  all_goals omega

/-! ### The fields of a load, a store and an FMEM word -/

theorem fldSize_eq {z : Size} (h : Size.ofCode? ((fldImm w).extractLsb' 14 2) = some z) : fldSize w = z := by
  rw [fldSize, h, Option.getD_some]

theorem freg?_low {d : BitVec 5} (h : d.getLsbD 4 = false) : freg? d = some (d.setWidth 4) := by
  rw [freg?_eq_some]
  revert d
  decide

theorem freg?_high {d : BitVec 5} (h : d.getLsbD 4 = true) : freg? d = none := by
  revert d
  decide

theorem exec_pfx_fldw (h : fldOp w = 0x0C) (hd : (fldD w).getLsbD 4 = false) (hz : fldSize w = .b) :
    exec (.pfx k w) s = .next (opFldw ((fldD w).setWidth 4) (fldA w) (pfxDisp k w) 8 s) := by
  rw [exec_pfx_fmem h, pfxFmem, freg?_low hd, hz]

theorem exec_pfx_fldd (h : fldOp w = 0x0C) (hd : (fldD w).getLsbD 4 = false) (hz : fldSize w = .h) :
    exec (.pfx k w) s = .next (opFldd ((fldD w).setWidth 4) (fldA w) (pfxDisp k w) 8 s) := by
  rw [exec_pfx_fmem h, pfxFmem, freg?_low hd, hz]

theorem exec_pfx_fstw (h : fldOp w = 0x0C) (hd : (fldD w).getLsbD 4 = false) (hz : fldSize w = .w) :
    exec (.pfx k w) s = .next (opFstw ((fldD w).setWidth 4) (fldA w) (pfxDisp k w) 8 s) := by
  rw [exec_pfx_fmem h, pfxFmem, freg?_low hd, hz]

theorem exec_pfx_fstd (h : fldOp w = 0x0C) (hd : (fldD w).getLsbD 4 = false) (hz : fldSize w = .d) :
    exec (.pfx k w) s = .next (opFstd ((fldD w).setWidth 4) (fldA w) (pfxDisp k w) 8 s) := by
  rw [exec_pfx_fmem h, pfxFmem, freg?_low hd, hz]

theorem exec_pfx_fmem_high (h : fldOp w = 0x0C) (hd : (fldD w).getLsbD 4 = true) : exec (.pfx k w) s = .next (s.illInsn w) := by
  rw [exec_pfx_fmem h, pfxFmem, freg?_high hd]

end

/-! ### What the operations answer -/

theorem leNat_lt : ∀ bs : List Byte, leNat bs < 256 ^ bs.length
  | [] => Nat.one_pos
  | b :: bs => by
    have ih := leNat_lt bs
    have hb := b.isLt
    rw [leNat, List.length_cons, Nat.pow_succ]
    omega

/-- A read gives a number of n bytes. -/
theorem State.read_lt {s s' : State} {ag : Agent} {va : Word} {n v : Nat} {acc : Acc} (h : s.read ag va n acc = .ok (v, s')) : v < 2 ^ (8 * n) := by
  obtain ⟨ps, hps, -, rfl⟩ := State.read_ok h
  have hlt := leNat_lt (ps.map fun p => s'.byte p.pa)
  rwa [List.length_map, length_places hps, show 256 = 2 ^ 8 from rfl, ← Nat.pow_mul] at hlt

theorem patternInt_signed {w : Nat} (hw : 0 < w) (v : Nat) : patternInt true w v = (BitVec.ofNat w v).toInt := by
  have hpow : 2 ^ w = 2 * 2 ^ (w - 1) := by rw [← Nat.pow_succ', Nat.succ_eq_add_one, Nat.sub_add_cancel hw]
  rw [patternInt, BitVec.toInt_eq_toNat_cond, BitVec.toNat_ofNat]
  simp only [Bool.true_and, decide_eq_true_eq]
  split <;> split <;> omega

theorem me_pc_leavePage (s : State) (ag : Agent) (va n : Nat) : (s.leavePage ag va n).me.pc = s.me.pc := by
  obtain ⟨hothers, hplanes⟩ := leavePage_others s ag va n
  have hcur : (s.leavePage ag va n).cur = s.cur := (congrArg State.cur hothers :)
  rw [State.me, hcur]
  exact (congrArg Plane.pc (hplanes s.cur) :)

theorem getF_advance (s : State) (len : Nat) (r : FReg) : (s.advance len).getF r = s.getF r := by
  simp [State.getF, State.advance]

/-- An instruction of any length that writes Fd retires. -/
theorem onlyF_setF_advance (s : State) (d : FReg) (f : FFmt) (v : Word) (len : Nat) :
    OnlyF s d f v (s.me.pc + BitVec.ofNat 64 len) ((s.setF d f v).advance len) := by
  obtain ⟨hself, hothers, -⟩ := onlyF_set s d f v
  obtain ⟨hgoes, hme, -⟩ := onlyPc_advance (s.setF d f v) len
  have hpc : (s.setF d f v).me.pc = s.me.pc := by simp [State.setF]
  simp only [getF_advance] at hself hothers
  refine ⟨(getF_advance ..).trans hself, fun r hr => (getF_advance ..).trans (hothers r hr), hpc ▸ hgoes,
    onlyMe_trans (onlyMe_modMe _ _) hme, ?_⟩
  simp only [State.advance, State.setF, State.me_modMe, SameButPc, Plane.advance]

/-! ### Loads and stores -/

theorem State.loading_of_read {s s' : State} {addr : Word} {n v : Nat} {acc : Acc} (hc : s.noConflict addr n acc)
    (hr : s.read s.myAgent addr n acc = .ok (v, s')) (k : Nat → State → State) : s.loading addr n acc k = k v s' := by
  unfold State.noConflict at hc
  rw [State.loading, hc, hr]
  rfl

theorem State.storing_of_write {s s' : State} {addr : Word} {n d : Nat} {acc : Acc} (hc : s.noConflict addr n acc)
    (hw : s.write s.myAgent addr n d acc = .ok s') (k : State → State) : s.storing addr n d acc k = k s' := by
  unfold State.noConflict at hc
  rw [State.storing, hc, hw]
  rfl

theorem me_pc_read {s s' : State} {ag : Agent} {va : Word} {n v : Nat} {acc : Acc} (h : s.read ag va n acc = .ok (v, s')) :
    s'.me.pc = s.me.pc := by
  rw [me_of_touched (onlyTouched_read h), me_pc_leavePage]

theorem me_pc_write {s s' : State} {ag : Agent} {va : Word} {n d : Nat} {acc : Acc} (h : s.write ag va n d acc = .ok s') :
    s'.me.pc = s.me.pc := by
  rw [me_of_stored (onlyStored_write h), me_pc_leavePage]

section
variable {s s' : State} {a : XReg} {e : Word} {z : Size} {v : Nat} {len : Nat}

theorem onlyX_opLd (d : XReg) (hc : s.noConflict (s.getX a + e) (sizeBytes z) .read)
    (hr : s.read s.myAgent (s.getX a + e) (sizeBytes z) .read = .ok (v, s')) :
    OnlyX s' d ((BitVec.ofNat (8 * sizeBytes z) v).signExtend 64) (s.me.pc + BitVec.ofNat 64 len) (opLd d a z e len s) := by
  have hpos : 0 < 8 * sizeBytes z := by cases z <;> decide
  rw [opLd, State.loading_of_read hc hr, patternInt_signed hpos, ← me_pc_read hr]
  exact onlyX_retX ..

theorem onlyX_opLdz (d : XReg) (hc : s.noConflict (s.getX a + e) (sizeBytes z) .read)
    (hr : s.read s.myAgent (s.getX a + e) (sizeBytes z) .read = .ok (v, s')) :
    OnlyX s' d ((BitVec.ofNat (8 * sizeBytes z) v).setWidth 64) (s.me.pc + BitVec.ofNat 64 len) (opLdz d a z e len s) := by
  have hv : (BitVec.ofNat (8 * sizeBytes z) v).setWidth 64 = BitVec.ofNat 64 v := by
    rw [← BitVec.ofNat_toNat, BitVec.toNat_ofNat, Nat.mod_eq_of_lt (State.read_lt hr)]
  rw [opLdz, State.loading_of_read hc hr, hv, ← me_pc_read hr]
  exact onlyX_retX ..

theorem onlyPc_opSt (d : XReg) (hc : s.noConflict (s.getX a + e) (sizeBytes z) .write)
    (hw : s.write s.myAgent (s.getX a + e) (sizeBytes z) (s.getX d).toNat .write = .ok s') :
    OnlyPc s' (s.me.pc + BitVec.ofNat 64 len) (opSt d a z e len s) := by
  rw [opSt, State.storing_of_write hc hw, ← me_pc_write hw]
  exact onlyPc_advance ..

theorem onlyF_opFldw (d : FReg) (hc : s.noConflict (s.getX a + e) 4 .read) (hr : s.read s.myAgent (s.getX a + e) 4 .read = .ok (v, s')) :
    OnlyF s' d .f32 (BitVec.ofNat 64 (v % 2 ^ (8 * 4))) (s.me.pc + BitVec.ofNat 64 len) (opFldw d a e len s) := by
  rw [opFldw, State.loading_of_read hc hr, Nat.mod_eq_of_lt (State.read_lt hr), ← me_pc_read hr]
  exact onlyF_setF_advance ..

theorem onlyF_opFldd (d : FReg) (hc : s.noConflict (s.getX a + e) 8 .read) (hr : s.read s.myAgent (s.getX a + e) 8 .read = .ok (v, s')) :
    OnlyF s' d .f64 (BitVec.ofNat 64 (v % 2 ^ (8 * 8))) (s.me.pc + BitVec.ofNat 64 len) (opFldd d a e len s) := by
  rw [opFldd, State.loading_of_read hc hr, Nat.mod_eq_of_lt (State.read_lt hr), ← me_pc_read hr]
  exact onlyF_setF_advance ..

theorem onlyPc_opFstw (d : FReg) (hc : s.noConflict (s.getX a + e) 4 .write)
    (hw : s.write s.myAgent (s.getX a + e) 4 (s.getF d).bits.toNat .write = .ok s') :
    OnlyPc s' (s.me.pc + BitVec.ofNat 64 len) (opFstw d a e len s) := by
  rw [opFstw, State.storing_of_write hc hw, ← me_pc_write hw]
  exact onlyPc_advance ..

theorem onlyPc_opFstd (d : FReg) (hc : s.noConflict (s.getX a + e) 8 .write)
    (hw : s.write s.myAgent (s.getX a + e) 8 (s.getF d).bits.toNat .write = .ok s') :
    OnlyPc s' (s.me.pc + BitVec.ofNat 64 len) (opFstd d a e len s) := by
  rw [opFstd, State.storing_of_write hc hw, ← me_pc_write hw]
  exact onlyPc_advance ..

end

theorem answers_pfx_load {s s' : State} {k : BitVec 26} {w : IWord} {z : Size} {v : Nat}
    (hz : Size.ofCode? ((fldImm w).extractLsb' 14 2) = some z) (hop : fldOp w ∈ [(0x09 : BitVec 6), 0x0A])
    (hc : s.noConflict (s.getX (fldA w) + pfxDisp k w) (sizeBytes z) .read)
    (hr : s.read s.myAgent (s.getX (fldA w) + pfxDisp k w) (sizeBytes z) .read = .ok (v, s')) :
    let x := BitVec.ofNat (8 * sizeBytes z) v
    Answers (.pfx k w) s (OnlyX s' (fldD w) (if fldOp w = 0x09 then x.signExtend 64 else x.setWidth 64) (s.me.pc + 8)) := by
  intro x
  obtain rfl := fldSize_eq hz
  simp only [List.mem_cons, List.not_mem_nil, or_false] at hop
  rcases hop with hop | hop
  · rw [if_pos hop]
    exact ⟨_, exec_pfx_ld hop, onlyX_opLd _ hc hr⟩
  · rw [if_neg (by rw [hop]; decide)]
    exact ⟨_, exec_pfx_ldz hop, onlyX_opLdz _ hc hr⟩

/-! ### The illegal-instruction trap -/

theorem trapsAt_of_illInsn {i : Instr} {s : State} {w : IWord} (hs : s.trapReady) (h : exec i s = .next (s.illInsn w)) :
    TrapsAt i s causeIllinsn (w.setWidth 64) := by
  obtain ⟨hq, ht, hw⟩ := hs
  exact ⟨_, h, trapped_trapAt hq ht hw⟩

theorem VPlan.settle_illinsn {pl : VPlan} (h : pl.chk = .illinsn) (b : Bool) : (pl.settle b).chk = .illinsn := by
  unfold VPlan.settle
  split
  · rfl
  · exact h

theorem planCompute_immediate {e : VEntry} {tv : TagView} (hop : e.major = 0x22) : planCompute e tv = planArith e tv := by
  rw [planCompute, hop]
  rfl

/-- A prefixed immediate with an imm5 on floating-point elements is the last of the illegal-instruction conditions (09 R121). -/
theorem planArith_immediate_float {e : VEntry} {tv : TagView} (hop : e.major = 0x22) (hfn : e.fn5 ≠ 31) (hsi : fldSi e.w = 1#1)
    (hpfx : e.pfx.isSome = true) (hfp : (tagFp? (tv e.va)).isSome = true) (hxb : fldXb e.w ≠ 0#5) : (planArith e tv).chk = .illinsn := by
  simp [planArith, VPlan.check, hop, hfn, hsi, hpfx, hfp, hxb]

theorem vissue_of_illinsn {s : State} {w : IWord} {pfx : Option (BitVec 26)} {len : Nat}
    (h : (s.vplan true (s.entryOf w pfx) s.frontTags).chk = .illinsn) : s.vissue w pfx len = s.illInsn w := by
  simp only [State.vissue, State.vcheck, h]
  rfl

theorem vissue_immediate_float {s : State} {w : IWord} (k : BitVec 26) (len : Nat) (hop : fldOp w = 0x22) (hfn : (fldVfn w).toNat ≠ 31)
    (hsi : fldSi w = 1#1) (hxb : fldXb w ≠ 0) (hfp : (tagFp? (s.me.vreg (fldVa w).toNat).tag).isSome = true)
    (hstreams : ∀ j : Nat, (s.me.streams[j]?).join = none) (hq : s.me.vq = []) : s.vissue w (some k) len = s.illInsn w := by
  have hmajor : (s.entryOf w (some k)).major = 0x22 := congrArg BitVec.toNat hop
  refine vissue_of_illinsn ?_
  rw [State.frontTags_empty hq, State.vplan_compute hstreams (by simp [VEntry.computes, hmajor]), planCompute_immediate hmajor]
  exact VPlan.settle_illinsn (planArith_immediate_float hmajor hfn hsi rfl hfp hxb) _

/-! ### The obligation -/

/-- Settles O25: PFX with a word is the operation of its major with the joined immediate, and each operation answers what its own lemma says. -/
theorem prefixedForms : Obligations.PrefixedForms := by
  unfold Obligations.PrefixedForms
  intro s k w d x i pc8
  refine ⟨fun h => ⟨_, exec_pfx_addi h, onlyX_retX ..⟩, fun h => ⟨_, exec_pfx_andi h, onlyX_retX ..⟩,
    fun h => ⟨_, exec_pfx_ori h, onlyX_retX ..⟩, fun h => ⟨_, exec_pfx_xori h, onlyX_retX ..⟩,
    fun h => ⟨_, exec_pfx_slti h, onlyX_retX ..⟩, fun h => ⟨_, exec_pfx_lih h, onlyX_retX ..⟩,
    fun h => ⟨_, exec_pfx_jlr h, onlyX_jump ..⟩, ?_, fun j hj hop hsi => exec_pfx_vector hj hop hsi, ?_, ?_, ?_, ?_⟩
  · intro z hz addr n
    have hsize := fldSize_eq hz
    refine ⟨fun hop v s' hc hr => answers_pfx_load hz hop hc hr, ?_, ?_⟩
    · intro hop s' hc hw
      exact ⟨_, exec_pfx_st hop, hsize ▸ onlyPc_opSt _ hc hw⟩
    · intro hop hd f size
      refine ⟨fun hload v s' hc hr => ?_, fun hstore s' hc hw => ?_⟩
      · rcases hload with rfl | rfl
        · exact ⟨_, exec_pfx_fldw hop hd hsize, onlyF_opFldw _ hc hr⟩
        · exact ⟨_, exec_pfx_fldd hop hd hsize, onlyF_opFldd _ hc hr⟩
      · rcases hstore with rfl | rfl
        · exact ⟨_, exec_pfx_fstw hop hd hsize, onlyPc_opFstw _ hc hw⟩
        · exact ⟨_, exec_pfx_fstd hop hd hsize, onlyPc_opFstd _ hc hw⟩
  · intro j hj hop hsi hfn hxb hfp hstreams hs
    refine trapsAt_of_illInsn hs ?_
    rw [exec_pfx_vector hj hop hsi, vissue_immediate_float k 8 hop hfn hsi hxb hfp hstreams hs.1]
  · exact fun hop hsi hs => trapsAt_of_illInsn hs (exec_pfx_vector_register hop hsi)
  · exact fun hop hd hs => trapsAt_of_illInsn hs (exec_pfx_fmem_high hop hd)
  · exact fun hop hs => trapsAt_of_illInsn hs (exec_pfx_other hop)

end Sys2Proof.Machine
end
